-- ==== Sys2Proof/Word.lean ====
section
/-! DEFINITION. The word types of the block: bytes, 32-bit registers (R6), 64-bit words and 96-bit timestamps (R11). -/
namespace Sys2Proof

abbrev Byte := BitVec 8
abbrev Word := BitVec 32
abbrev Word64 := BitVec 64

/-- A timestamp (R11): bits [95:32] count ticks, bits [31:0] are a binary fraction of a tick. -/
abbrev TS := BitVec 96

end Sys2Proof
end

