-- ==== Sys2Proof/Data.lean ====
section
/-! DEFINITION. Data that both commands and the state use: requesters, islands, units, events, samples. -/
namespace Sys2Proof

/-- Who sends a register access (R36, R37): the host, one of the eight AQS contexts, CAL or HEDGE. -/
inductive Requester
  | host
  | ctx (n : Fin 8)
  | cal
  | hedge
deriving DecidableEq, Repr

/-- Who sends a write. A program's access that reaches the block in the same Q cycle as the host's, named by its context and block,
takes effect before it (R20, R56, R243). -/
structure Sender where
  req : Requester
  prog : Option (Fin 8 × Fin 22) := none
deriving DecidableEq, Repr

/-- A write of GLB_MODE, and a program's access of the same Q cycle, which takes effect before it (R56). -/
structure ModeWrite where
  val : BitVec 32
  prog : Option (Fin 8 × Fin 22) := none
deriving DecidableEq, Repr

/-- An island by its index in the order of R248: S0–S3, C, T, Q, D0–D11, H, LA–LC, K. -/
abbrev Island := Fin 24

/-- An event that reaches Q from an island, and a re-arm of interrupt sources (word k, its bits) that the host writes in the same Q
cycle. -/
structure Arrival where
  isl : Island
  rearm : Option (Fin 2 × BitVec 32) := none
deriving DecidableEq, Repr

namespace Island
def s (b : Fin 4) : Island := ⟨b.val, by omega⟩
def c : Island := 4
def t : Island := 5
def q : Island := 6
def d (n : Fin 12) : Island := ⟨7 + n.val, by omega⟩
def h : Island := 19
def l (x : Fin 3) : Island := ⟨20 + x.val, by omega⟩
def k : Island := 23
end Island

/-- An event as AQS sees it (R248). `ts` is `none` while the owning chapter names no timestamp: it takes the tick copy when
it arrives in Q. -/
structure Event where
  num : Nat
  sub : Nat
  arg : Word64
  ts : Option TS
deriving DecidableEq, Repr

/-- A unit that reports a STATE field (R61) and has a boundary of Table 2.8. -/
inductive UnitId
  | ilv
  | fox
  | sdec (d : Fin 4)
  | cap
  | red (p : Fin 4)
  | stk
  | badger
  | beaver (n : Fin 32)
  | ddr (n : Fin 12)
  | ifl (x : Fin 3)
  | lynx (n : Fin 8)
  | pulse (u : Fin 4)
  | owl (n : Fin 8)
  | cal
deriving DecidableEq, Repr

/-- What applies the fields of a commit together (R275): a unit, or a part of one whose chapter gives it a boundary of its
own (the trims of R81, the sample loop of R110, the schedule of R400, the stripe of R367, …). -/
inductive CfgUnit
  | trims
  | ilvCtrl
  | stagTb
  | stagSl
  | owl (n : Fin 8)
  | pulse (u : Fin 4)
  | fox
  | sdec (d : Fin 4)
  | lynx (n : Fin 8)
  | lynxExt
  | cap
  | red (p : Fin 4)
  | redFine
  | stk
  | cal
  | calStale
  | badger
  | badgerRing (r : Fin 4)
  | ddr
  | ddrSpeed
  | ddrStripe
  | beaver
  | beaverSched
  | beaverCh (n : Fin 32)
  | ifl
  | iflRx
  | pwr
deriving DecidableEq, Repr

/-- One converted sample: its 10-bit two's-complement code (R94) and whether the overrange comparator tripped (R69). -/
structure Sample where
  code : BitVec 10
  ovr : Bool
deriving DecidableEq, Repr

/-- A set of trim codes that the estimator computed for one physical sub-converter, 0 to 32 (R85, Table 3.2). -/
structure TrimProp where
  bank : Fin 4
  sub : Nat
  offset : Int
  gain : Int
  bw : Int
  skew : Int
deriving DecidableEq, Repr

/-- What the estimator measured of one physical sub-converter at a window's end (R88): the part of its previous conversion that
leaks into its current one, × 2^−24 of that conversion. `failed` counts for a spare that shadows, whose codes reach no vector:
the window found it FAILED by one of R88's tests. -/
structure SubLeak where
  bank : Fin 4
  sub : Nat
  leak : Nat
  failed : Bool
deriving DecidableEq, Repr

/-- A bit centre that the clock recovery of decoder `dec` found (R159). `pos`: on a sampled input its place in LINE0's vector,
× 2^−8 sample period from the vector's first sample; on SDI the nearest of the tick's sixteen samples. -/
structure CdrBit where
  dec : Fin 4
  pos : Nat
deriving DecidableEq, Repr

/-- What a foreground procedure measured (R320 to R325): absolute codes and corrections before their clamps, the
sub-converters that fail the test of R88 on other grounds than a trim's range, V as measured where the internal reference
gave it, and the largest deviations of R329. Monitors: number, DAC gain, DAC offset, upper and lower comparator offset.
Delays: REFIN, TRIGOUT, PULSE0 to PULSE3, EXTTRIG. -/
structure CalResult where
  trims : List TrimProp
  chans : List (Fin 4 × Int × Int)
  planes : List (Fin 4 × Int)
  failed : List (Fin 4 × Nat)
  delays : List Int
  owls : List (Fin 8 × Int × Int × Int × Int)
  refUv : Nat
  gainPpm : Nat
  offsetUv : Nat
  skewFs : Nat
  thresh : Nat
deriving DecidableEq, Repr

/-- What host software can write in configuration space (R405, R407, R414, R418): MSI-X enable and function mask, Bus Master
Enable, Relaxed Ordering enable, Max Payload Size, Max Read Request Size, and the AER status bits it clears. -/
inductive CfgItem
  | msix (enable funcMask : Bool)
  | busMaster (on : Bool)
  | relaxed (on : Bool)
  | maxPayload (bytes : Nat)
  | maxReadRequest (bytes : Nat)
  | aerCorrectable (clear : Word)
  | aerUncorrectable (clear : Word)
deriving DecidableEq, Repr

/-- Where a register write goes: bytes at a BAR0 offset, or configuration space. -/
inductive RegTarget
  | bar0 (off : BitVec 26) (bytes : List Byte)
  | config (item : CfgItem)
deriving DecidableEq, Repr

/-- A host access to memory: a read of so many bytes, or a write, with `none` for a byte that is not enabled (R410, R413). -/
inductive MemAccess
  | read (len : Nat)
  | write (bytes : List (Option Byte))
deriving DecidableEq, Repr

/-- What a frame and a SCHED flit carry for routing; `flags` bit 0 is LOOPED, bit 1 the west copy. -/
structure RouteHead where
  flags : Nat := 0
  hops : Nat := 1
  dest : Nat
  mask : Nat
  src : Nat
deriving DecidableEq, Repr

/-- What a LINK flit says (Table 18.2), with how many flits the port discarded since the one before. -/
structure LinkFlit where
  level : Nat
  addr : Nat
  valid : Bool
  ack : Bool
  credits : BitVec 16
  foldW : BitVec 8
  foldE : BitVec 8
  txDly : Int
deriving DecidableEq, Repr

/-- A burst request at a channel's arbiter (R376, R378); `addr` is the device address of its 64 bytes. With `ctx` it is the one that
the access in progress of an AQS context makes, and that access says the rest (R237). -/
structure DdrReq where
  addr : Nat
  write : Bool
  data : List Byte
  be : Word64
  classD : Bool
  host : Bool
  urgent : Bool
  ctx : Option (Fin 8) := none
deriving DecidableEq, Repr

/-- How a burst's read ended (R379, R380): without error, corrected, or uncorrectable on the second read too. -/
inductive EccOutcome
  | ok
  | corrected
  | uncorrectable
deriving DecidableEq, Repr

/-- How a burst's read ended: good, poisoned data, or a host read that completed with an error (R395, R397). -/
inductive DmaErr
  | none
  | poisoned
  | hostErr
deriving DecidableEq, Repr

/-- Where a BADGER block comes from: a RED pipe, in the order it was taken, or a descriptor of a ring. -/
inductive JobSrc
  | pipe (p : Fin 4) (seq : Nat)
  | ring (r : Fin 4) (idx : Nat)
deriving DecidableEq, Repr

/-- A request at an arbiter that promotes by age (R38): the index-th burst waiting at a DDR channel, a BEAVER channel's burst, a
BADGER block, the index-th frame waiting at a ring port, a context's request on the AQS register bus to a block. -/
inductive Arbiter
  | ddr (n : Fin 12) (index : Nat)
  | beaver (n : Fin 32)
  | badger (src : JobSrc)
  | ring (port : Fin 6) (index : Nat)
  | aqs (n : Fin 8) (block : Fin 22)
deriving DecidableEq, Repr

/-- An instruction of the debug access port (R470): the four that IEEE 1149.1 requires, and private ones by their code. -/
inductive TapInstr
  | bypass
  | sample
  | extest
  | idcode
  | priv (code : Nat)
deriving DecidableEq, Repr

def JobSrc.isRing (s : JobSrc) (r : Fin 4) : Bool := match s with | .ring q _ => q == r | .pipe _ _ => false
def RouteHead.looped (h : RouteHead) : Bool := h.flags % 2 == 1
def RouteHead.west (h : RouteHead) : Bool := h.flags / 2 % 2 == 1

end Sys2Proof
end

