-- ==== Sys2Proof/Syntax.lean ====
section
/-! DEFINITION. The commands of the block: one constructor per row of the operation table, with what the sender or the world outside
supplies. AQS instructions name the context that issues them. -/
namespace Sys2Proof

inductive Instr
  /-- REGISTER_WRITE (R7). -/
  | registerWrite (q : Sender) (t : RegTarget)
  /-- RC_READ (R7). -/
  | rcRead (q : Requester) (off : BitVec 26) (len : Nat)
  /-- PAIR_LO_READ (R10). -/
  | pairLoRead (q : Requester) (off : BitVec 26) (len : Nat)
  /-- CONFIG_WRITE (R273). -/
  | configWrite (q : Sender) (off : BitVec 26) (v : Word)
  /-- VECTOR_DELIVERED (R18). -/
  | vectorDelivered (inp : Fin 4) (k0 : Int) (samples : List Sample) (ahead : List (BitVec 10)) (cdr : List CdrBit)
  /-- EVENT_DISCARD (R35). -/
  | eventDiscard (isl : Island)
  /-- EV_EVENT_LOST (R35). -/
  | evEventLost (isl : Island)
  /-- MODE_REQUEST (R52). -/
  | modeRequest (v : ModeWrite)
  /-- DRAIN_END (R53). -/
  | drainEnd
  /-- WAIT_CLOCK_LOCK (R53). -/
  | waitClockLock
  /-- SWITCH_DONE (R54). -/
  | switchDone
  /-- WAKE_SWITCH (R51). -/
  | wakeSwitch
  /-- UNIT_DRAIN_DONE (R62). -/
  | unitDrainDone (u : UnitId)
  /-- UNIT_ABORT_DONE (R62). -/
  | unitAbortDone (u : UnitId)
  /-- EST_WINDOW_END (R85). -/
  | estWindowEnd (quals : List Nat) (leaks : List SubLeak) (props : List TrimProp)
  /-- SHADOW_END (R90). -/
  | shadowEnd (b : Fin 4) (trima trimb : Word)
  /-- REF_PRESENT (R101). -/
  | refPresent
  /-- REF_LOSS (R101). -/
  | refLoss
  /-- HOLDOVER_ENTRY (R103). -/
  | holdoverEntry
  /-- REF_RETURN (R104). -/
  | refReturn (measured : Int)
  /-- SLEW_DONE (R105). -/
  | slewDone
  /-- SNAP_STEP (R106). -/
  | snapStep
  /-- TB_LOAD (R108). -/
  | tbLoad (count : Word64)
  /-- SL_DIV_APPLY (R110). -/
  | slDivApply
  /-- SL_UNLOCK (R114). -/
  | slUnlock
  /-- SL_SEARCH_START (R116). -/
  | slSearchStart
  /-- SL_LOCK (R113). -/
  | slLock (band : BitVec 6)
  /-- SL_BAND_FAIL (R113). -/
  | slBandFail
  /-- TB_LOOP_FAIL (R117). -/
  | tbLoopFail
  /-- REF_OFFSET_MEAS (R521). -/
  | refOffsetMeas (offset : Word)
  /-- FOX_ARM_ARM (R141). -/
  | foxArmArm
  /-- FOX_ARM_DISARM (R141). -/
  | foxArmDisarm
  /-- FOX_ARM_FORCE (R140). -/
  | foxArmForce
  /-- SW_PENDING_TAKEN (R140). -/
  | swPendingTaken
  /-- TRIGOUT_EDGE (R147). -/
  | trigoutEdge
  /-- TRIGOUT_ACTIVE_END (R150). -/
  | trigoutActiveEnd
  /-- HOLDOFF_END (R132). -/
  | holdoffEnd
  /-- BUSY_END (R144). -/
  | busyEnd
  /-- SEQ_WINDOW_EXPIRE (R131). -/
  | seqWindowExpire
  /-- TRIGOUT_MIN_RECOMPUTE (R148). -/
  | trigoutMinRecompute
  /-- CDR_LOCK (R159). -/
  | cdrLock (n : Fin 4)
  /-- CDR_LOST (R159). -/
  | cdrLost (n : Fin 4)
  /-- BODY_BURST (R175). -/
  | bodyBurst
  /-- RECORD_CLOSE (R176). -/
  | recordClose
  /-- HEADER_WRITE (R176). -/
  | headerWrite
  /-- ACQ_HEADER_WRITE (R191). -/
  | acqHeaderWrite
  /-- STREAM_BLOCK_CLOSE (R193). -/
  | streamBlockClose
  /-- CAP_STREAM_RD (R194). -/
  | capStreamRd (v : Word64)
  /-- OVERFLOW_RESUME (R196). -/
  | overflowResume
  /-- RED_BLOCK_DONE (R216). -/
  | redBlockDone (p : Fin 4)
  /-- RED_BLOCK_HANDOFF (R204). -/
  | redBlockHandoff (p : Fin 4)
  /-- RED_START (R203). -/
  | redStart (p : Fin 4)
  /-- RED_ABORT (R62). -/
  | redAbort (p : Fin 4)
  /-- RED_MEM_DONE (R203). -/
  | redMemDone (p : Fin 4)
  /-- STK_FOLD_FINAL (R226). -/
  | stkFoldFinal
  /-- STK_CLEAR (R227). -/
  | stkClear
  /-- STK_CLEAR_DONE (R227). -/
  | stkClearDone
  /-- STK_ABORT (R62). -/
  | stkAbort
  /-- NOP (R235). -/
  | nop (n : Fin 8)
  /-- ADD (R235). -/
  | add (n : Fin 8) (d a b : Fin 16)
  /-- SUB (R235). -/
  | sub (n : Fin 8) (d a b : Fin 16)
  /-- AND (R235). -/
  | and (n : Fin 8) (d a b : Fin 16)
  /-- OR (R235). -/
  | or (n : Fin 8) (d a b : Fin 16)
  /-- XOR (R235). -/
  | xor (n : Fin 8) (d a b : Fin 16)
  /-- SHL (R235). -/
  | shl (n : Fin 8) (d a b : Fin 16)
  /-- SHR (R235). -/
  | shr (n : Fin 8) (d a b : Fin 16)
  /-- SAR (R235). -/
  | sar (n : Fin 8) (d a b : Fin 16)
  /-- MUL (R235). -/
  | mul (n : Fin 8) (d a b : Fin 16)
  /-- CMP (R235). -/
  | cmp (n : Fin 8) (a b : Fin 16)
  /-- ADDI (R235). -/
  | addi (n : Fin 8) (d a : Fin 16) (imm : BitVec 18)
  /-- ANDI (R235). -/
  | andi (n : Fin 8) (d a : Fin 16) (imm : BitVec 18)
  /-- ORI (R235). -/
  | ori (n : Fin 8) (d a : Fin 16) (imm : BitVec 18)
  /-- XORI (R235). -/
  | xori (n : Fin 8) (d a : Fin 16) (imm : BitVec 18)
  /-- SHLI (R235). -/
  | shli (n : Fin 8) (d a : Fin 16) (k : BitVec 6)
  /-- SHRI (R235). -/
  | shri (n : Fin 8) (d a : Fin 16) (k : BitVec 6)
  /-- SARI (R235). -/
  | sari (n : Fin 8) (d a : Fin 16) (k : BitVec 6)
  /-- CMPI (R235). -/
  | cmpi (n : Fin 8) (a : Fin 16) (imm : BitVec 18)
  /-- MOVI (R235). -/
  | movi (n : Fin 8) (d : Fin 16) (imm : BitVec 22)
  /-- MOVH (R235). -/
  | movh (n : Fin 8) (d : Fin 16) (imm : BitVec 22)
  /-- LD (R237). -/
  | ld (n : Fin 8) (d a : Fin 16) (imm : BitVec 18)
  /-- LDW (R237). -/
  | ldw (n : Fin 8) (d a : Fin 16) (imm : BitVec 18)
  /-- ST (R237). -/
  | st (n : Fin 8) (d a : Fin 16) (imm : BitVec 18)
  /-- STW (R237). -/
  | stw (n : Fin 8) (d a : Fin 16) (imm : BitVec 18)
  /-- FADD (R239). -/
  | fadd (n : Fin 8) (d a b : Fin 16)
  /-- BR (R235). -/
  | br (n : Fin 8) (cond : BitVec 4) (imm : BitVec 22)
  /-- CALL (R236). -/
  | call (n : Fin 8) (imm : BitVec 22)
  /-- RET (R236). -/
  | ret (n : Fin 8)
  /-- JR (R236). -/
  | jr (n : Fin 8) (a : Fin 16)
  /-- LOOP (R235). -/
  | loop (n : Fin 8) (d : Fin 16) (imm : BitVec 22)
  /-- CSRR (R240). -/
  | csrr (n : Fin 8) (d : Fin 16) (blk : BitVec 5) (woff : BitVec 17)
  /-- CSRW (R242). -/
  | csrw (n : Fin 8) (d : Fin 16) (blk : BitVec 5) (woff : BitVec 17)
  /-- CSRRI (R240). -/
  | csrri (n : Fin 8) (d a : Fin 16) (imm : BitVec 18)
  /-- CSRWI (R242). -/
  | csrwi (n : Fin 8) (d a : Fin 16) (imm : BitVec 18)
  /-- CFGL (R244). -/
  | cfgl (n : Fin 8) (d a : Fin 16)
  /-- COMMIT (R244). -/
  | commit (n : Fin 8) (d : Fin 16)
  /-- WAIT (R249). -/
  | wait (n : Fin 8) (d a : Fin 16) (mask : BitVec 16)
  /-- WAITT (R250). -/
  | waitt (n : Fin 8) (a : Fin 16) (relative : Bool)
  /-- WAITC (R251). -/
  | waitc (n : Fin 8) (k : BitVec 22)
  /-- WSET (R249). -/
  | wset (n : Fin 8) (slot : Fin 16) (ev : BitVec 12)
  /-- EVR (R249). -/
  | evr (n : Fin 8) (d : Fin 16) (sel : BitVec 2)
  /-- TSR (R247). -/
  | tsr (n : Fin 8) (d : Fin 16)
  /-- LYQ (R246). -/
  | lyq (n : Fin 8) (d a : Fin 16) (q : Fin 8)
  /-- ARM (R244). -/
  | arm (n : Fin 8)
  /-- DISARM (R244). -/
  | disarm (n : Fin 8)
  /-- FORCE (R244). -/
  | force (n : Fin 8)
  /-- MODE (R244). -/
  | mode (n : Fin 8) (how wakeArm : Bool) (arr : BitVec 2) (mode : BitVec 3)
  /-- DMAQ (R245). -/
  | dmaq (n : Fin 8) (d a : Fin 16) (ch : Fin 32)
  /-- EMIT (R252). -/
  | emit (n : Fin 8) (a : Fin 16) (sub : BitVec 8)
  /-- START (R253). -/
  | start (n m : Fin 8) (a : Fin 16)
  /-- STOP (R253). -/
  | stop (n m : Fin 8)
  /-- HALT (R253). -/
  | halt (n : Fin 8)
  /-- BKPT (R253). -/
  | bkpt (n : Fin 8)
  /-- ILLEGAL_OP (R234). -/
  | illegalOp (n : Fin 8)
  /-- CSR_READ_DONE (R241). -/
  | csrReadDone (n : Fin 8)
  /-- FABRIC_ACCESS_DONE (R237). -/
  | fabricAccessDone (n : Fin 8)
  /-- CFGL_DONE (R244). -/
  | cfglDone (n : Fin 8)
  /-- DMAQ_DONE (R245). -/
  | dmaqDone (n : Fin 8)
  /-- LYQ_DONE (R246). -/
  | lyqDone (n : Fin 8)
  /-- BUS_TIMEOUT (R242). -/
  | busTimeout (n : Fin 8)
  /-- BUS_TIMEOUT_W (R242). -/
  | busTimeoutW (n : Fin 8) (block : Fin 22)
  /-- MEM_TIMEOUT (R237). -/
  | memTimeout (n : Fin 8)
  /-- EVENT_ARRIVAL (R248). -/
  | eventArrival (x : Arrival)
  /-- WAIT_WAKE (R249). -/
  | waitWake (n : Fin 8)
  /-- WAIT_TIMEOUT (R249). -/
  | waitTimeout (n : Fin 8)
  /-- WAITT_DONE (R250). -/
  | waittDone (n : Fin 8)
  /-- WAITC_DONE (R251). -/
  | waitcDone (n : Fin 8)
  /-- AQS_CTX_START (R254). -/
  | aqsCtxStart (q : Requester) (n : Fin 8)
  /-- AQS_CTX_STOP (R254). -/
  | aqsCtxStop (n : Fin 8)
  /-- AQS_CTX_ABORT (R254). -/
  | aqsCtxAbort (n : Fin 8) (staged : Nat)
  /-- AQS_CTX_STEP (R254). -/
  | aqsCtxStep (q : Requester) (n : Fin 8)
  /-- SRESET (R256). -/
  | sreset
  /-- CFGC_COMMIT (R274). -/
  | cfgcCommit (q : Requester)
  /-- CFGC_DISCARD (R272). -/
  | cfgcDiscard (q : Requester)
  /-- COMMIT_CHECK_DONE (R274). -/
  | commitCheckDone
  /-- COMMIT_APPLY (R275). -/
  | commitApply (u : CfgUnit)
  /-- LYNX_START (R286). -/
  | lynxStart (n : Fin 8)
  /-- LYNX_ABORT (R299). -/
  | lynxAbort (n : Fin 8)
  /-- LYNX_FLUSH (R294). -/
  | lynxFlush (n : Fin 8)
  /-- LYNX_CAL_DONE (R285). -/
  | lynxCalDone (n : Fin 9) (ip : Fin 2) (m1 m2 : Int)
  /-- LYNX_EDGE (R284). -/
  | lynxEdge (n : Fin 8) (e : Nat) (x : Int) (rising : Bool)
  /-- LYNX_EPOCH_END (R287). -/
  | lynxEpochEnd (n : Fin 8)
  /-- LYNX_GATE_CLOSE (R289). -/
  | lynxGateClose (n : Fin 8)
  /-- LYNX_Q_POP (R294). -/
  | lynxQPop (q : Requester) (n : Fin 8)
  /-- EXTTRIG_EDGE (R298). -/
  | exttrigEdge (e : Nat) (x : Int) (rising : Bool)
  /-- OWL_CROSSING (R303). -/
  | owlCrossing (n : Fin 8) (level : Fin 4) (ts : TS)
  /-- SEED_DONE (R306). -/
  | seedDone (n : Fin 8) (reading : Int) (out : Fin 3) (ts : TS)
  /-- OWL_SEED (R309). -/
  | owlSeed (n : Fin 8)
  /-- OWL_READBACK (R310). -/
  | owlReadback (n : Fin 8)
  /-- READBACK_DONE (R310). -/
  | readbackDone (n : Fin 8) (upper lower : BitVec 16)
  /-- OWL_ABORT (R317). -/
  | owlAbort (n : Fin 8)
  /-- PULSE_CMD_FIRE (R312). -/
  | pulseCmdFire (u : Fin 4)
  /-- PULSE_CLEAR (R314). -/
  | pulseClear (u : Fin 4)
  /-- PULSE_ABORT (R315). -/
  | pulseAbort (u : Fin 4)
  /-- PULSE_WIDTH_END (R313). -/
  | pulseWidthEnd (u : Fin 4)
  /-- TRAIN_PERIOD (R313). -/
  | trainPeriod (u : Fin 4)
  /-- CAL_START (R321). -/
  | calStart (v : Word)
  /-- CAL_DONE (R327). -/
  | calDone (r : CalResult)
  /-- CAL_FAIL (R324). -/
  | calFail (reading : Option Nat)
  /-- CAL_SAVE (R332). -/
  | calSave
  /-- CAL_RESTORE (R334). -/
  | calRestore
  /-- CAL_BUNDLE (R337). -/
  | calBundle
  /-- BUNDLE_DONE (R337). -/
  | bundleDone
  /-- CAL_ABORT (R324). -/
  | calAbort
  /-- CAL_STALE_EVAL (R330). -/
  | calStaleEval
  /-- LANE_TAKE (R356). -/
  | laneTake (lane : Fin 8) (host : List Byte)
  /-- BADGER_BLOCK_DONE (R340). -/
  | badgerBlockDone (lane : Fin 8) (verified : Bool)
  /-- JOB_FETCH (R352). -/
  | jobFetch (r : Fin 4) (host : List Byte)
  /-- BADGER_DOORBELL (R352). -/
  | badgerDoorbell (r : Fin 4)
  /-- BADGER_ABORT (R357). -/
  | badgerAbort
  /-- JOB_TIMEOUT (R355). -/
  | jobTimeout (lane : Fin 8) (responds : Bool)
  /-- DDR_TRAIN (R365). -/
  | ddrTrain (mask : BitVec 12)
  /-- TRAINING_DONE (R364). -/
  | trainingDone (ok unsupported : BitVec 12)
  /-- DDR_CH_ABORT (R363). -/
  | ddrChAbort (n : Fin 12)
  /-- STRIPE_APPLY (R367). -/
  | stripeApply
  /-- RATE_WINDOW_END (R368). -/
  | rateWindowEnd (n : Fin 12) (reading : Option Nat)
  /-- REFRESH_DUE (R370). -/
  | refreshDue (n : Fin 12) (rank : Fin 2)
  /-- CLASS_D_QUIET (R371). -/
  | classDQuiet (n : Fin 12)
  /-- DDR_TEMP_CHANGE (R372). -/
  | ddrTempChange (n : Fin 12) (level : Fin 3)
  /-- NEIGHBOUR_REFRESH (R373). -/
  | neighbourRefresh (n : Fin 12) (rank : Fin 2) (sub bank : Nat)
  /-- RETRAIN (R374). -/
  | retrain (n : Fin 12) (drift : Bool)
  /-- POWER_DOWN_ENTRY (R375). -/
  | powerDownEntry (n : Fin 12) (rank : Fin 2)
  /-- SELF_REFRESH_ENTRY (R375). -/
  | selfRefreshEntry (n : Fin 12)
  /-- DDR_REQUEST (R376). -/
  | ddrRequest (r : DdrReq)
  /-- BURST_SERVICE (R376). -/
  | burstService (n : Fin 12) (o : EccOutcome)
  /-- AGE_PROMOTE (R38). -/
  | agePromote (a : Arbiter) (waited : Nat)
  /-- CHAIN_HANDOVER (R388). -/
  | chainHandover (n : Fin 32) (head : Word64)
  /-- BEAVER_DOORBELL (R391). -/
  | beaverDoorbell (n : Fin 32)
  /-- BEAVER_CLEAR (R398). -/
  | beaverClear (n : Fin 32)
  /-- BEAVER_CH_ABORT (R403). -/
  | beaverChAbort (n : Fin 32)
  /-- BEAVER_ABORT (R403). -/
  | beaverAbort
  /-- DESC_FETCH (R389). -/
  | descFetch (n : Fin 32) (host : List Byte)
  /-- DESC_WRITEBACK (R390). -/
  | descWriteback (n : Fin 32)
  /-- BEAVER_BURST (R383). -/
  | beaverBurst (ready : BitVec 32) (host : List Byte) (err : DmaErr)
  /-- DMA_TIMEOUT (R396). -/
  | dmaTimeout (n : Fin 32) (kind : Fin 3) (waited : Nat) (responds : Bool)
  /-- BLOCK_OFFER (R399). -/
  | blockOffer (n : Fin 32)
  /-- SCHED_STEP_LAUNCH (R401). -/
  | schedStepLaunch (num : BitVec 12)
  /-- SCHED_RUN_DONE (R402). -/
  | schedRunDone (n : Fin 32)
  /-- BAR2_ACCESS (R413). -/
  | bar2Access (off : BitVec 39) (x : MemAccess)
  /-- HOST_TIMEOUT (R411). -/
  | hostTimeout (bar2 : Bool) (off : BitVec 39) (len : Option Nat)
  /-- BAD_ADDR_READ (R411). -/
  | badAddrRead (q : Requester)
  /-- IRQ_REARM (R418). -/
  | irqRearm (k : Fin 2) (bits : Word)
  /-- MSIX_UNMASK (R418). -/
  | msixUnmask (v : Fin 64)
  /-- LINK_CHANGE (R406). -/
  | linkChange (speed : Fin 7) (width : Fin 17) (up : Bool) (pm : BitVec 2)
  /-- PERST (R407). -/
  | perst
  /-- FUNCTION_LEVEL_RESET (R407). -/
  | functionLevelReset
  /-- PORT_UP (R436). -/
  | portUp (p : Fin 6)
  /-- PORT_DOWN (R436). -/
  | portDown (p : Fin 6)
  /-- EXCHANGE_PERIOD (R437). -/
  | exchangePeriod (t1 : TS)
  /-- ANNOUNCE_RX (R437). -/
  | announceRx (p : Fin 6) (idx hops : Fin 256) (gm : Word) (gmHops : Fin 256) (steps : BitVec 16) (slew : Bool)
  /-- FOLD_END (R439). -/
  | foldEnd (p : Fin 6)
  /-- LINK_RX (R430). -/
  | linkRx (p : Fin 6) (f : LinkFlit) (bad : Nat)
  /-- HEAL (R440). -/
  | heal (p : Fin 6)
  /-- IFL_ABORT (R441). -/
  | iflAbort (x : Fin 3)
  /-- TIME_REQ_RX (R443). -/
  | timeReqRx (p : Fin 6) (seq : BitVec 16) (t1 t2 t3 : TS)
  /-- TIME_RESP_RX (R443). -/
  | timeRespRx (p : Fin 6) (seq : BitVec 16) (t2 t3 t4 : TS) (gm : Word) (gmHops : Fin 256) (steps : BitVec 16) (slew : Bool)
  /-- ASYM_CAL_W (R445). -/
  | asymCalW (x : Fin 3)
  /-- ASYM_CAL_E (R445). -/
  | asymCalE (x : Fin 3)
  /-- REFLECT_REQ_RX (R445). -/
  | reflectReqRx (p : Fin 6)
  /-- ASYM_DONE (R445). -/
  | asymDone (p : Fin 6) (txDly : Int)
  /-- ASYM_TIMEOUT (R445). -/
  | asymTimeout (p : Fin 6)
  /-- SCHED_SEND (R448). -/
  | schedSend
  /-- SCHED_RX (R449). -/
  | schedRx (p : Fin 6) (h : RouteHead) (level : Nat) (ts : TS)
  /-- TOKEN_REFILL (R449). -/
  | tokenRefill (p : Fin 6)
  /-- FRAME_SEND (R451). -/
  | frameSend
  /-- FRAME_SENT (R451). -/
  | frameSent (p : Fin 6)
  /-- FRAME_RX (R434). -/
  | frameRx (p : Fin 6) (bytes : List Byte) (ts : TS)
  /-- FRAME_AGE_DROP (R453). -/
  | frameAgeDrop (p : Fin 6) (index : Nat)
  /-- QUAR_W (R457). -/
  | quarW (x : Fin 3)
  /-- QUAR_E (R457). -/
  | quarE (x : Fin 3)
  /-- RELEASE_W (R457). -/
  | releaseW (x : Fin 3)
  /-- RELEASE_E (R457). -/
  | releaseE (x : Fin 3)
  /-- GET_CERT (R475). -/
  | getCert
  /-- ATTEST (R476). -/
  | attest
  /-- PRG_VERIFY (R472). -/
  | prgVerify
  /-- PRG_UNLOCK (R472). -/
  | prgUnlock
  /-- PRG_COMMIT_SVN (R473). -/
  | prgCommitSvn
  /-- FW_UPDATE (R465). -/
  | fwUpdate
  /-- FW_COMMIT (R465). -/
  | fwCommit
  /-- ENROLL (R471). -/
  | enroll
  /-- REVOKE (R471). -/
  | revoke
  /-- LC_ADVANCE (R469). -/
  | lcAdvance
  /-- DEBUG_LOCK (R470). -/
  | debugLock
  /-- RING_KEY (R482). -/
  | ringKey
  /-- CAL_EPOCH (R473). -/
  | calEpoch
  /-- SEAL_FLUSH (R481). -/
  | sealFlush
  /-- HEDGE_CMD_DONE (R483). -/
  | hedgeCmdDone (timeout fuseFail : Bool) (rnd : BitVec 256)
  /-- BOOT (R463). -/
  | boot (aOk bOk : Bool) (completed : Nat) (broken : BitVec 4)
  /-- BOOT_DONE (R494). -/
  | bootDone
  /-- LEAF_HASHED (R479). -/
  | leafHashed (n : Nat) (served same : Bool)
  /-- SEAL_DECISION (R481). -/
  | sealDecision (aged : Bool)
  /-- SEAL_WRITTEN (R481). -/
  | sealWritten (rnd : BitVec 256)
  /-- POWER_ON_RESET (R489). -/
  | powerOnReset
  /-- MOD_RST (R490). -/
  | modRst (low : Bool)
  /-- RAIL_CHANGE (R486). -/
  | railChange (r : Fin 9) (ok breaks : Bool)
  /-- RAIL_FAULT (R488). -/
  | railFault (r : Fin 9)
  /-- REF_WAIT_EXPIRE (R495). -/
  | refWaitExpire
  /-- SOFT_RESET (R492). -/
  | softReset (bits : BitVec 22)
  /-- SOFT_RESET_DONE (R492). -/
  | softResetDone (k : Fin 22)
  /-- SENSOR_READING (R499). -/
  | sensorReading (temps : Vector (BitVec 16) 8) (power : Option (BitVec 16))
  /-- THERMAL_SHUTDOWN (R502). -/
  | thermalShutdown
  /-- RESTART (R503). -/
  | restart
  /-- TIMEBASE_LOCK (R102). -/
  | timebaseLock
  /-- TICK_STROBE (R155). -/
  | tickStrobe (cycles : Nat) (sdi : Vector (BitVec 16) 8) (cdr : List CdrBit)
  /-- POSTED_WRITE_DONE (R242). -/
  | postedWriteDone (n : Fin 8) (block : Fin 22)
  /-- BAR0_WINDOW_ACCESS (R410). -/
  | bar0WindowAccess (off : BitVec 26) (x : MemAccess)
  /-- PERST_RELEASE (R497). -/
  | perstRelease
  /-- PCIE_REF_CHANGE (R30). -/
  | pcieRefChange (present : Bool)
  /-- DEBUG_PORT_INSTRUCTION (R470). -/
  | debugPortInstruction (t : TapInstr)
  /-- PCIE_AER_ERROR (R405). -/
  | pcieAerError (uncorrectable : Bool) (status : Word)
deriving DecidableEq, Repr

end Sys2Proof
end

