-- ==== Sys2Proof/Decode.lean ====
section
/-! DEFINITION. The words of AQS instructions (Tables 9.2 to 9.4): the encoder and the decoder. The operation table gives no bits to
any row, so no word of it spells a command. -/
namespace Sys2Proof

/-- The command that a word of the operation table spells: none, since no row has bits (log 4). -/
def decodeTableWord (_nbits _w : Nat) : Option Instr := none

/-! ### Formats (Table 9.2) -/

def encR (op : Nat) (d a b : Fin 16) : Word :=
  BitVec.ofNat 32 (op * 2 ^ 26 + d.val * 2 ^ 22 + a.val * 2 ^ 18 + b.val * 2 ^ 14)
def encI (op : Nat) (d a : Fin 16) (imm : BitVec 18) : Word :=
  BitVec.ofNat 32 (op * 2 ^ 26 + d.val * 2 ^ 22 + a.val * 2 ^ 18 + imm.toNat)
def encU (op : Nat) (d : Fin 16) (imm : BitVec 22) : Word := BitVec.ofNat 32 (op * 2 ^ 26 + d.val * 2 ^ 22 + imm.toNat)
def encC (op : Nat) (d : Fin 16) (blk : BitVec 5) (woff : BitVec 17) : Word :=
  BitVec.ofNat 32 (op * 2 ^ 26 + d.val * 2 ^ 22 + blk.toNat * 2 ^ 17 + woff.toNat)
def encW (op : Nat) (d a : Fin 16) (mask : BitVec 16) : Word :=
  BitVec.ofNat 32 (op * 2 ^ 26 + d.val * 2 ^ 22 + a.val * 2 ^ 18 + mask.toNat)

/-- IMM22 of MODE, laid out as GLB_MODE. -/
def modeImm (how wakeArm : Bool) (arr : BitVec 2) (mode : BitVec 3) : BitVec 22 :=
  BitVec.ofNat 22 (how.toNat * 512 + wakeArm.toNat * 256 + arr.toNat * 16 + mode.toNat)

/-! ### The 54 instructions (Table 9.4) -/

/-- The word of an AQS instruction; none for a command that is no instruction. -/
def aqsEncode : Instr → Option Word
  | .nop _ => some (encU 0x01 0 0)
  | .add _ d a b => some (encR 0x02 d a b)
  | .sub _ d a b => some (encR 0x03 d a b)
  | .and _ d a b => some (encR 0x04 d a b)
  | .or _ d a b => some (encR 0x05 d a b)
  | .xor _ d a b => some (encR 0x06 d a b)
  | .shl _ d a b => some (encR 0x07 d a b)
  | .shr _ d a b => some (encR 0x08 d a b)
  | .sar _ d a b => some (encR 0x09 d a b)
  | .mul _ d a b => some (encR 0x0A d a b)
  | .cmp _ a b => some (encR 0x0B 0 a b)
  | .addi _ d a imm => some (encI 0x0C d a imm)
  | .andi _ d a imm => some (encI 0x0D d a imm)
  | .ori _ d a imm => some (encI 0x0E d a imm)
  | .xori _ d a imm => some (encI 0x0F d a imm)
  | .shli _ d a k => some (encI 0x10 d a (k.setWidth 18))
  | .shri _ d a k => some (encI 0x11 d a (k.setWidth 18))
  | .sari _ d a k => some (encI 0x12 d a (k.setWidth 18))
  | .cmpi _ a imm => some (encI 0x13 0 a imm)
  | .movi _ d imm => some (encU 0x14 d imm)
  | .movh _ d imm => some (encU 0x15 d imm)
  | .ld _ d a imm => some (encI 0x16 d a imm)
  | .ldw _ d a imm => some (encI 0x17 d a imm)
  | .st _ d a imm => some (encI 0x18 d a imm)
  | .stw _ d a imm => some (encI 0x19 d a imm)
  | .fadd _ d a b => some (encR 0x1A d a b)
  | .br _ cond imm => some (encU 0x1B (Fin.ofNat 16 cond.toNat) imm)
  | .call _ imm => some (encU 0x1C 0 imm)
  | .ret _ => some (encU 0x1D 0 0)
  | .jr _ a => some (encR 0x1E 0 a 0)
  | .loop _ d imm => some (encU 0x1F d imm)
  | .csrr _ d blk woff => some (encC 0x20 d blk woff)
  | .csrw _ d blk woff => some (encC 0x21 d blk woff)
  | .csrri _ d a imm => some (encI 0x22 d a imm)
  | .csrwi _ d a imm => some (encI 0x23 d a imm)
  | .cfgl _ d a => some (encR 0x24 d a 0)
  | .commit _ d => some (encU 0x25 d 0)
  | .wait _ d a mask => some (encW 0x26 d a mask)
  | .waitt _ a relative => some (encI 0x27 0 a (BitVec.ofNat 18 relative.toNat))
  | .waitc _ k => some (encU 0x28 0 k)
  | .wset _ slot ev => some (encU 0x29 slot (ev.setWidth 22))
  | .evr _ d sel => some (encU 0x2A d (sel.setWidth 22))
  | .tsr _ d => some (encU 0x2B d 0)
  | .lyq _ d a q => some (encI 0x2C d a (BitVec.ofNat 18 q.val))
  | .arm _ => some (encU 0x2D 0 0)
  | .disarm _ => some (encU 0x2E 0 0)
  | .force _ => some (encU 0x2F 0 0)
  | .mode _ how wakeArm arr mode => some (encU 0x30 0 (modeImm how wakeArm arr mode))
  | .dmaq _ d a ch => some (encI 0x31 d a (BitVec.ofNat 18 ch.val))
  | .emit _ a sub => some (encI 0x32 0 a (sub.setWidth 18))
  | .start _ m a => some (encI 0x33 0 a (BitVec.ofNat 18 m.val))
  | .stop _ m => some (encU 0x34 0 (BitVec.ofNat 22 m.val))
  | .halt _ => some (encU 0x35 0 0)
  | .bkpt _ => some (encU 0x36 0 0)
  | .registerWrite _ _ | .rcRead _ _ _ | .pairLoRead _ _ _ | .configWrite _ _ _ | .vectorDelivered _ _ _ _ _
    | .eventDiscard _ | .evEventLost _ | .modeRequest _ | .drainEnd | .waitClockLock | .switchDone | .wakeSwitch
    | .unitDrainDone _ | .unitAbortDone _ | .estWindowEnd _ _ _ | .shadowEnd _ _ _ | .refPresent | .refLoss | .holdoverEntry
    | .refReturn _ | .slewDone | .snapStep | .tbLoad _ | .slDivApply | .slUnlock | .slSearchStart | .slLock _ | .slBandFail
    | .tbLoopFail | .refOffsetMeas _ | .foxArmArm | .foxArmDisarm | .foxArmForce | .swPendingTaken | .trigoutEdge
    | .trigoutActiveEnd | .holdoffEnd | .busyEnd | .seqWindowExpire | .trigoutMinRecompute | .cdrLock _ | .cdrLost _
    | .bodyBurst | .recordClose | .headerWrite | .acqHeaderWrite | .streamBlockClose | .capStreamRd _ | .overflowResume
    | .redBlockDone _ | .redBlockHandoff _ | .redStart _ | .redAbort _ | .redMemDone _ | .stkFoldFinal | .stkClear
    | .stkClearDone | .stkAbort | .illegalOp _ | .csrReadDone _ | .fabricAccessDone _ | .cfglDone _ | .dmaqDone _
    | .lyqDone _ | .busTimeout _ | .busTimeoutW _ _ | .memTimeout _ | .eventArrival _ | .waitWake _ | .waitTimeout _
    | .waittDone _ | .waitcDone _ | .aqsCtxStart _ _ | .aqsCtxStop _ | .aqsCtxAbort _ _ | .aqsCtxStep _ _ | .sreset
    | .cfgcCommit _ | .cfgcDiscard _ | .commitCheckDone | .commitApply _ | .lynxStart _ | .lynxAbort _ | .lynxFlush _
    | .lynxCalDone _ _ _ _ | .lynxEdge _ _ _ _ | .lynxEpochEnd _ | .lynxGateClose _ | .lynxQPop _ _ | .exttrigEdge _ _ _
    | .owlCrossing _ _ _ | .seedDone _ _ _ _ | .owlSeed _ | .owlReadback _ | .readbackDone _ _ _ | .owlAbort _
    | .pulseCmdFire _ | .pulseClear _ | .pulseAbort _ | .pulseWidthEnd _ | .trainPeriod _ | .calStart _ | .calDone _
    | .calFail _ | .calSave | .calRestore | .calBundle | .bundleDone | .calAbort | .calStaleEval | .laneTake _ _
    | .badgerBlockDone _ _ | .jobFetch _ _ | .badgerDoorbell _ | .badgerAbort | .jobTimeout _ _ | .ddrTrain _
    | .trainingDone _ _ | .ddrChAbort _ | .stripeApply | .rateWindowEnd _ _ | .refreshDue _ _ | .classDQuiet _
    | .ddrTempChange _ _ | .neighbourRefresh _ _ _ _ | .retrain _ _ | .powerDownEntry _ _ | .selfRefreshEntry _
    | .ddrRequest _ | .burstService _ _ | .agePromote _ _ | .chainHandover _ _ | .beaverDoorbell _ | .beaverClear _
    | .beaverChAbort _ | .beaverAbort | .descFetch _ _ | .descWriteback _ | .beaverBurst _ _ _ | .dmaTimeout _ _ _ _
    | .blockOffer _ | .schedStepLaunch _ | .schedRunDone _ | .bar2Access _ _ | .hostTimeout _ _ _ | .badAddrRead _
    | .irqRearm _ _ | .msixUnmask _ | .linkChange _ _ _ _ | .perst | .functionLevelReset | .portUp _ | .portDown _
    | .exchangePeriod _ | .announceRx _ _ _ _ _ _ _ | .foldEnd _ | .linkRx _ _ _ | .heal _ | .iflAbort _
    | .timeReqRx _ _ _ _ _ | .timeRespRx _ _ _ _ _ _ _ _ _ | .asymCalW _ | .asymCalE _ | .reflectReqRx _ | .asymDone _ _
    | .asymTimeout _ | .schedSend | .schedRx _ _ _ _ | .tokenRefill _ | .frameSend | .frameSent _ | .frameRx _ _ _
    | .frameAgeDrop _ _ | .quarW _ | .quarE _ | .releaseW _ | .releaseE _ | .getCert | .attest | .prgVerify | .prgUnlock
    | .prgCommitSvn | .fwUpdate | .fwCommit | .enroll | .revoke | .lcAdvance | .debugLock | .ringKey | .calEpoch
    | .sealFlush | .hedgeCmdDone _ _ _ | .boot _ _ _ _ | .bootDone | .leafHashed _ _ _ | .sealDecision _ | .sealWritten _
    | .powerOnReset | .modRst _ | .railChange _ _ _ | .railFault _ | .refWaitExpire | .softReset _ | .softResetDone _
    | .sensorReading _ _ | .thermalShutdown | .restart | .timebaseLock | .tickStrobe _ _ _ | .postedWriteDone _ _
    | .bar0WindowAccess _ _ | .perstRelease | .pcieRefChange _ | .debugPortInstruction _ | .pcieAerError _ _ => none

/-- The instruction of a word that context n reads; none for a reserved opcode, a must-be-zero bit that is set, and the condition
0xF (R234). -/
def aqsDecode (n : Fin 8) (w : Word) : Option Instr :=
  let x := w.toNat
  let fd : Fin 16 := Fin.ofNat 16 (x / 2 ^ 22)
  let fa : Fin 16 := Fin.ofNat 16 (x / 2 ^ 18)
  let fb : Fin 16 := Fin.ofNat 16 (x / 2 ^ 14)
  let i18 : BitVec 18 := BitVec.ofNat 18 x
  let i22 : BitVec 22 := BitVec.ofNat 22 x
  let blk : BitVec 5 := BitVec.ofNat 5 (x / 2 ^ 17)
  let woff : BitVec 17 := BitVec.ofNat 17 x
  let low (hi : Nat) : Nat := x % 2 ^ (hi + 1)
  match x / 2 ^ 26 with
  | 0x01 => if x % 2 ^ 26 = 0 then some (.nop n) else none
  | 0x02 => if low 13 = 0 then some (.add n fd fa fb) else none
  | 0x03 => if low 13 = 0 then some (.sub n fd fa fb) else none
  | 0x04 => if low 13 = 0 then some (.and n fd fa fb) else none
  | 0x05 => if low 13 = 0 then some (.or n fd fa fb) else none
  | 0x06 => if low 13 = 0 then some (.xor n fd fa fb) else none
  | 0x07 => if low 13 = 0 then some (.shl n fd fa fb) else none
  | 0x08 => if low 13 = 0 then some (.shr n fd fa fb) else none
  | 0x09 => if low 13 = 0 then some (.sar n fd fa fb) else none
  | 0x0A => if low 13 = 0 then some (.mul n fd fa fb) else none
  | 0x0B => if fd = 0 && low 13 = 0 then some (.cmp n fa fb) else none
  | 0x0C => some (.addi n fd fa i18)
  | 0x0D => some (.andi n fd fa i18)
  | 0x0E => some (.ori n fd fa i18)
  | 0x0F => some (.xori n fd fa i18)
  | 0x10 => if low 17 < 64 then some (.shli n fd fa (BitVec.ofNat 6 x)) else none
  | 0x11 => if low 17 < 64 then some (.shri n fd fa (BitVec.ofNat 6 x)) else none
  | 0x12 => if low 17 < 64 then some (.sari n fd fa (BitVec.ofNat 6 x)) else none
  | 0x13 => if fd = 0 then some (.cmpi n fa i18) else none
  | 0x14 => some (.movi n fd i22)
  | 0x15 => some (.movh n fd i22)
  | 0x16 => some (.ld n fd fa i18)
  | 0x17 => some (.ldw n fd fa i18)
  | 0x18 => some (.st n fd fa i18)
  | 0x19 => some (.stw n fd fa i18)
  | 0x1A => if low 13 = 0 then some (.fadd n fd fa fb) else none
  | 0x1B => if fd ≠ 15 then some (.br n (BitVec.ofNat 4 fd.val) i22) else none
  | 0x1C => if fd = 0 then some (.call n i22) else none
  | 0x1D => if x % 2 ^ 26 = 0 then some (.ret n) else none
  | 0x1E => if fd = 0 && low 17 = 0 then some (.jr n fa) else none
  | 0x1F => some (.loop n fd i22)
  | 0x20 => some (.csrr n fd blk woff)
  | 0x21 => some (.csrw n fd blk woff)
  | 0x22 => some (.csrri n fd fa i18)
  | 0x23 => some (.csrwi n fd fa i18)
  | 0x24 => if low 17 = 0 then some (.cfgl n fd fa) else none
  | 0x25 => if low 21 = 0 then some (.commit n fd) else none
  | 0x26 => if low 17 < 2 ^ 16 then some (.wait n fd fa (BitVec.ofNat 16 x)) else none
  | 0x27 => if fd = 0 && low 17 < 2 then some (.waitt n fa (x % 2 == 1)) else none
  | 0x28 => if fd = 0 then some (.waitc n i22) else none
  | 0x29 => if low 21 < 2 ^ 12 then some (.wset n fd (BitVec.ofNat 12 x)) else none
  | 0x2A => if low 21 < 4 then some (.evr n fd (BitVec.ofNat 2 x)) else none
  | 0x2B => if low 21 = 0 then some (.tsr n fd) else none
  | 0x2C => if low 17 < 8 then some (.lyq n fd fa (Fin.ofNat 8 x)) else none
  | 0x2D => if x % 2 ^ 26 = 0 then some (.arm n) else none
  | 0x2E => if x % 2 ^ 26 = 0 then some (.disarm n) else none
  | 0x2F => if x % 2 ^ 26 = 0 then some (.force n) else none
  | 0x30 => if fd = 0 && low 21 / 1024 = 0 && x / 64 % 4 = 0 && x / 8 % 2 = 0 then some (.mode n (x / 512 % 2 == 1) (x / 256 % 2 == 1) (BitVec.ofNat 2 (x / 16)) (BitVec.ofNat 3 x)) else none
  | 0x31 => if low 17 < 32 then some (.dmaq n fd fa (Fin.ofNat 32 x)) else none
  | 0x32 => if fd = 0 && low 17 < 256 then some (.emit n fa (BitVec.ofNat 8 x)) else none
  | 0x33 => if fd = 0 && low 17 < 8 then some (.start n (Fin.ofNat 8 x) fa) else none
  | 0x34 => if fd = 0 && low 21 < 8 then some (.stop n (Fin.ofNat 8 x)) else none
  | 0x35 => if x % 2 ^ 26 = 0 then some (.halt n) else none
  | 0x36 => if x % 2 ^ 26 = 0 then some (.bkpt n) else none
  | _ => none

end Sys2Proof
end

