-- ==== Sys2Proof/Config.lean ====
section
/-! DEFINITION. What is fixed for one module but not by the spec: the grade, what is fitted, what is fused, the
cryptographic functions, and the free values. Every one is an opaque constant without a body, so no proof can see a value. -/
namespace Sys2Proof

/-- The DRAM that an ordering code fits, by its suffix (Table 21.12). -/
inductive OrderingCode
  | c192A | c288B | c384C | c384D | c384E
deriving DecidableEq, Repr, Inhabited

end Sys2Proof

namespace Sys2Proof.Config

/-- A value the spec leaves open: the n-th one the run has met (`Dev.freeCtr` counts them). -/
opaque freeValue : Nat → BitVec 64

/-- The 32 random bytes of the signature that a boot makes (R459, R461), by the number of the open value they are. -/
opaque bootEntropy : Nat → BitVec 256

/-- A byte of memory whose contents the spec calls undefined or lost, by how often that has happened and its address. -/
opaque freeByte : Nat → Nat → Byte

/-- 1 when the module is a GA4320-M, 0 when it is a GA4320-S (Table 0.1, GLB_ID.VARIANT "as built"). -/
opaque variantM : BitVec 1

/-- The module's ordering code and the mask of its fitted DRAM channels (R520, DDR_ORG "as fitted"). -/
opaque orderingCode : OrderingCode
opaque fitted : BitVec 12

/-! RED's built-in FINE filter (R219): its coefficients, its delay (× 2^−16 native periods) and its gain S2 on an
error (R215, × 2^22) are not given.
Values are X24, newest first. -/
opaque fineTaps1 : Nat
opaque fineTaps2 : Nat
opaque fineDelay : Nat
opaque fineS2 : Nat
opaque fineFilter1 : List Int → Int
opaque fineFilter2 : List Int → Int

/-- BADGER's encoder (R345), "a fixed function" the spec does not give: the token stream of transformed data at a level and block
size. -/
opaque badgerTokens : List Byte → Nat → Nat → List Byte

/-- LYNX's factory-characterised delay of a source, × 2^−32 tick (R280). -/
opaque lynxDelay : Nat → Int

/-- IFL's low-pass filter of a bandwidth code over the accepted values, newest first (R443). -/
opaque iflFilter : Nat → List Int → Int

/-- The AES-256-GMAC tag of NIST SP 800-38D (R454): key, IV, authenticated data. -/
opaque gmac : List Byte → List Byte → List Byte → List Byte

/-! Cryptography (R459 to R461): the functions of the standards the spec names, this module's secret and identity, and what the
factory and the firmware put into the boot store. -/
/-- SHA-512 and HMAC-SHA-512 (key, message), the first digest byte lowest. -/
opaque sha512 : List Byte → BitVec 512
opaque hmacSha512 : List Byte → List Byte → BitVec 512
/-- Public key of a seed. -/
opaque ed25519Key : List Byte → List Byte
opaque mldsaKey : List Byte → List Byte
/-- Signature: seed and message; seed, context, message and 32 random bytes. -/
opaque ed25519Sign : List Byte → List Byte → List Byte
opaque mldsaSign : List Byte → List Byte → List Byte → List Byte → List Byte
/-- Verification: public key, message and signature; public key, context, message and signature. -/
opaque ed25519Ok : List Byte → List Byte → List Byte → Bool
opaque mldsaOk : List Byte → List Byte → List Byte → List Byte → Bool
opaque deviceId : BitVec 64
opaque deviceSecret : List Byte
/-- The factory CA that certified DIK: its number n, and its two signatures over the identity certificate (Table 19.1, R475). -/
opaque caNumber : Nat
opaque caEd25519 : List Byte
opaque caMldsa : List Byte
/-- Digest, SVN and key set of the firmware in slot A as shipped. -/
opaque fwDigest : List Byte
opaque fwSvn : Nat
opaque fwKeySet : Nat
/-- The public keys of firmware set n. -/
opaque fwKey : Nat → List Byte
/-- A firmware image's header, whose layout the spec does not give: IMAGE_LEN, SVN and KEY_ID, none where it is wrong. -/
opaque fwHeader : List Byte → Option (Nat × Nat × Nat)

end Sys2Proof.Config
end

