-- ==== Sys2Proof/Machine/Package.lean ====
section
/-! DEFINITION. The package (chapter 21): what each ordering code fits (R520) and what each land carries (R14, R511 to R515). -/
namespace Sys2Proof.Machine

/-! ### Ordering codes (Table 21.12) -/

def OrderingCode.org : OrderingCode → BitVec 3
  | .c192A => 0b000 | .c288B => 0b010 | .c384C => 0b001 | .c384D => 0b011 | .c384E => 0b101

def OrderingCode.maxSpeed : OrderingCode → BitVec 2
  | .c192A => 0b11 | .c288B => 0b10 | .c384C => 0b01 | .c384D => 0b11 | .c384E => 0b10

/-- The value of DDR_SCRAMBLE that host software must commit before it enables neighbour refresh. -/
def OrderingCode.scramble : OrderingCode → BitVec 64
  | .c288B | .c384E => 0x98BADCFE76543210
  | .c384D => 0xEFDCAB9867542310
  | .c192A | .c384C => 0xFEDCBA9876543210

/-- DDR_ORG as the module was built (Table 15.8). -/
def ddrOrgWord : BitVec 32 :=
  0#4 ++ Config.fitted ++ 0#5 ++ OrderingCode.org Config.orderingCode ++ 0#6 ++ OrderingCode.maxSpeed Config.orderingCode

/-! ### Lands -/

/-- A rail that has lands of its own in a zone (Table 20.1; VDDQ_DDR and the DDR5 VPP have theirs by channel). -/
inductive LandRail
  | aon | io | core | sram | ana | ddrphy | ser | anh
deriving DecidableEq, Repr

/-- What a land carries. `p` is true for the P land of a differential pair. -/
inductive Land
  | vss
  | rail (r : LandRail)
  | pcieTx (lane : Nat) (p : Bool)
  | pcieRx (lane : Nat) (p : Bool)
  | pcieRefclk (p : Bool)
  | perstN
  | iflTx (pair : Fin 3) (east : Bool) (lane : Nat) (p : Bool)
  | iflRx (pair : Fin 3) (east : Bool) (lane : Nat) (p : Bool)
  | ddrResetN (n : Nat)
  | ddrAlertN (n : Nat)
  | ddrVddqSense (n : Nat)
  | ddrVpp (n : Nat)
  | ddrVddq (n : Nat)
  | coreSense
  | anaSense
  | vssSense
  | calRefP
  | calRefN
  | aux (i : Nat)
  | tsin (i : Nat)
  | sdi (i : Nat)
  | pulse (i : Nat)
  | tck
  | tms
  | tdi
  | tdo
  | trstN
  | modRstN
deriving DecidableEq, Repr

/-- "Checkerboard X" (R511). -/
def checker (x : Land) (r c : Nat) : Land := if (r + c) % 2 = 0 then x else .vss

/-- The pair of a slot's lands, P before N, and VSS after them (R512). -/
def slotLand (x : Bool → Land) (o : Nat) : Land := if o % 3 = 0 then x true else if o % 3 = 1 then x false else .vss

/-- The PCIe band (Table 21.8): local row k, column o from the band's first. -/
def pcieLand (k o : Nat) : Land :=
  let s := o / 3
  if o = 27 then .vss
  else match k with
    | 2 => slotLand (.pcieTx s) o
    | 4 => if s ≤ 6 then slotLand (.pcieTx (9 + s)) o else if s = 7 then slotLand .pcieRefclk o else .vss
    | 6 => slotLand (.pcieRx s) o
    | 8 => if s ≤ 6 then slotLand (.pcieRx (9 + s)) o else if s = 7 then slotLand (fun p => if p then .perstN else .vss) o else .vss
    | _ => .vss

/-- The band of an Ifeong pair (Table 21.8). -/
def iflLand (pair : Fin 3) (k o r c : Nat) : Land :=
  let s := o / 3
  if o = 27 then .vss
  else match k with
    | 2 => if s ≤ 7 then slotLand (.iflTx pair (decide (4 ≤ s)) (s % 4)) o else .vss
    | 4 => if s ≤ 7 then slotLand (.iflRx pair (decide (4 ≤ s)) (s % 4)) o else .vss
    | 6 | 7 | 8 => checker (.rail .ser) r c
    | _ => .vss

/-- The rows of a DRAM channel (R513): local column j from 1. -/
def ddrLand (n j r c : Nat) : Land :=
  if (r - 10) % 6 = 0 then
    match j with
    | 1 => .ddrResetN n | 2 => .ddrAlertN n | 3 => .ddrVddqSense n | 5 => .ddrVpp n | 7 => .ddrVpp n | _ => .vss
  else checker (.ddrVddq n) r c

/-- The low-speed zones (Table 21.9). -/
def westLow (r j : Nat) : Land :=
  match r, j with
  | 46, 1 => .calRefP | 46, 2 => .calRefN | 46, 4 => .aux 0 | 46, 6 => .aux 1 | 46, 8 => .aux 2
  | 47, 1 => .coreSense | 47, 2 => .anaSense | 47, 3 => .vssSense | 47, 5 => .trstN | 47, 6 => .modRstN
  | 48, 1 => .rail .aon | 48, 2 => .rail .aon
  | 48, 4 => .rail .io | 48, 5 => .rail .io | 48, 6 => .rail .io | 48, 7 => .rail .io
  | _, _ => .vss

def eastLow (r j : Nat) : Land :=
  match r with
  | 46 => if j % 2 = 1 then .tsin (j / 2) else .vss
  | 47 => if j % 2 = 1 then .tsin (4 + j / 2) else .vss
  | 48 => .sdi (j - 1)
  | _ => match j with
    | 5 => .tck | 6 => .tms | 7 => .tdi | 8 => .tdo | _ => .pulse (j - 1)

/-- The rail of a row of the centre zone (Table 21.10). -/
def centreRail (r : Nat) : LandRail :=
  if r ≤ 13 then .ser else if r ≤ 17 then .anh else if r ≤ 23 then .ana else if r ≤ 35 then .core
  else if r ≤ 39 then .sram else if r ≤ 45 then .ddrphy else .ser

/-- What the land of row r and column c carries (Table 21.7); none outside the grid. -/
def landAt (r c : Nat) : Option Land :=
  if r < 1 || 58 < r || c < 1 || 58 < c then none
  else some <|
    if r = 1 || r = 58 || c = 1 || c = 58 then .vss
    else if r ≤ 9 then (if c ≤ 29 then pcieLand (r - 1) (c - 2) else iflLand 0 (r - 1) (c - 30) r c)
    else if 50 ≤ r then (if c ≤ 29 then iflLand 1 (58 - r) (c - 2) r c else iflLand 2 (58 - r) (c - 30) r c)
    else if 10 ≤ c && c ≤ 49 then checker (.rail (centreRail r)) r c
    else if r ≤ 45 then
      (if c ≤ 9 then ddrLand ((r - 10) / 6) (c - 1) r c else ddrLand (6 + (r - 10) / 6) (c - 49) r c)
    else if c ≤ 9 then westLow r (c - 1) else eastLow r (c - 49)

/-- The nineteen row letters (R14). -/
def rowLetters : List Char :=
  ['A', 'B', 'C', 'D', 'E', 'F', 'G', 'H', 'J', 'K', 'L', 'M', 'N', 'P', 'T', 'U', 'V', 'W', 'Y']

/-- The letters of row r: A to Y, AA to AY, BA to BY, CA (R14). -/
def rowName (r : Nat) : String :=
  let first := match (r - 1) / 19 with | 0 => "" | 1 => "A" | 2 => "B" | _ => "C"
  first ++ String.singleton (rowLetters.getD ((r - 1) % 19) 'A')

/-- The centre of a land in micrometres from the module's centre: x toward column 58, y toward row A. -/
def landX (c : Nat) : Int := (2 * (c : Int) - 59) * 635
def landY (r : Nat) : Int := (59 - 2 * (r : Int)) * 635

end Sys2Proof.Machine
end

