-- ==== Sys2Proof/Machine/RegMap.lean ====
section
/-! DEFINITION. The register map: every register of the 22 blocks at its BAR0 offset (R15, R409), with the reset value and
the access masks (R7) its field map in the spec gives, and a name for every register (`R`) and every field (`F`).
A register name keeps the spec's own letters: the index letters b, k, n, … stay in the name and are its arguments. -/
namespace Sys2Proof.Machine

/-- A field of a 32-bit register: its register's BAR0 offset and its highest and lowest bit. -/
structure Field where
  reg : Nat
  hi : Nat
  lo : Nat
deriving DecidableEq, Repr

/-- How a register takes part in R10: alone, as the `_LO` or `_HI` half of a pair, or as word 0 of a multi-word register
of that many words whose read copies the other words into the reader's shadow. The words of SDEC_d_LAST_FIELD, RED_p_LS and
IFL_SCHED_TS have no shadow: DEDUCED (log 154). -/
inductive Part
  | single
  | lo
  | hi
  | word0 (words : Nat)
deriving DecidableEq, Repr

/-- One register of the map: `dims` lists, outermost first, how many copies there are and their distance in bytes. The masks
are the bits of each access type of Table 0.3; a bit in none of them is reserved (R6). `rstep` is what the reset value
grows by per outermost index (LYNX_n_CFG alone). `cfg` says that the register sits behind CFGC. -/
structure RegRow where
  off : Nat
  dims : List (Nat × Nat)
  reset : Nat
  rstep : Nat
  rw : Nat
  ro : Nat
  wo : Nat
  w1c : Nat
  w1s : Nat
  rc : Nat
  cfg : Bool
  part : Part
deriving DecidableEq, Repr

namespace R

def GLB_ID : Nat := 0
def GLB_STATUS : Nat := 4
def GLB_MODE : Nat := 0x10
def GLB_MODE_STATUS : Nat := 0x14
def GLB_EVQ_WR : Nat := 0x20
def GLB_EVQ_RD : Nat := 0x24
def GLB_EVQ_LOST : Nat := 0x28
def GLB_EVQ_MASK : Nat := 0x2C
def GLB_BAD_ADDR_LO : Nat := 0x30
def GLB_BAD_ADDR_HI : Nat := 0x34
def GLB_IRQ_REARM (k : Nat) : Nat := 0x40 + 4 * k
def GLB_IRQ_ROUTE (i : Nat) : Nat := 0x100 + 4 * i
def GLB_EVENT_LOST (j : Nat) : Nat := 0x200 + 4 * j
def CFGC_STATUS : Nat := 0x100000
def CFGC_CMD : Nat := 0x100004
def CFGC_SEQ : Nat := 0x100008
def CFGC_COMMIT_SEQ : Nat := 0x10000C
def CFGC_APPLIED_SEQ : Nat := 0x100010
def CFGC_RPT_WR : Nat := 0x100020
def CFGC_RPT_RD : Nat := 0x100024
def CFGC_RPT_LOST : Nat := 0x100028
def CFGC_RPT_ENTRY (k : Nat) : Nat := 0x100030 + 4 * k
def CONV_b_STATUS (b : Nat) : Nat := 0x200000 + 0x1000 * b
def CONV_b_OVR_CNT (b : Nat) : Nat := 0x200004 + 0x1000 * b
def CONV_b_CH_TRIM (b : Nat) : Nat := 0x200008 + 0x1000 * b
def CONV_b_CH_TRIM_LIVE (b : Nat) : Nat := 0x20000C + 0x1000 * b
def CONV_b_TRIMA (b : Nat) (k : Nat) : Nat := 0x200100 + 0x1000 * b + 8 * k
def CONV_b_TRIMB (b : Nat) (k : Nat) : Nat := 0x200104 + 0x1000 * b + 8 * k
def CONV_b_TRIMA_LIVE (b : Nat) (k : Nat) : Nat := 0x200300 + 0x1000 * b + 8 * k
def CONV_b_TRIMB_LIVE (b : Nat) (k : Nat) : Nat := 0x200304 + 0x1000 * b + 8 * k
def ILV_CTRL : Nat := 0x300000
def ILV_STATUS : Nat := 0x300004
def ILV_b_SPARE (b : Nat) : Nat := 0x300100 + 0x10 * b
def ILV_b_SLOW (b : Nat) : Nat := 0x300104 + 0x10 * b
def ILV_b_FAIL (b : Nat) : Nat := 0x300108 + 0x10 * b
def ILV_b_EST (b : Nat) : Nat := 0x30010C + 0x10 * b
def ILV_b_PROPA (b : Nat) (k : Nat) : Nat := 0x301000 + 0x400 * b + 8 * k
def ILV_b_PROPB (b : Nat) (k : Nat) : Nat := 0x301004 + 0x400 * b + 8 * k
def STAG_TB_CTRL : Nat := 0x400000
def STAG_SL_CTRL : Nat := 0x400004
def STAG_SL_DIV : Nat := 0x400008
def STAG_STATUS : Nat := 0x40000C
def STAG_REF_OFFSET : Nat := 0x400010
def STAG_JUMP_LO : Nat := 0x400018
def STAG_JUMP_HI : Nat := 0x40001C
def STAG_PHASE_ERR_LO : Nat := 0x400020
def STAG_PHASE_ERR_HI : Nat := 0x400024
def STAG_TB_LOAD_LO : Nat := 0x400028
def STAG_TB_LOAD_HI : Nat := 0x40002C
def STAG_UNLOCK_CNT : Nat := 0x400030
def OWL_n_CFG (n : Nat) : Nat := 0x500000 + 0x100 * n
def OWL_n_THRESH (n : Nat) : Nat := 0x500004 + 0x100 * n
def OWL_n_STATUS (n : Nat) : Nat := 0x500008 + 0x100 * n
def OWL_n_TRIP_CNT (n : Nat) : Nat := 0x50000C + 0x100 * n
def OWL_n_CMD (n : Nat) : Nat := 0x500010 + 0x100 * n
def OWL_n_RB (n : Nat) : Nat := 0x500014 + 0x100 * n
def PULSE_u_CFG (u : Nat) : Nat := 0x600000 + 0x100 * u
def PULSE_u_COUNT (u : Nat) : Nat := 0x600004 + 0x100 * u
def PULSE_u_WIDTH_LO (u : Nat) : Nat := 0x600008 + 0x100 * u
def PULSE_u_WIDTH_HI (u : Nat) : Nat := 0x60000C + 0x100 * u
def PULSE_u_PERIOD_LO (u : Nat) : Nat := 0x600010 + 0x100 * u
def PULSE_u_PERIOD_HI (u : Nat) : Nat := 0x600014 + 0x100 * u
def PULSE_u_CMD (u : Nat) : Nat := 0x600018 + 0x100 * u
def PULSE_u_STATUS (u : Nat) : Nat := 0x60001C + 0x100 * u
def PULSE_u_FIRE_CNT (u : Nat) : Nat := 0x600020 + 0x100 * u
def PULSE_u_IGN_CNT (u : Nat) : Nat := 0x600024 + 0x100 * u
def FOX_CTRL : Nat := 0x700000
def FOX_STATUS : Nat := 0x700004
def FOX_ARM : Nat := 0x700008
def FOX_x_CFG (x : Nat) : Nat := 0x700010 + 0x20 * x
def FOX_x_LEVEL (x : Nat) : Nat := 0x700014 + 0x20 * x
def FOX_x_LIM1_LO (x : Nat) : Nat := 0x700018 + 0x20 * x
def FOX_x_LIM1_HI (x : Nat) : Nat := 0x70001C + 0x20 * x
def FOX_x_LIM2_LO (x : Nat) : Nat := 0x700020 + 0x20 * x
def FOX_x_LIM2_HI (x : Nat) : Nat := 0x700024 + 0x20 * x
def FOX_PATTERN : Nat := 0x700050
def FOX_PAT_LEVEL (n : Nat) : Nat := 0x700054 + 4 * n
def FOX_QUAL : Nat := 0x700070
def FOX_QUAL_LEVEL (n : Nat) : Nat := 0x700074 + 4 * n
def FOX_SEQ : Nat := 0x700090
def FOX_SEQ_COUNT : Nat := 0x700094
def FOX_SEQ_WIN_LO : Nat := 0x700098
def FOX_SEQ_WIN_HI : Nat := 0x70009C
def FOX_HOLDOFF_LO : Nat := 0x7000A0
def FOX_HOLDOFF_HI : Nat := 0x7000A4
def FOX_EXT : Nat := 0x7000B0
def FOX_SER : Nat := 0x7000B4
def FOX_KERNEL : Nat := 0x7000B8
def FOX_TRIGOUT : Nat := 0x7000C0
def FOX_TRIGOUT_DELAY : Nat := 0x7000C4
def FOX_TRIGOUT_MIN : Nat := 0x7000C8
def FOX_EARLY_CNT : Nat := 0x7000D0
def FOX_MISSED_CNT : Nat := 0x7000D4
def FOX_HOLDOFF_CNT : Nat := 0x7000D8
def FOX_SAMEVEC_CNT : Nat := 0x7000DC
def FOX_LATE_CNT : Nat := 0x7000E0
def FOX_MERGED_CNT : Nat := 0x7000E4
def SDEC_d_CFG (d : Nat) : Nat := 0x800000 + 0x100 * d
def SDEC_d_OPT (d : Nat) : Nat := 0x800004 + 0x100 * d
def SDEC_d_LEVEL (d : Nat) (i : Nat) : Nat := 0x800008 + 0x100 * d + 4 * i
def SDEC_d_UI_LO (d : Nat) : Nat := 0x800018 + 0x100 * d
def SDEC_d_UI_HI (d : Nat) : Nat := 0x80001C + 0x100 * d
def SDEC_d_UI2_LO (d : Nat) : Nat := 0x800020 + 0x100 * d
def SDEC_d_UI2_HI (d : Nat) : Nat := 0x800024 + 0x100 * d
def SDEC_d_MATCH (d : Nat) : Nat := 0x800028 + 0x100 * d
def SDEC_d_MASK (d : Nat) (j : Nat) : Nat := 0x800030 + 0x100 * d + 4 * j
def SDEC_d_VAL_A (d : Nat) (j : Nat) : Nat := 0x800040 + 0x100 * d + 4 * j
def SDEC_d_VAL_B (d : Nat) (j : Nat) : Nat := 0x800050 + 0x100 * d + 4 * j
def SDEC_d_STATUS (d : Nat) : Nat := 0x800060 + 0x100 * d
def SDEC_d_FRAME_CNT (d : Nat) : Nat := 0x800064 + 0x100 * d
def SDEC_d_ERR_CNT (d : Nat) : Nat := 0x800068 + 0x100 * d
def SDEC_d_MATCH_CNT (d : Nat) : Nat := 0x80006C + 0x100 * d
def SDEC_d_LAST_FIELD (d : Nat) (j : Nat) : Nat := 0x800070 + 0x100 * d + 4 * j
def LYNX_n_CFG (n : Nat) : Nat := 0x900000 + 0x100 * n
def LYNX_n_EPOCH (n : Nat) : Nat := 0x900004 + 0x100 * n
def LYNX_n_GATE_LO (n : Nat) : Nat := 0x900008 + 0x100 * n
def LYNX_n_GATE_HI (n : Nat) : Nat := 0x90000C + 0x100 * n
def LYNX_n_REPEAT (n : Nat) : Nat := 0x900010 + 0x100 * n
def LYNX_n_OFFSET (n : Nat) : Nat := 0x900014 + 0x100 * n
def LYNX_n_WM (n : Nat) : Nat := 0x900018 + 0x100 * n
def LYNX_n_CMD (n : Nat) : Nat := 0x900020 + 0x100 * n
def LYNX_n_STATUS (n : Nat) : Nat := 0x900024 + 0x100 * n
def LYNX_n_LEVEL (n : Nat) : Nat := 0x900028 + 0x100 * n
def LYNX_n_LOST (n : Nat) : Nat := 0x90002C + 0x100 * n
def LYNX_n_MEAS (n : Nat) : Nat := 0x900030 + 0x100 * n
def LYNX_n_CALRES (n : Nat) : Nat := 0x900034 + 0x100 * n
def LYNX_n_Q (n : Nat) (k : Nat) : Nat := 0x900040 + 0x100 * n + 4 * k
def LYNX_EXT_OFFSET : Nat := 0x900800
def AQS_CTRL : Nat := 0xA00000
def AQS_STATUS : Nat := 0xA00004
def AQS_CYCLE_LO : Nat := 0xA00008
def AQS_CYCLE_HI : Nat := 0xA0000C
def AQS_TICK_LO : Nat := 0xA00010
def AQS_TICK_HI : Nat := 0xA00014
def AQS_CTX_n_CTRL (n : Nat) : Nat := 0xA01000 + 0x200 * n
def AQS_CTX_n_STATUS (n : Nat) : Nat := 0xA01004 + 0x200 * n
def AQS_CTX_n_PC (n : Nat) : Nat := 0xA01008 + 0x200 * n
def AQS_CTX_n_FAULT_PC (n : Nat) : Nat := 0xA0100C + 0x200 * n
def AQS_CTX_n_G_LO (n : Nat) (j : Nat) : Nat := 0xA01040 + 0x200 * n + 8 * j
def AQS_CTX_n_G_HI (n : Nat) (j : Nat) : Nat := 0xA01044 + 0x200 * n + 8 * j
def AQS_CTX_n_EVNUM (n : Nat) : Nat := 0xA010C0 + 0x200 * n
def AQS_CTX_n_ARG_LO (n : Nat) : Nat := 0xA010C8 + 0x200 * n
def AQS_CTX_n_ARG_HI (n : Nat) : Nat := 0xA010CC + 0x200 * n
def AQS_CTX_n_EVTS (n : Nat) (k : Nat) : Nat := 0xA010D0 + 0x200 * n + 4 * k
def AQS_CTX_n_WATCH (n : Nat) (s : Nat) : Nat := 0xA01100 + 0x200 * n + 4 * s
def AQS_CTX_n_RSTK (n : Nat) (k : Nat) : Nat := 0xA01140 + 0x200 * n + 4 * k
def CAP_CTRL : Nat := 0xB00000
def CAP_PLAN : Nat := 0xB00004
def CAP_STATUS : Nat := 0xB00008
def CAP_POS_ENTRY : Nat := 0xB0000C
def CAP_POS_SLOT : Nat := 0xB00010
def CAP_ACQ : Nat := 0xB00014
def CAP_ACQ_HDR_LO : Nat := 0xB00018
def CAP_ACQ_HDR_HI : Nat := 0xB0001C
def CAP_SRAM_LEVEL : Nat := 0xB00020
def CAP_SRAM_HWM : Nat := 0xB00024
def CAP_LOST_LO : Nat := 0xB00028
def CAP_LOST_HI : Nat := 0xB0002C
def CAP_STREAM_WR_LO : Nat := 0xB00030
def CAP_STREAM_WR_HI : Nat := 0xB00034
def CAP_STREAM_RD_LO : Nat := 0xB00038
def CAP_STREAM_RD_HI : Nat := 0xB0003C
def CAP_TLIST_DROP : Nat := 0xB00040
def RED_p_CFG (p : Nat) : Nat := 0xC00000 + 0x100 * p
def RED_p_GROUP (p : Nat) : Nat := 0xC00004 + 0x100 * p
def RED_p_FIR (p : Nat) : Nat := 0xC00008 + 0x100 * p
def RED_p_DST (p : Nat) : Nat := 0xC0000C + 0x100 * p
def RED_p_MEM_ADDR_LO (p : Nat) : Nat := 0xC00010 + 0x100 * p
def RED_p_MEM_ADDR_HI (p : Nat) : Nat := 0xC00014 + 0x100 * p
def RED_p_MEM_COUNT_LO (p : Nat) : Nat := 0xC00018 + 0x100 * p
def RED_p_MEM_COUNT_HI (p : Nat) : Nat := 0xC0001C + 0x100 * p
def RED_p_CMD (p : Nat) : Nat := 0xC00020 + 0x100 * p
def RED_p_STATUS (p : Nat) : Nat := 0xC00024 + 0x100 * p
def RED_p_BLOCKS_LO (p : Nat) : Nat := 0xC00028 + 0x100 * p
def RED_p_BLOCKS_HI (p : Nat) : Nat := 0xC0002C + 0x100 * p
def RED_p_LOST_LO (p : Nat) : Nat := 0xC00030 + 0x100 * p
def RED_p_LOST_HI (p : Nat) : Nat := 0xC00034 + 0x100 * p
def RED_p_SAT (p : Nat) : Nat := 0xC00038 + 0x100 * p
def RED_p_LS (p : Nat) (j : Nat) : Nat := 0xC00040 + 0x100 * p + 4 * j
def RED_p_MEM_TS_LO (p : Nat) : Nat := 0xC00060 + 0x100 * p
def RED_p_MEM_TS_HI (p : Nat) : Nat := 0xC00064 + 0x100 * p
def RED_FINE_LS_LO : Nat := 0xC00400
def RED_FINE_LS_HI : Nat := 0xC00404
def STK_CTRL : Nat := 0xD00000
def STK_TARGET : Nat := 0xD00004
def STK_HIST : Nat := 0xD00008
def STK_SPILL_LO : Nat := 0xD00010
def STK_SPILL_HI : Nat := 0xD00014
def STK_HDR_LO : Nat := 0xD00018
def STK_HDR_HI : Nat := 0xD0001C
def STK_CMD : Nat := 0xD00020
def STK_STATUS : Nat := 0xD00024
def STK_COUNT : Nat := 0xD00028
def STK_REJECT : Nat := 0xD0002C
def CAL_CTRL : Nat := 0xE00000
def CAL_REF_VALUE : Nat := 0xE00004
def CAL_STALE_CFG : Nat := 0xE00008
def CAL_START : Nat := 0xE0000C
def CAL_CMD : Nat := 0xE00010
def CAL_STATUS : Nat := 0xE00014
def CAL_COUNT : Nat := 0xE00018
def CAL_LAST_TEMP : Nat := 0xE0001C
def CAL_LAST_TS (k : Nat) : Nat := 0xE00020 + 4 * k
def CAL_RESULT0 : Nat := 0xE00030
def CAL_RESULT1 : Nat := 0xE00034
def CAL_BUNDLE_ADDR_LO : Nat := 0xE00038
def CAL_BUNDLE_ADDR_HI : Nat := 0xE0003C
def CAL_IMAGE (k : Nat) : Nat := 0xE08000 + 4 * k
def BADGER_CTRL : Nat := 0xF00000
def BADGER_STATUS : Nat := 0xF00004
def BADGER_CMD : Nat := 0xF00008
def BADGER_PIPE (p : Nat) : Nat := 0xF00010 + 4 * p
def BADGER_QLEVEL : Nat := 0xF00020
def BADGER_IN_LO : Nat := 0xF00030
def BADGER_IN_HI : Nat := 0xF00034
def BADGER_OUT_LO : Nat := 0xF00038
def BADGER_OUT_HI : Nat := 0xF0003C
def BADGER_NOGAIN_CNT : Nat := 0xF00040
def BADGER_VERIFY_CNT : Nat := 0xF00044
def BADGER_ERR_CNT : Nat := 0xF00048
def BADGER_r_BASE_LO (r : Nat) : Nat := 0xF00100 + 0x40 * r
def BADGER_r_BASE_HI (r : Nat) : Nat := 0xF00104 + 0x40 * r
def BADGER_r_CFG (r : Nat) : Nat := 0xF00108 + 0x40 * r
def BADGER_r_NEXT (r : Nat) : Nat := 0xF0010C + 0x40 * r
def BADGER_r_DOORBELL (r : Nat) : Nat := 0xF00110 + 0x40 * r
def BADGER_r_STATUS (r : Nat) : Nat := 0xF00114 + 0x40 * r
def BADGER_r_DONE (r : Nat) : Nat := 0xF00118 + 0x40 * r
def DDR_ORG : Nat := 0x1000000
def DDR_CTRL : Nat := 0x1000004
def DDR_PD : Nat := 0x1000008
def DDR_ARB : Nat := 0x100000C
def DDR_STRIPE : Nat := 0x1000010
def DDR_RATE_CFG : Nat := 0x1000014
def DDR_SCRAMBLE_LO : Nat := 0x1000018
def DDR_SCRAMBLE_HI : Nat := 0x100001C
def DDR_STATUS : Nat := 0x1000020
def DDR_READY : Nat := 0x1000024
def DDR_CMD : Nat := 0x1000028
def DDR_STRIPE_CH : Nat := 0x100002C
def DDR_CH_n_STATUS (n : Nat) : Nat := 0x1000100 + 0x40 * n
def DDR_CH_n_RATE (n : Nat) : Nat := 0x1000104 + 0x40 * n
def DDR_CH_n_CE_CNT (n : Nat) : Nat := 0x1000108 + 0x40 * n
def DDR_CH_n_UE_CNT (n : Nat) : Nat := 0x100010C + 0x40 * n
def DDR_CH_n_NRR_CNT (n : Nat) : Nat := 0x1000110 + 0x40 * n
def DDR_CH_n_FORCED_CNT (n : Nat) : Nat := 0x1000114 + 0x40 * n
def DDR_CH_n_UE_ADDR_LO (n : Nat) : Nat := 0x1000118 + 0x40 * n
def DDR_CH_n_UE_ADDR_HI (n : Nat) : Nat := 0x100011C + 0x40 * n
def DDR_CH_n_CMD (n : Nat) : Nat := 0x1000120 + 0x40 * n
def BEAVER_CTRL : Nat := 0x1100000
def BEAVER_STATUS : Nat := 0x1100004
def BEAVER_ARB : Nat := 0x1100008
def BEAVER_CMD : Nat := 0x110000C
def BEAVER_SCHED : Nat := 0x1100010
def BEAVER_SCHED_STATUS : Nat := 0x1100014
def BEAVER_BYTES_LO : Nat := 0x1100020
def BEAVER_BYTES_HI : Nat := 0x1100024
def BEAVER_CH_n_CFG (n : Nat) : Nat := 0x1100100 + 0x40 * n
def BEAVER_CH_n_CMD (n : Nat) : Nat := 0x1100104 + 0x40 * n
def BEAVER_CH_n_STATUS (n : Nat) : Nat := 0x1100108 + 0x40 * n
def BEAVER_CH_n_DONE_CNT (n : Nat) : Nat := 0x110010C + 0x40 * n
def BEAVER_CH_n_HEAD_LO (n : Nat) : Nat := 0x1100110 + 0x40 * n
def BEAVER_CH_n_HEAD_HI (n : Nat) : Nat := 0x1100114 + 0x40 * n
def BEAVER_CH_n_CUR_LO (n : Nat) : Nat := 0x1100118 + 0x40 * n
def BEAVER_CH_n_CUR_HI (n : Nat) : Nat := 0x110011C + 0x40 * n
def PCIE_CTRL : Nat := 0x1200000
def PCIE_STATUS : Nat := 0x1200004
def PCIE_CE_CNT : Nat := 0x1200008
def PCIE_UE_CNT : Nat := 0x120000C
def PCIE_POISON_CNT : Nat := 0x1200010
def IFL_ADDR : Nat := 0x1300000
def IFL_TT : Nat := 0x1300004
def IFL_RING : Nat := 0x1300008
def IFL_MGMT : Nat := 0x130000C
def IFL_SCHED_LEAD : Nat := 0x1300010
def IFL_STATUS : Nat := 0x1300014
def IFL_GM : Nat := 0x1300018
def IFL_TIME_OFFSET_LO : Nat := 0x1300020
def IFL_TIME_OFFSET_HI : Nat := 0x1300024
def IFL_TIME_DELAY_LO : Nat := 0x1300028
def IFL_TIME_DELAY_HI : Nat := 0x130002C
def IFL_RX_BASE_LO : Nat := 0x1300030
def IFL_RX_BASE_HI : Nat := 0x1300034
def IFL_RX_CFG : Nat := 0x1300038
def IFL_RX_WR : Nat := 0x130003C
def IFL_RX_RD : Nat := 0x1300040
def IFL_RX_LOST : Nat := 0x1300044
def IFL_TX_ADDR_LO : Nat := 0x1300048
def IFL_TX_ADDR_HI : Nat := 0x130004C
def IFL_TX_CMD : Nat := 0x1300050
def IFL_SCHED_TS (k : Nat) : Nat := 0x1300060 + 4 * k
def IFL_SCHED_DEST : Nat := 0x130006C
def IFL_SCHED_MASK : Nat := 0x1300070
def IFL_SCHED_CMD : Nat := 0x1300074
def IFL_x_CFG (x : Nat) : Nat := 0x1300100 + 0x100 * x
def IFL_x_ASYM_W (x : Nat) : Nat := 0x1300104 + 0x100 * x
def IFL_x_ASYM_E (x : Nat) : Nat := 0x1300108 + 0x100 * x
def IFL_x_CMD (x : Nat) : Nat := 0x130010C + 0x100 * x
def IFL_x_STATUS (x : Nat) : Nat := 0x1300110 + 0x100 * x
def IFL_x_NBR_W (x : Nat) : Nat := 0x1300114 + 0x100 * x
def IFL_x_NBR_E (x : Nat) : Nat := 0x1300118 + 0x100 * x
def IFL_x_FOLD (x : Nat) : Nat := 0x130011C + 0x100 * x
def IFL_x_ERR_CNT (x : Nat) : Nat := 0x1300120 + 0x100 * x
def IFL_x_AUTH_CNT (x : Nat) : Nat := 0x1300124 + 0x100 * x
def IFL_x_RATE_CNT (x : Nat) : Nat := 0x1300128 + 0x100 * x
def IFL_x_DROP_CNT (x : Nat) : Nat := 0x130012C + 0x100 * x
def IFL_x_TT_REJ (x : Nat) : Nat := 0x1300130 + 0x100 * x
def HEDGE_CMD : Nat := 0x1400000
def HEDGE_ARG : Nat := 0x1400004
def HEDGE_ADDR_LO : Nat := 0x1400008
def HEDGE_ADDR_HI : Nat := 0x140000C
def HEDGE_STATUS : Nat := 0x1400010
def HEDGE_DEVICE_ID_LO : Nat := 0x1400018
def HEDGE_DEVICE_ID_HI : Nat := 0x140001C
def HEDGE_CTRS : Nat := 0x1400020
def HEDGE_OWNER : Nat := 0x1400024
def HEDGE_FW_SVN : Nat := 0x1400028
def HEDGE_PRG_SVN : Nat := 0x140002C
def HEDGE_SEAL_CTRL : Nat := 0x1400040
def HEDGE_SEAL_PERIOD : Nat := 0x1400044
def HEDGE_SEAL_BASE_LO : Nat := 0x1400048
def HEDGE_SEAL_BASE_HI : Nat := 0x140004C
def HEDGE_LEAF_BASE_LO : Nat := 0x1400050
def HEDGE_LEAF_BASE_HI : Nat := 0x1400054
def HEDGE_SEAL_STREAM : Nat := 0x140005C
def HEDGE_SEAL_WR : Nat := 0x1400060
def HEDGE_SEAL_RD : Nat := 0x1400064
def HEDGE_LEAF_NEXT : Nat := 0x1400068
def HEDGE_SEAL_SKIP : Nat := 0x140006C
def HEDGE_SEAL_PEND : Nat := 0x1400070
def PWR_STATUS : Nat := 0x1500000
def PWR_RAIL : Nat := 0x1500004
def PWR_RESET_CAUSE : Nat := 0x1500008
def PWR_START : Nat := 0x150000C
def PWR_TEMP (k : Nat) : Nat := 0x1500020 + 4 * k
def PWR_TEMP_CAL : Nat := 0x1500040
def PWR_TEMP_MAX : Nat := 0x1500044
def PWR_THERM_CFG : Nat := 0x1500048
def PWR_SRESET : Nat := 0x1500050
def PWR_CMD : Nat := 0x1500054
def PWR_POWER : Nat := 0x1500058

end R

namespace F

def GLB_ID_DEVICE : Field := ⟨R.GLB_ID, 31, 16⟩
def GLB_ID_STEPPING : Field := ⟨R.GLB_ID, 15, 8⟩
def GLB_ID_VARIANT : Field := ⟨R.GLB_ID, 0, 0⟩
def GLB_STATUS_LAST_CODE : Field := ⟨R.GLB_STATUS, 31, 16⟩
def GLB_STATUS_READY : Field := ⟨R.GLB_STATUS, 4, 4⟩
def GLB_STATUS_EVQ_OVF : Field := ⟨R.GLB_STATUS, 3, 3⟩
def GLB_STATUS_HOLE : Field := ⟨R.GLB_STATUS, 2, 2⟩
def GLB_STATUS_SIZE_ERR : Field := ⟨R.GLB_STATUS, 1, 1⟩
def GLB_STATUS_TIMEOUT : Field := ⟨R.GLB_STATUS, 0, 0⟩
def GLB_MODE_HOW : Field := ⟨R.GLB_MODE, 9, 9⟩
def GLB_MODE_WAKE_ARM : Field := ⟨R.GLB_MODE, 8, 8⟩
def GLB_MODE_ARR : Field := ⟨R.GLB_MODE, 5, 4⟩
def GLB_MODE_MODE : Field := ⟨R.GLB_MODE, 2, 0⟩
def GLB_MODE_STATUS_LAST_CODE : Field := ⟨R.GLB_MODE_STATUS, 31, 16⟩
def GLB_MODE_STATUS_PHASE : Field := ⟨R.GLB_MODE_STATUS, 13, 12⟩
def GLB_MODE_STATUS_ARMED : Field := ⟨R.GLB_MODE_STATUS, 11, 11⟩
def GLB_MODE_STATUS_TGT_MODE : Field := ⟨R.GLB_MODE_STATUS, 10, 8⟩
def GLB_MODE_STATUS_TGT_ARR : Field := ⟨R.GLB_MODE_STATUS, 7, 6⟩
def GLB_MODE_STATUS_CUR_MODE : Field := ⟨R.GLB_MODE_STATUS, 5, 3⟩
def GLB_MODE_STATUS_CUR_ARR : Field := ⟨R.GLB_MODE_STATUS, 1, 0⟩
def GLB_EVQ_MASK_BLOCKS : Field := ⟨R.GLB_EVQ_MASK, 21, 0⟩
def GLB_BAD_ADDR_HI_BAR : Field := ⟨R.GLB_BAD_ADDR_HI, 31, 31⟩
def GLB_BAD_ADDR_HI_OFFSET : Field := ⟨R.GLB_BAD_ADDR_HI, 7, 0⟩
def GLB_IRQ_ROUTE_EN (i : Nat) : Field := ⟨(R.GLB_IRQ_ROUTE i), 31, 31⟩
def GLB_IRQ_ROUTE_VECTOR (i : Nat) : Field := ⟨(R.GLB_IRQ_ROUTE i), 5, 0⟩
def CFGC_STATUS_LAST_CODE : Field := ⟨R.CFGC_STATUS, 31, 16⟩
def CFGC_STATUS_BUSY : Field := ⟨R.CFGC_STATUS, 15, 15⟩
def CFGC_STATUS_PENDING : Field := ⟨R.CFGC_STATUS, 14, 14⟩
def CFGC_STATUS_STAGED : Field := ⟨R.CFGC_STATUS, 12, 0⟩
def CFGC_CMD_DISCARD : Field := ⟨R.CFGC_CMD, 1, 1⟩
def CFGC_CMD_COMMIT : Field := ⟨R.CFGC_CMD, 0, 0⟩
def CONV_b_STATUS_OVR_NOW (b : Nat) : Field := ⟨(R.CONV_b_STATUS b), 5, 5⟩
def CONV_b_STATUS_OVR (b : Nat) : Field := ⟨(R.CONV_b_STATUS b), 4, 4⟩
def CONV_b_STATUS_POWER (b : Nat) : Field := ⟨(R.CONV_b_STATUS b), 3, 2⟩
def CONV_b_CH_TRIM_GAIN (b : Nat) : Field := ⟨(R.CONV_b_CH_TRIM b), 27, 16⟩
def CONV_b_CH_TRIM_OFFSET (b : Nat) : Field := ⟨(R.CONV_b_CH_TRIM b), 11, 0⟩
def CONV_b_CH_TRIM_LIVE_GAIN (b : Nat) : Field := ⟨(R.CONV_b_CH_TRIM_LIVE b), 27, 16⟩
def CONV_b_CH_TRIM_LIVE_OFFSET (b : Nat) : Field := ⟨(R.CONV_b_CH_TRIM_LIVE b), 11, 0⟩
def CONV_b_TRIMA_GAIN (b k : Nat) : Field := ⟨(R.CONV_b_TRIMA b k), 25, 16⟩
def CONV_b_TRIMA_OFFSET (b k : Nat) : Field := ⟨(R.CONV_b_TRIMA b k), 9, 0⟩
def CONV_b_TRIMB_SKEW (b k : Nat) : Field := ⟨(R.CONV_b_TRIMB b k), 24, 16⟩
def CONV_b_TRIMB_BW (b k : Nat) : Field := ⟨(R.CONV_b_TRIMB b k), 5, 0⟩
def CONV_b_TRIMA_LIVE_GAIN (b k : Nat) : Field := ⟨(R.CONV_b_TRIMA_LIVE b k), 25, 16⟩
def CONV_b_TRIMA_LIVE_OFFSET (b k : Nat) : Field := ⟨(R.CONV_b_TRIMA_LIVE b k), 9, 0⟩
def CONV_b_TRIMB_LIVE_SKEW (b k : Nat) : Field := ⟨(R.CONV_b_TRIMB_LIVE b k), 24, 16⟩
def CONV_b_TRIMB_LIVE_BW (b k : Nat) : Field := ⟨(R.CONV_b_TRIMB_LIVE b k), 5, 0⟩
def ILV_CTRL_SLOW_TH : Field := ⟨R.ILV_CTRL, 31, 24⟩
def ILV_CTRL_QUAL_MIN : Field := ⟨R.ILV_CTRL, 23, 16⟩
def ILV_CTRL_MAXSTEP : Field := ⟨R.ILV_CTRL, 15, 12⟩
def ILV_CTRL_WIN : Field := ⟨R.ILV_CTRL, 8, 4⟩
def ILV_CTRL_SWAP : Field := ⟨R.ILV_CTRL, 3, 2⟩
def ILV_CTRL_APPLY : Field := ⟨R.ILV_CTRL, 1, 1⟩
def ILV_CTRL_EST_EN : Field := ⟨R.ILV_CTRL, 0, 0⟩
def ILV_STATUS_LAST_CODE : Field := ⟨R.ILV_STATUS, 31, 16⟩
def ILV_STATUS_PENDING : Field := ⟨R.ILV_STATUS, 7, 4⟩
def ILV_STATUS_STATE : Field := ⟨R.ILV_STATUS, 1, 0⟩
def ILV_b_SPARE_SPARE_FLAG (b : Nat) : Field := ⟨(R.ILV_b_SPARE b), 31, 31⟩
def ILV_b_SPARE_DEGRADED (b : Nat) : Field := ⟨(R.ILV_b_SPARE b), 30, 30⟩
def ILV_b_SPARE_USE (b : Nat) : Field := ⟨(R.ILV_b_SPARE b), 29, 28⟩
def ILV_b_SPARE_ACTIVE (b : Nat) : Field := ⟨(R.ILV_b_SPARE b), 27, 22⟩
def ILV_b_SPARE_SHADOW (b : Nat) : Field := ⟨(R.ILV_b_SPARE b), 21, 16⟩
def ILV_b_SPARE_SHADOW_READY (b : Nat) : Field := ⟨(R.ILV_b_SPARE b), 15, 15⟩
def ILV_b_SPARE_RETIRE (b : Nat) : Field := ⟨(R.ILV_b_SPARE b), 5, 0⟩
def ILV_b_EST_QUAL (b : Nat) : Field := ⟨(R.ILV_b_EST b), 23, 16⟩
def ILV_b_EST_WINDOWS (b : Nat) : Field := ⟨(R.ILV_b_EST b), 15, 0⟩
def ILV_b_PROPA_GAIN (b k : Nat) : Field := ⟨(R.ILV_b_PROPA b k), 25, 16⟩
def ILV_b_PROPA_OFFSET (b k : Nat) : Field := ⟨(R.ILV_b_PROPA b k), 9, 0⟩
def ILV_b_PROPB_SKEW (b k : Nat) : Field := ⟨(R.ILV_b_PROPB b k), 24, 16⟩
def ILV_b_PROPB_BW (b k : Nat) : Field := ⟨(R.ILV_b_PROPB b k), 5, 0⟩
def STAG_TB_CTRL_SLEW_RATE : Field := ⟨R.STAG_TB_CTRL, 31, 24⟩
def STAG_TB_CTRL_BW : Field := ⟨R.STAG_TB_CTRL, 19, 18⟩
def STAG_TB_CTRL_POLICY : Field := ⟨R.STAG_TB_CTRL, 17, 17⟩
def STAG_TB_CTRL_REF_FREQ : Field := ⟨R.STAG_TB_CTRL, 9, 8⟩
def STAG_TB_CTRL_SRC : Field := ⟨R.STAG_TB_CTRL, 1, 0⟩
def STAG_SL_CTRL_AUTO_RELOCK : Field := ⟨R.STAG_SL_CTRL, 1, 1⟩
def STAG_SL_CTRL_EN : Field := ⟨R.STAG_SL_CTRL, 0, 0⟩
def STAG_SL_DIV_NINT : Field := ⟨R.STAG_SL_DIV, 30, 24⟩
def STAG_SL_DIV_FRAC : Field := ⟨R.STAG_SL_DIV, 23, 0⟩
def STAG_STATUS_LAST_CODE : Field := ⟨R.STAG_STATUS, 31, 16⟩
def STAG_STATUS_BAND : Field := ⟨R.STAG_STATUS, 15, 10⟩
def STAG_STATUS_SL_PENDING : Field := ⟨R.STAG_STATUS, 9, 9⟩
def STAG_STATUS_SLEWING : Field := ⟨R.STAG_STATUS, 8, 8⟩
def STAG_STATUS_ON_BYCLK : Field := ⟨R.STAG_STATUS, 7, 7⟩
def STAG_STATUS_SL_LOCK : Field := ⟨R.STAG_STATUS, 6, 6⟩
def STAG_STATUS_TB_SRC : Field := ⟨R.STAG_STATUS, 5, 4⟩
def STAG_STATUS_TB_LOCK : Field := ⟨R.STAG_STATUS, 3, 3⟩
def STAG_STATUS_RING_OK : Field := ⟨R.STAG_STATUS, 2, 2⟩
def STAG_STATUS_REF_OK : Field := ⟨R.STAG_STATUS, 1, 1⟩
def STAG_STATUS_REF_LOSS : Field := ⟨R.STAG_STATUS, 0, 0⟩
def OWL_n_CFG_EN (n : Nat) : Field := ⟨(R.OWL_n_CFG n), 31, 31⟩
def OWL_n_CFG_PWRUP_STATE (n : Nat) : Field := ⟨(R.OWL_n_CFG n), 30, 30⟩
def OWL_n_CFG_SENSE (n : Nat) : Field := ⟨(R.OWL_n_CFG n), 29, 28⟩
def OWL_n_CFG_HYST (n : Nat) : Field := ⟨(R.OWL_n_CFG n), 23, 16⟩
def OWL_n_THRESH_UPPER (n : Nat) : Field := ⟨(R.OWL_n_THRESH n), 27, 16⟩
def OWL_n_THRESH_LOWER (n : Nat) : Field := ⟨(R.OWL_n_THRESH n), 11, 0⟩
def OWL_n_STATUS_LAST_CODE (n : Nat) : Field := ⟨(R.OWL_n_STATUS n), 31, 16⟩
def OWL_n_STATUS_RB_VALID (n : Nat) : Field := ⟨(R.OWL_n_STATUS n), 8, 8⟩
def OWL_n_STATUS_TRIP (n : Nat) : Field := ⟨(R.OWL_n_STATUS n), 7, 7⟩
def OWL_n_STATUS_UPPER (n : Nat) : Field := ⟨(R.OWL_n_STATUS n), 6, 6⟩
def OWL_n_STATUS_LOWER (n : Nat) : Field := ⟨(R.OWL_n_STATUS n), 5, 5⟩
def OWL_n_STATUS_TRIP_STICKY (n : Nat) : Field := ⟨(R.OWL_n_STATUS n), 4, 4⟩
def OWL_n_STATUS_SEED (n : Nat) : Field := ⟨(R.OWL_n_STATUS n), 3, 2⟩
def OWL_n_STATUS_STATE (n : Nat) : Field := ⟨(R.OWL_n_STATUS n), 1, 0⟩
def OWL_n_CMD_ABORT (n : Nat) : Field := ⟨(R.OWL_n_CMD n), 2, 2⟩
def OWL_n_CMD_READBACK (n : Nat) : Field := ⟨(R.OWL_n_CMD n), 1, 1⟩
def OWL_n_CMD_SEED (n : Nat) : Field := ⟨(R.OWL_n_CMD n), 0, 0⟩
def OWL_n_RB_UPPER_RB (n : Nat) : Field := ⟨(R.OWL_n_RB n), 31, 16⟩
def OWL_n_RB_LOWER_RB (n : Nat) : Field := ⟨(R.OWL_n_RB n), 15, 0⟩
def PULSE_u_CFG_EN (u : Nat) : Field := ⟨(R.PULSE_u_CFG u), 31, 31⟩
def PULSE_u_CFG_POL (u : Nat) : Field := ⟨(R.PULSE_u_CFG u), 30, 30⟩
def PULSE_u_CFG_MODE (u : Nat) : Field := ⟨(R.PULSE_u_CFG u), 29, 28⟩
def PULSE_u_CFG_TRIP_MASK (u : Nat) : Field := ⟨(R.PULSE_u_CFG u), 7, 0⟩
def PULSE_u_COUNT_COUNT (u : Nat) : Field := ⟨(R.PULSE_u_COUNT u), 15, 0⟩
def PULSE_u_WIDTH_HI_WIDTH (u : Nat) : Field := ⟨(R.PULSE_u_WIDTH_HI u), 15, 0⟩
def PULSE_u_PERIOD_HI_PERIOD (u : Nat) : Field := ⟨(R.PULSE_u_PERIOD_HI u), 15, 0⟩
def PULSE_u_CMD_ABORT (u : Nat) : Field := ⟨(R.PULSE_u_CMD u), 2, 2⟩
def PULSE_u_CMD_CLEAR (u : Nat) : Field := ⟨(R.PULSE_u_CMD u), 1, 1⟩
def PULSE_u_CMD_FIRE (u : Nat) : Field := ⟨(R.PULSE_u_CMD u), 0, 0⟩
def PULSE_u_STATUS_LAST_CODE (u : Nat) : Field := ⟨(R.PULSE_u_STATUS u), 31, 16⟩
def PULSE_u_STATUS_OUT (u : Nat) : Field := ⟨(R.PULSE_u_STATUS u), 5, 5⟩
def PULSE_u_STATUS_FIRED (u : Nat) : Field := ⟨(R.PULSE_u_STATUS u), 4, 4⟩
def PULSE_u_STATUS_STATE (u : Nat) : Field := ⟨(R.PULSE_u_STATUS u), 1, 0⟩
def FOX_CTRL_EV_EVERY : Field := ⟨R.FOX_CTRL, 10, 10⟩
def FOX_CTRL_MISS_STAMP : Field := ⟨R.FOX_CTRL, 9, 9⟩
def FOX_CTRL_ACCEPT_SHORT : Field := ⟨R.FOX_CTRL, 8, 8⟩
def FOX_CTRL_SRC_EN : Field := ⟨R.FOX_CTRL, 4, 0⟩
def FOX_STATUS_LAST_CODE : Field := ⟨R.FOX_STATUS, 31, 16⟩
def FOX_STATUS_PRE_FULL : Field := ⟨R.FOX_STATUS, 15, 15⟩
def FOX_STATUS_BUSY : Field := ⟨R.FOX_STATUS, 14, 14⟩
def FOX_STATUS_HOLDOFF : Field := ⟨R.FOX_STATUS, 13, 13⟩
def FOX_STATUS_SEQ_OPEN : Field := ⟨R.FOX_STATUS, 12, 12⟩
def FOX_STATUS_FORCE_PENDING : Field := ⟨R.FOX_STATUS, 11, 11⟩
def FOX_STATUS_ARMED : Field := ⟨R.FOX_STATUS, 10, 10⟩
def FOX_STATUS_STATE : Field := ⟨R.FOX_STATUS, 1, 0⟩
def FOX_ARM_FORCE : Field := ⟨R.FOX_ARM, 2, 2⟩
def FOX_ARM_DISARM : Field := ⟨R.FOX_ARM, 1, 1⟩
def FOX_ARM_ARM : Field := ⟨R.FOX_ARM, 0, 0⟩
def FOX_x_CFG_TYPE (x : Nat) : Field := ⟨(R.FOX_x_CFG x), 31, 28⟩
def FOX_x_CFG_SRC (x : Nat) : Field := ⟨(R.FOX_x_CFG x), 27, 24⟩
def FOX_x_CFG_POL (x : Nat) : Field := ⟨(R.FOX_x_CFG x), 23, 22⟩
def FOX_x_CFG_REL (x : Nat) : Field := ⟨(R.FOX_x_CFG x), 21, 20⟩
def FOX_x_CFG_HYST (x : Nat) : Field := ⟨(R.FOX_x_CFG x), 11, 0⟩
def FOX_x_LEVEL_UPPER (x : Nat) : Field := ⟨(R.FOX_x_LEVEL x), 31, 16⟩
def FOX_x_LEVEL_LOWER (x : Nat) : Field := ⟨(R.FOX_x_LEVEL x), 15, 0⟩
def FOX_x_LIM1_HI_LIM (x : Nat) : Field := ⟨(R.FOX_x_LIM1_HI x), 15, 0⟩
def FOX_x_LIM2_HI_LIM (x : Nat) : Field := ⟨(R.FOX_x_LIM2_HI x), 15, 0⟩
def FOX_PATTERN_STATE : Field := ⟨R.FOX_PATTERN, 11, 0⟩
def FOX_PAT_LEVEL_HYST (n : Nat) : Field := ⟨(R.FOX_PAT_LEVEL n), 27, 16⟩
def FOX_PAT_LEVEL_LEVEL (n : Nat) : Field := ⟨(R.FOX_PAT_LEVEL n), 15, 0⟩
def FOX_QUAL_MODE : Field := ⟨R.FOX_QUAL, 24, 24⟩
def FOX_QUAL_REQ : Field := ⟨R.FOX_QUAL, 23, 0⟩
def FOX_QUAL_LEVEL_LEVEL (n : Nat) : Field := ⟨(R.FOX_QUAL_LEVEL n), 15, 0⟩
def FOX_SEQ_EN : Field := ⟨R.FOX_SEQ, 31, 31⟩
def FOX_SEQ_RESTART : Field := ⟨R.FOX_SEQ, 30, 30⟩
def FOX_SEQ_WIN_HI_WIN : Field := ⟨R.FOX_SEQ_WIN_HI, 15, 0⟩
def FOX_HOLDOFF_HI_MODE : Field := ⟨R.FOX_HOLDOFF_HI, 31, 31⟩
def FOX_HOLDOFF_HI_VALUE : Field := ⟨R.FOX_HOLDOFF_HI, 16, 0⟩
def FOX_EXT_SLOPE : Field := ⟨R.FOX_EXT, 1, 0⟩
def FOX_SER_MATCH : Field := ⟨R.FOX_SER, 3, 0⟩
def FOX_KERNEL_OFFSET : Field := ⟨R.FOX_KERNEL, 21, 4⟩
def FOX_KERNEL_KSEL : Field := ⟨R.FOX_KERNEL, 1, 0⟩
def FOX_TRIGOUT_EN : Field := ⟨R.FOX_TRIGOUT, 31, 31⟩
def FOX_TRIGOUT_POL : Field := ⟨R.FOX_TRIGOUT, 30, 30⟩
def FOX_TRIGOUT_MODE : Field := ⟨R.FOX_TRIGOUT, 29, 28⟩
def FOX_TRIGOUT_WIDTH : Field := ⟨R.FOX_TRIGOUT, 15, 0⟩
def FOX_TRIGOUT_DELAY_DELAY : Field := ⟨R.FOX_TRIGOUT_DELAY, 19, 0⟩
def FOX_TRIGOUT_MIN_MIN : Field := ⟨R.FOX_TRIGOUT_MIN, 19, 0⟩
def SDEC_d_CFG_EN (d : Nat) : Field := ⟨(R.SDEC_d_CFG d), 31, 31⟩
def SDEC_d_CFG_PROTO (d : Nat) : Field := ⟨(R.SDEC_d_CFG d), 30, 28⟩
def SDEC_d_CFG_CLASS (d : Nat) : Field := ⟨(R.SDEC_d_CFG d), 27, 27⟩
def SDEC_d_CFG_LINE0 (d : Nat) : Field := ⟨(R.SDEC_d_CFG d), 23, 20⟩
def SDEC_d_CFG_LINE1 (d : Nat) : Field := ⟨(R.SDEC_d_CFG d), 19, 16⟩
def SDEC_d_CFG_LINE2 (d : Nat) : Field := ⟨(R.SDEC_d_CFG d), 15, 12⟩
def SDEC_d_CFG_LINE3 (d : Nat) : Field := ⟨(R.SDEC_d_CFG d), 11, 8⟩
def SDEC_d_CFG_INV (d : Nat) : Field := ⟨(R.SDEC_d_CFG d), 7, 4⟩
def SDEC_d_OPT_CDR_BW (d : Nat) : Field := ⟨(R.SDEC_d_OPT d), 29, 28⟩
def SDEC_d_OPT_SJW (d : Nat) : Field := ⟨(R.SDEC_d_OPT d), 20, 15⟩
def SDEC_d_OPT_SP_DATA (d : Nat) : Field := ⟨(R.SDEC_d_OPT d), 14, 8⟩
def SDEC_d_OPT_LSB_FIRST (d : Nat) : Field := ⟨(R.SDEC_d_OPT d), 8, 8⟩
def SDEC_d_OPT_SP_NOM (d : Nat) : Field := ⟨(R.SDEC_d_OPT d), 7, 1⟩
def SDEC_d_OPT_STOP (d : Nat) : Field := ⟨(R.SDEC_d_OPT d), 7, 6⟩
def SDEC_d_OPT_WLEN (d : Nat) : Field := ⟨(R.SDEC_d_OPT d), 7, 2⟩
def SDEC_d_OPT_PARITY (d : Nat) : Field := ⟨(R.SDEC_d_OPT d), 5, 4⟩
def SDEC_d_OPT_MODE (d : Nat) : Field := ⟨(R.SDEC_d_OPT d), 1, 0⟩
def SDEC_d_OPT_DATA_BITS (d : Nat) : Field := ⟨(R.SDEC_d_OPT d), 3, 0⟩
def SDEC_d_OPT_FD_EN (d : Nat) : Field := ⟨(R.SDEC_d_OPT d), 0, 0⟩
def SDEC_d_LEVEL_HYST (d i : Nat) : Field := ⟨(R.SDEC_d_LEVEL d i), 27, 16⟩
def SDEC_d_LEVEL_LEVEL (d i : Nat) : Field := ⟨(R.SDEC_d_LEVEL d i), 15, 0⟩
def SDEC_d_MATCH_REL (d : Nat) : Field := ⟨(R.SDEC_d_MATCH d), 26, 24⟩
def SDEC_d_MATCH_FIELD (d : Nat) : Field := ⟨(R.SDEC_d_MATCH d), 19, 16⟩
def SDEC_d_MATCH_OFFSET (d : Nat) : Field := ⟨(R.SDEC_d_MATCH d), 15, 8⟩
def SDEC_d_MATCH_LEN (d : Nat) : Field := ⟨(R.SDEC_d_MATCH d), 7, 0⟩
def SDEC_d_STATUS_LAST_CODE (d : Nat) : Field := ⟨(R.SDEC_d_STATUS d), 31, 16⟩
def SDEC_d_STATUS_CDR_LOCK (d : Nat) : Field := ⟨(R.SDEC_d_STATUS d), 4, 4⟩
def SDEC_d_STATUS_SYNC (d : Nat) : Field := ⟨(R.SDEC_d_STATUS d), 3, 3⟩
def SDEC_d_STATUS_ERR (d : Nat) : Field := ⟨(R.SDEC_d_STATUS d), 2, 2⟩
def SDEC_d_STATUS_STATE (d : Nat) : Field := ⟨(R.SDEC_d_STATUS d), 1, 0⟩
def LYNX_n_CFG_EN (n : Nat) : Field := ⟨(R.LYNX_n_CFG n), 31, 31⟩
def LYNX_n_CFG_MODE (n : Nat) : Field := ⟨(R.LYNX_n_CFG n), 29, 28⟩
def LYNX_n_CFG_EDGE (n : Nat) : Field := ⟨(R.LYNX_n_CFG n), 27, 26⟩
def LYNX_n_CFG_SRC (n : Nat) : Field := ⟨(R.LYNX_n_CFG n), 20, 16⟩
def LYNX_n_CFG_PRESCALE (n : Nat) : Field := ⟨(R.LYNX_n_CFG n), 5, 0⟩
def LYNX_n_EPOCH_EPOCH_LOG (n : Nat) : Field := ⟨(R.LYNX_n_EPOCH n), 4, 0⟩
def LYNX_n_GATE_HI_GATE (n : Nat) : Field := ⟨(R.LYNX_n_GATE_HI n), 15, 0⟩
def LYNX_n_WM_LEVEL (n : Nat) : Field := ⟨(R.LYNX_n_WM n), 12, 0⟩
def LYNX_n_CMD_FLUSH (n : Nat) : Field := ⟨(R.LYNX_n_CMD n), 2, 2⟩
def LYNX_n_CMD_ABORT (n : Nat) : Field := ⟨(R.LYNX_n_CMD n), 1, 1⟩
def LYNX_n_CMD_START (n : Nat) : Field := ⟨(R.LYNX_n_CMD n), 0, 0⟩
def LYNX_n_STATUS_LAST_CODE (n : Nat) : Field := ⟨(R.LYNX_n_STATUS n), 31, 16⟩
def LYNX_n_STATUS_CALIB (n : Nat) : Field := ⟨(R.LYNX_n_STATUS n), 4, 4⟩
def LYNX_n_STATUS_WAIT_STOP (n : Nat) : Field := ⟨(R.LYNX_n_STATUS n), 3, 3⟩
def LYNX_n_STATUS_ACTIVE_IP (n : Nat) : Field := ⟨(R.LYNX_n_STATUS n), 2, 2⟩
def LYNX_n_STATUS_STATE (n : Nat) : Field := ⟨(R.LYNX_n_STATUS n), 1, 0⟩
def LYNX_n_LEVEL_LEVEL (n : Nat) : Field := ⟨(R.LYNX_n_LEVEL n), 12, 0⟩
def LYNX_n_CALRES_ZERO (n : Nat) : Field := ⟨(R.LYNX_n_CALRES n), 31, 16⟩
def LYNX_n_CALRES_GAIN (n : Nat) : Field := ⟨(R.LYNX_n_CALRES n), 15, 0⟩
def AQS_CTRL_SRESET : Field := ⟨R.AQS_CTRL, 0, 0⟩
def AQS_STATUS_LAST_CODE : Field := ⟨R.AQS_STATUS, 31, 16⟩
def AQS_STATUS_FAULTED : Field := ⟨R.AQS_STATUS, 15, 8⟩
def AQS_STATUS_ACTIVE : Field := ⟨R.AQS_STATUS, 7, 0⟩
def AQS_CTX_n_CTRL_STEP (n : Nat) : Field := ⟨(R.AQS_CTX_n_CTRL n), 3, 3⟩
def AQS_CTX_n_CTRL_ABORT (n : Nat) : Field := ⟨(R.AQS_CTX_n_CTRL n), 2, 2⟩
def AQS_CTX_n_CTRL_STOP (n : Nat) : Field := ⟨(R.AQS_CTX_n_CTRL n), 1, 1⟩
def AQS_CTX_n_CTRL_START (n : Nat) : Field := ⟨(R.AQS_CTX_n_CTRL n), 0, 0⟩
def AQS_CTX_n_STATUS_CODE (n : Nat) : Field := ⟨(R.AQS_CTX_n_STATUS n), 31, 16⟩
def AQS_CTX_n_STATUS_DEPTH (n : Nat) : Field := ⟨(R.AQS_CTX_n_STATUS n), 15, 11⟩
def AQS_CTX_n_STATUS_FLAGS (n : Nat) : Field := ⟨(R.AQS_CTX_n_STATUS n), 10, 7⟩
def AQS_CTX_n_STATUS_RUN (n : Nat) : Field := ⟨(R.AQS_CTX_n_STATUS n), 6, 4⟩
def AQS_CTX_n_STATUS_STATE (n : Nat) : Field := ⟨(R.AQS_CTX_n_STATUS n), 1, 0⟩
def AQS_CTX_n_PC_PC (n : Nat) : Field := ⟨(R.AQS_CTX_n_PC n), 18, 0⟩
def AQS_CTX_n_FAULT_PC_FAULT_PC (n : Nat) : Field := ⟨(R.AQS_CTX_n_FAULT_PC n), 18, 0⟩
def AQS_CTX_n_EVNUM_SLOT (n : Nat) : Field := ⟨(R.AQS_CTX_n_EVNUM n), 27, 24⟩
def AQS_CTX_n_EVNUM_SUB (n : Nat) : Field := ⟨(R.AQS_CTX_n_EVNUM n), 23, 16⟩
def AQS_CTX_n_EVNUM_NUMBER (n : Nat) : Field := ⟨(R.AQS_CTX_n_EVNUM n), 11, 0⟩
def AQS_CTX_n_WATCH_OVERRUN (n s : Nat) : Field := ⟨(R.AQS_CTX_n_WATCH n s), 24, 24⟩
def AQS_CTX_n_WATCH_COUNT (n s : Nat) : Field := ⟨(R.AQS_CTX_n_WATCH n s), 23, 16⟩
def AQS_CTX_n_WATCH_NUMBER (n s : Nat) : Field := ⟨(R.AQS_CTX_n_WATCH n s), 11, 0⟩
def AQS_CTX_n_RSTK_PC (n k : Nat) : Field := ⟨(R.AQS_CTX_n_RSTK n k), 18, 0⟩
def CAP_CTRL_EV_SHIFT : Field := ⟨R.CAP_CTRL, 12, 8⟩
def CAP_CTRL_RING_EN : Field := ⟨R.CAP_CTRL, 6, 6⟩
def CAP_CTRL_RING_POLICY : Field := ⟨R.CAP_CTRL, 5, 5⟩
def CAP_CTRL_CONTINUE : Field := ⟨R.CAP_CTRL, 4, 4⟩
def CAP_CTRL_INMASK : Field := ⟨R.CAP_CTRL, 3, 0⟩
def CAP_PLAN_START : Field := ⟨R.CAP_PLAN, 27, 16⟩
def CAP_PLAN_OFFSET : Field := ⟨R.CAP_PLAN, 15, 0⟩
def CAP_STATUS_LAST_CODE : Field := ⟨R.CAP_STATUS, 31, 16⟩
def CAP_STATUS_OVF : Field := ⟨R.CAP_STATUS, 11, 11⟩
def CAP_STATUS_RING_BLOCKED : Field := ⟨R.CAP_STATUS, 10, 10⟩
def CAP_STATUS_PLAN_END : Field := ⟨R.CAP_STATUS, 9, 9⟩
def CAP_STATUS_HOLDING : Field := ⟨R.CAP_STATUS, 8, 8⟩
def CAP_STATUS_STATE : Field := ⟨R.CAP_STATUS, 1, 0⟩
def CAP_POS_ENTRY_ENTRY : Field := ⟨R.CAP_POS_ENTRY, 11, 0⟩
def CAP_POS_SLOT_SLOT : Field := ⟨R.CAP_POS_SLOT, 23, 0⟩
def CAP_SRAM_LEVEL_KIB : Field := ⟨R.CAP_SRAM_LEVEL, 16, 0⟩
def CAP_SRAM_HWM_KIB : Field := ⟨R.CAP_SRAM_HWM, 16, 0⟩
def RED_p_CFG_EN (p : Nat) : Field := ⟨(R.RED_p_CFG p), 31, 31⟩
def RED_p_CFG_MEM (p : Nat) : Field := ⟨(R.RED_p_CFG p), 30, 30⟩
def RED_p_CFG_INPUT (p : Nat) : Field := ⟨(R.RED_p_CFG p), 29, 28⟩
def RED_p_CFG_FORMAT (p : Nat) : Field := ⟨(R.RED_p_CFG p), 27, 26⟩
def RED_p_CFG_GROUP (p : Nat) : Field := ⟨(R.RED_p_CFG p), 25, 24⟩
def RED_p_CFG_BLK (p : Nat) : Field := ⟨(R.RED_p_CFG p), 23, 22⟩
def RED_p_CFG_FIR_EN (p : Nat) : Field := ⟨(R.RED_p_CFG p), 21, 21⟩
def RED_p_CFG_K (p : Nat) : Field := ⟨(R.RED_p_CFG p), 20, 16⟩
def RED_p_GROUP_M (p : Nat) : Field := ⟨(R.RED_p_GROUP p), 16, 0⟩
def RED_p_FIR_OFF1 (p : Nat) : Field := ⟨(R.RED_p_FIR p), 31, 16⟩
def RED_p_FIR_OFF2 (p : Nat) : Field := ⟨(R.RED_p_FIR p), 15, 0⟩
def RED_p_DST_KIND (p : Nat) : Field := ⟨(R.RED_p_DST p), 31, 30⟩
def RED_p_DST_CHAN (p : Nat) : Field := ⟨(R.RED_p_DST p), 12, 8⟩
def RED_p_DST_LANES (p : Nat) : Field := ⟨(R.RED_p_DST p), 7, 0⟩
def RED_p_CMD_ABORT (p : Nat) : Field := ⟨(R.RED_p_CMD p), 1, 1⟩
def RED_p_CMD_START (p : Nat) : Field := ⟨(R.RED_p_CMD p), 0, 0⟩
def RED_p_STATUS_LAST_CODE (p : Nat) : Field := ⟨(R.RED_p_STATUS p), 31, 16⟩
def RED_p_STATUS_ADMITTED (p : Nat) : Field := ⟨(R.RED_p_STATUS p), 2, 2⟩
def RED_p_STATUS_STATE (p : Nat) : Field := ⟨(R.RED_p_STATUS p), 1, 0⟩
def STK_CTRL_HIST : Field := ⟨R.STK_CTRL, 2, 2⟩
def STK_CTRL_ENV : Field := ⟨R.STK_CTRL, 1, 1⟩
def STK_CTRL_SUM : Field := ⟨R.STK_CTRL, 0, 0⟩
def STK_TARGET_TARGET : Field := ⟨R.STK_TARGET, 24, 0⟩
def STK_HIST_COLS : Field := ⟨R.STK_HIST, 26, 16⟩
def STK_HIST_BINS_LOG : Field := ⟨R.STK_HIST, 3, 0⟩
def STK_CMD_ABORT : Field := ⟨R.STK_CMD, 1, 1⟩
def STK_CMD_CLEAR : Field := ⟨R.STK_CMD, 0, 0⟩
def STK_STATUS_LAST_CODE : Field := ⟨R.STK_STATUS, 31, 16⟩
def STK_STATUS_DONE : Field := ⟨R.STK_STATUS, 4, 4⟩
def STK_STATUS_READY : Field := ⟨R.STK_STATUS, 3, 3⟩
def STK_STATUS_SPILL : Field := ⟨R.STK_STATUS, 2, 2⟩
def STK_STATUS_STATE : Field := ⟨R.STK_STATUS, 1, 0⟩
def CAL_CTRL_REF_SRC : Field := ⟨R.CAL_CTRL, 0, 0⟩
def CAL_REF_VALUE_UV : Field := ⟨R.CAL_REF_VALUE, 20, 0⟩
def CAL_STALE_CFG_AGE : Field := ⟨R.CAL_STALE_CFG, 31, 16⟩
def CAL_STALE_CFG_TEMP : Field := ⟨R.CAL_STALE_CFG, 7, 0⟩
def CAL_START_OWL_MASK : Field := ⟨R.CAL_START, 15, 8⟩
def CAL_START_ARR : Field := ⟨R.CAL_START, 5, 4⟩
def CAL_START_PROC : Field := ⟨R.CAL_START, 2, 0⟩
def CAL_CMD_BUNDLE : Field := ⟨R.CAL_CMD, 3, 3⟩
def CAL_CMD_RESTORE : Field := ⟨R.CAL_CMD, 2, 2⟩
def CAL_CMD_SAVE : Field := ⟨R.CAL_CMD, 1, 1⟩
def CAL_CMD_ABORT : Field := ⟨R.CAL_CMD, 0, 0⟩
def CAL_STATUS_LAST_CODE : Field := ⟨R.CAL_STATUS, 31, 16⟩
def CAL_STATUS_PROC : Field := ⟨R.CAL_STATUS, 14, 12⟩
def CAL_STATUS_MEASURE_ONLY : Field := ⟨R.CAL_STATUS, 11, 11⟩
def CAL_STATUS_STALE : Field := ⟨R.CAL_STATUS, 10, 10⟩
def CAL_STATUS_TB_VALID : Field := ⟨R.CAL_STATUS, 9, 9⟩
def CAL_STATUS_OWL_VALID : Field := ⟨R.CAL_STATUS, 8, 8⟩
def CAL_STATUS_BUF_BUSY : Field := ⟨R.CAL_STATUS, 7, 7⟩
def CAL_STATUS_SET_VALID : Field := ⟨R.CAL_STATUS, 6, 4⟩
def CAL_STATUS_STATE : Field := ⟨R.CAL_STATUS, 1, 0⟩
def CAL_LAST_TEMP_TEMP : Field := ⟨R.CAL_LAST_TEMP, 15, 0⟩
def CAL_RESULT0_GAIN : Field := ⟨R.CAL_RESULT0, 31, 16⟩
def CAL_RESULT0_OFFSET : Field := ⟨R.CAL_RESULT0, 15, 0⟩
def CAL_RESULT1_SKEW : Field := ⟨R.CAL_RESULT1, 31, 16⟩
def CAL_RESULT1_THRESH : Field := ⟨R.CAL_RESULT1, 15, 0⟩
def BADGER_CTRL_EN : Field := ⟨R.BADGER_CTRL, 31, 31⟩
def BADGER_CTRL_MIN_SAVE : Field := ⟨R.BADGER_CTRL, 15, 8⟩
def BADGER_STATUS_LAST_CODE : Field := ⟨R.BADGER_STATUS, 31, 16⟩
def BADGER_STATUS_LANE_BUSY : Field := ⟨R.BADGER_STATUS, 15, 8⟩
def BADGER_STATUS_VERIFY_FAIL : Field := ⟨R.BADGER_STATUS, 3, 3⟩
def BADGER_STATUS_QFULL : Field := ⟨R.BADGER_STATUS, 2, 2⟩
def BADGER_STATUS_STATE : Field := ⟨R.BADGER_STATUS, 1, 0⟩
def BADGER_CMD_ABORT : Field := ⟨R.BADGER_CMD, 0, 0⟩
def BADGER_PIPE_LEVEL (p : Nat) : Field := ⟨(R.BADGER_PIPE p), 9, 8⟩
def BADGER_PIPE_XFORM (p : Nat) : Field := ⟨(R.BADGER_PIPE p), 7, 0⟩
def BADGER_QLEVEL_KIB : Field := ⟨R.BADGER_QLEVEL, 12, 0⟩
def BADGER_r_CFG_EN (r : Nat) : Field := ⟨(R.BADGER_r_CFG r), 31, 31⟩
def BADGER_r_CFG_LANES (r : Nat) : Field := ⟨(R.BADGER_r_CFG r), 23, 16⟩
def BADGER_r_CFG_SIZE_LOG (r : Nat) : Field := ⟨(R.BADGER_r_CFG r), 3, 0⟩
def BADGER_r_NEXT_INDEX (r : Nat) : Field := ⟨(R.BADGER_r_NEXT r), 11, 0⟩
def BADGER_r_DOORBELL_RING (r : Nat) : Field := ⟨(R.BADGER_r_DOORBELL r), 0, 0⟩
def BADGER_r_STATUS_LAST_CODE (r : Nat) : Field := ⟨(R.BADGER_r_STATUS r), 31, 16⟩
def BADGER_r_STATUS_IDLE (r : Nat) : Field := ⟨(R.BADGER_r_STATUS r), 2, 2⟩
def BADGER_r_STATUS_STATE (r : Nat) : Field := ⟨(R.BADGER_r_STATUS r), 1, 0⟩
def DDR_ORG_FITTED : Field := ⟨R.DDR_ORG, 27, 16⟩
def DDR_ORG_ORG : Field := ⟨R.DDR_ORG, 10, 8⟩
def DDR_ORG_MAX_SPEED : Field := ⟨R.DDR_ORG, 1, 0⟩
def DDR_CTRL_EN : Field := ⟨R.DDR_CTRL, 27, 16⟩
def DDR_CTRL_NR_EN : Field := ⟨R.DDR_CTRL, 13, 13⟩
def DDR_CTRL_NR_K : Field := ⟨R.DDR_CTRL, 12, 8⟩
def DDR_CTRL_SPEED : Field := ⟨R.DDR_CTRL, 1, 0⟩
def DDR_PD_SR_IDLE : Field := ⟨R.DDR_PD, 31, 16⟩
def DDR_PD_PD_IDLE : Field := ⟨R.DDR_PD, 15, 0⟩
def DDR_ARB_AGE : Field := ⟨R.DDR_ARB, 25, 16⟩
def DDR_ARB_HOST_AGE : Field := ⟨R.DDR_ARB, 5, 0⟩
def DDR_STRIPE_USE : Field := ⟨R.DDR_STRIPE, 31, 31⟩
def DDR_STRIPE_OFFSET : Field := ⟨R.DDR_STRIPE, 15, 0⟩
def DDR_RATE_CFG_WIN_LOG : Field := ⟨R.DDR_RATE_CFG, 20, 16⟩
def DDR_RATE_CFG_SLOW_TH : Field := ⟨R.DDR_RATE_CFG, 10, 0⟩
def DDR_STATUS_LAST_CODE : Field := ⟨R.DDR_STATUS, 31, 16⟩
def DDR_STATUS_PRESSURE : Field := ⟨R.DDR_STATUS, 4, 4⟩
def DDR_STATUS_STRIPE_PENDING : Field := ⟨R.DDR_STATUS, 3, 3⟩
def DDR_STATUS_BUILTIN : Field := ⟨R.DDR_STATUS, 2, 2⟩
def DDR_STATUS_STATE : Field := ⟨R.DDR_STATUS, 1, 0⟩
def DDR_READY_SR : Field := ⟨R.DDR_READY, 27, 16⟩
def DDR_READY_READY : Field := ⟨R.DDR_READY, 11, 0⟩
def DDR_CMD_MASK : Field := ⟨R.DDR_CMD, 27, 16⟩
def DDR_CMD_TRAIN : Field := ⟨R.DDR_CMD, 0, 0⟩
def DDR_STRIPE_CH_GRAIN_LOG : Field := ⟨R.DDR_STRIPE_CH, 20, 16⟩
def DDR_STRIPE_CH_NAMED : Field := ⟨R.DDR_STRIPE_CH, 11, 0⟩
def DDR_CH_n_STATUS_LAST_CODE (n : Nat) : Field := ⟨(R.DDR_CH_n_STATUS n), 31, 16⟩
def DDR_CH_n_STATUS_HOT (n : Nat) : Field := ⟨(R.DDR_CH_n_STATUS n), 10, 10⟩
def DDR_CH_n_STATUS_DRIFT (n : Nat) : Field := ⟨(R.DDR_CH_n_STATUS n), 9, 9⟩
def DDR_CH_n_STATUS_SLOW (n : Nat) : Field := ⟨(R.DDR_CH_n_STATUS n), 8, 8⟩
def DDR_CH_n_STATUS_POSTPONED (n : Nat) : Field := ⟨(R.DDR_CH_n_STATUS n), 7, 4⟩
def DDR_CH_n_STATUS_STATE (n : Nat) : Field := ⟨(R.DDR_CH_n_STATUS n), 1, 0⟩
def DDR_CH_n_RATE_RATE (n : Nat) : Field := ⟨(R.DDR_CH_n_RATE n), 10, 0⟩
def DDR_CH_n_CMD_ABORT (n : Nat) : Field := ⟨(R.DDR_CH_n_CMD n), 0, 0⟩
def BEAVER_CTRL_EN : Field := ⟨R.BEAVER_CTRL, 31, 31⟩
def BEAVER_STATUS_LAST_CODE : Field := ⟨R.BEAVER_STATUS, 31, 16⟩
def BEAVER_STATUS_STATE : Field := ⟨R.BEAVER_STATUS, 1, 0⟩
def BEAVER_ARB_AGE : Field := ⟨R.BEAVER_ARB, 6, 0⟩
def BEAVER_CMD_ABORT : Field := ⟨R.BEAVER_CMD, 0, 0⟩
def BEAVER_SCHED_EN : Field := ⟨R.BEAVER_SCHED, 31, 31⟩
def BEAVER_SCHED_OFFSET : Field := ⟨R.BEAVER_SCHED, 15, 0⟩
def BEAVER_SCHED_STATUS_LAST_CODE : Field := ⟨R.BEAVER_SCHED_STATUS, 31, 16⟩
def BEAVER_SCHED_STATUS_STEP : Field := ⟨R.BEAVER_SCHED_STATUS, 15, 4⟩
def BEAVER_SCHED_STATUS_DONE : Field := ⟨R.BEAVER_SCHED_STATUS, 3, 3⟩
def BEAVER_SCHED_STATUS_STATE : Field := ⟨R.BEAVER_SCHED_STATUS, 1, 0⟩
def BEAVER_CH_n_CFG_EN (n : Nat) : Field := ⟨(R.BEAVER_CH_n_CFG n), 31, 31⟩
def BEAVER_CH_n_CFG_PRIO (n : Nat) : Field := ⟨(R.BEAVER_CH_n_CFG n), 26, 24⟩
def BEAVER_CH_n_CFG_TO_LOG (n : Nat) : Field := ⟨(R.BEAVER_CH_n_CFG n), 20, 16⟩
def BEAVER_CH_n_CFG_HOP_LIMIT (n : Nat) : Field := ⟨(R.BEAVER_CH_n_CFG n), 15, 0⟩
def BEAVER_CH_n_CMD_CLEAR (n : Nat) : Field := ⟨(R.BEAVER_CH_n_CMD n), 2, 2⟩
def BEAVER_CH_n_CMD_ABORT (n : Nat) : Field := ⟨(R.BEAVER_CH_n_CMD n), 1, 1⟩
def BEAVER_CH_n_CMD_DOORBELL (n : Nat) : Field := ⟨(R.BEAVER_CH_n_CMD n), 0, 0⟩
def BEAVER_CH_n_STATUS_LAST_CODE (n : Nat) : Field := ⟨(R.BEAVER_CH_n_STATUS n), 31, 16⟩
def BEAVER_CH_n_STATUS_DB_PENDING (n : Nat) : Field := ⟨(R.BEAVER_CH_n_STATUS n), 6, 6⟩
def BEAVER_CH_n_STATUS_RUN (n : Nat) : Field := ⟨(R.BEAVER_CH_n_STATUS n), 5, 4⟩
def BEAVER_CH_n_STATUS_CLASS_D (n : Nat) : Field := ⟨(R.BEAVER_CH_n_STATUS n), 3, 3⟩
def BEAVER_CH_n_STATUS_STATE (n : Nat) : Field := ⟨(R.BEAVER_CH_n_STATUS n), 1, 0⟩
def PCIE_CTRL_RO_DATA : Field := ⟨R.PCIE_CTRL, 31, 31⟩
def PCIE_CTRL_NS : Field := ⟨R.PCIE_CTRL, 30, 30⟩
def PCIE_CTRL_TARGET_SPEED : Field := ⟨R.PCIE_CTRL, 3, 0⟩
def PCIE_STATUS_LAST_CODE : Field := ⟨R.PCIE_STATUS, 31, 16⟩
def PCIE_STATUS_SPEED : Field := ⟨R.PCIE_STATUS, 15, 12⟩
def PCIE_STATUS_WIDTH : Field := ⟨R.PCIE_STATUS, 11, 7⟩
def PCIE_STATUS_DL_UP : Field := ⟨R.PCIE_STATUS, 6, 6⟩
def PCIE_STATUS_PM : Field := ⟨R.PCIE_STATUS, 5, 4⟩
def PCIE_STATUS_STATE : Field := ⟨R.PCIE_STATUS, 1, 0⟩
def IFL_ADDR_VALID : Field := ⟨R.IFL_ADDR, 31, 31⟩
def IFL_ADDR_ADDR : Field := ⟨R.IFL_ADDR, 17, 0⟩
def IFL_TT_OUTLIER : Field := ⟨R.IFL_TT, 15, 8⟩
def IFL_TT_BW : Field := ⟨R.IFL_TT, 5, 4⟩
def IFL_TT_TT_LOG : Field := ⟨R.IFL_TT, 3, 0⟩
def IFL_RING_HEAL_HOLD : Field := ⟨R.IFL_RING, 31, 24⟩
def IFL_RING_AGE : Field := ⟨R.IFL_RING, 9, 0⟩
def IFL_MGMT_KEY_LOADED : Field := ⟨R.IFL_MGMT, 17, 16⟩
def IFL_MGMT_TX_KEY : Field := ⟨R.IFL_MGMT, 8, 8⟩
def IFL_MGMT_WINDOW_LOG : Field := ⟨R.IFL_MGMT, 4, 0⟩
def IFL_SCHED_LEAD_MIN_LEAD : Field := ⟨R.IFL_SCHED_LEAD, 15, 0⟩
def IFL_STATUS_LAST_CODE : Field := ⟨R.IFL_STATUS, 31, 16⟩
def IFL_STATUS_TIME_PORT : Field := ⟨R.IFL_STATUS, 10, 8⟩
def IFL_STATUS_RING_OK : Field := ⟨R.IFL_STATUS, 7, 7⟩
def IFL_STATUS_STATE : Field := ⟨R.IFL_STATUS, 1, 0⟩
def IFL_GM_VALID : Field := ⟨R.IFL_GM, 31, 31⟩
def IFL_GM_CLASS : Field := ⟨R.IFL_GM, 29, 28⟩
def IFL_GM_HOPS : Field := ⟨R.IFL_GM, 27, 20⟩
def IFL_GM_ADDR : Field := ⟨R.IFL_GM, 17, 0⟩
def IFL_RX_CFG_SIZE_LOG : Field := ⟨R.IFL_RX_CFG, 3, 0⟩
def IFL_TX_CMD_SEND : Field := ⟨R.IFL_TX_CMD, 0, 0⟩
def IFL_SCHED_DEST_VALUE : Field := ⟨R.IFL_SCHED_DEST, 17, 0⟩
def IFL_SCHED_MASK_VALUE : Field := ⟨R.IFL_SCHED_MASK, 17, 0⟩
def IFL_SCHED_CMD_SEND : Field := ⟨R.IFL_SCHED_CMD, 0, 0⟩
def IFL_x_CFG_JOIN (x : Nat) : Field := ⟨(R.IFL_x_CFG x), 31, 31⟩
def IFL_x_CFG_ASYM_SRC (x : Nat) : Field := ⟨(R.IFL_x_CFG x), 30, 30⟩
def IFL_x_CMD_ABORT (x : Nat) : Field := ⟨(R.IFL_x_CMD x), 6, 6⟩
def IFL_x_CMD_QUAR_E (x : Nat) : Field := ⟨(R.IFL_x_CMD x), 5, 5⟩
def IFL_x_CMD_QUAR_W (x : Nat) : Field := ⟨(R.IFL_x_CMD x), 4, 4⟩
def IFL_x_CMD_RELEASE_E (x : Nat) : Field := ⟨(R.IFL_x_CMD x), 3, 3⟩
def IFL_x_CMD_RELEASE_W (x : Nat) : Field := ⟨(R.IFL_x_CMD x), 2, 2⟩
def IFL_x_CMD_ASYM_CAL_E (x : Nat) : Field := ⟨(R.IFL_x_CMD x), 1, 1⟩
def IFL_x_CMD_ASYM_CAL_W (x : Nat) : Field := ⟨(R.IFL_x_CMD x), 0, 0⟩
def IFL_x_STATUS_LAST_CODE (x : Nat) : Field := ⟨(R.IFL_x_STATUS x), 31, 16⟩
def IFL_x_STATUS_QREASON_E (x : Nat) : Field := ⟨(R.IFL_x_STATUS x), 15, 12⟩
def IFL_x_STATUS_QREASON_W (x : Nat) : Field := ⟨(R.IFL_x_STATUS x), 11, 8⟩
def IFL_x_STATUS_MASTER (x : Nat) : Field := ⟨(R.IFL_x_STATUS x), 7, 7⟩
def IFL_x_STATUS_E_UP (x : Nat) : Field := ⟨(R.IFL_x_STATUS x), 6, 6⟩
def IFL_x_STATUS_W_UP (x : Nat) : Field := ⟨(R.IFL_x_STATUS x), 5, 5⟩
def IFL_x_STATUS_BYPASS (x : Nat) : Field := ⟨(R.IFL_x_STATUS x), 4, 4⟩
def IFL_x_STATUS_RING (x : Nat) : Field := ⟨(R.IFL_x_STATUS x), 3, 2⟩
def IFL_x_STATUS_STATE (x : Nat) : Field := ⟨(R.IFL_x_STATUS x), 1, 0⟩
def IFL_x_NBR_W_VALID (x : Nat) : Field := ⟨(R.IFL_x_NBR_W x), 31, 31⟩
def IFL_x_NBR_W_ADDR (x : Nat) : Field := ⟨(R.IFL_x_NBR_W x), 17, 0⟩
def IFL_x_NBR_E_VALID (x : Nat) : Field := ⟨(R.IFL_x_NBR_E x), 31, 31⟩
def IFL_x_NBR_E_ADDR (x : Nat) : Field := ⟨(R.IFL_x_NBR_E x), 17, 0⟩
def IFL_x_FOLD_FOLD_E (x : Nat) : Field := ⟨(R.IFL_x_FOLD x), 15, 8⟩
def IFL_x_FOLD_FOLD_W (x : Nat) : Field := ⟨(R.IFL_x_FOLD x), 7, 0⟩
def HEDGE_CMD_OP : Field := ⟨R.HEDGE_CMD, 7, 0⟩
def HEDGE_STATUS_LAST_CODE : Field := ⟨R.HEDGE_STATUS, 31, 16⟩
def HEDGE_STATUS_LC : Field := ⟨R.HEDGE_STATUS, 15, 14⟩
def HEDGE_STATUS_SEAL_PENDING : Field := ⟨R.HEDGE_STATUS, 13, 13⟩
def HEDGE_STATUS_DEBUG_LOCK : Field := ⟨R.HEDGE_STATUS, 12, 12⟩
def HEDGE_STATUS_RECOVERY : Field := ⟨R.HEDGE_STATUS, 11, 11⟩
def HEDGE_STATUS_FW_SLOT : Field := ⟨R.HEDGE_STATUS, 10, 10⟩
def HEDGE_STATUS_FW_TRIAL : Field := ⟨R.HEDGE_STATUS, 9, 9⟩
def HEDGE_STATUS_PRG_VERIFIED : Field := ⟨R.HEDGE_STATUS, 8, 8⟩
def HEDGE_STATUS_PRG_LOCKED : Field := ⟨R.HEDGE_STATUS, 7, 7⟩
def HEDGE_STATUS_BOOT_DONE : Field := ⟨R.HEDGE_STATUS, 6, 6⟩
def HEDGE_STATUS_BUSY : Field := ⟨R.HEDGE_STATUS, 5, 5⟩
def HEDGE_STATUS_STATE : Field := ⟨R.HEDGE_STATUS, 1, 0⟩
def HEDGE_CTRS_CAL_CTR : Field := ⟨R.HEDGE_CTRS, 23, 16⟩
def HEDGE_CTRS_PRG_CTR : Field := ⟨R.HEDGE_CTRS, 15, 8⟩
def HEDGE_CTRS_FW_CTR : Field := ⟨R.HEDGE_CTRS, 7, 0⟩
def HEDGE_OWNER_BROKEN : Field := ⟨R.HEDGE_OWNER, 15, 12⟩
def HEDGE_OWNER_REVOKED : Field := ⟨R.HEDGE_OWNER, 11, 8⟩
def HEDGE_OWNER_FUSED : Field := ⟨R.HEDGE_OWNER, 7, 4⟩
def HEDGE_OWNER_ENROLLED : Field := ⟨R.HEDGE_OWNER, 3, 0⟩
def HEDGE_SEAL_CTRL_EN : Field := ⟨R.HEDGE_SEAL_CTRL, 31, 31⟩
def HEDGE_SEAL_CTRL_LEAF_LOG : Field := ⟨R.HEDGE_SEAL_CTRL, 28, 24⟩
def HEDGE_SEAL_CTRL_RING_LOG : Field := ⟨R.HEDGE_SEAL_CTRL, 20, 17⟩
def HEDGE_SEAL_CTRL_BATCH : Field := ⟨R.HEDGE_SEAL_CTRL, 16, 0⟩
def HEDGE_SEAL_PERIOD_MS : Field := ⟨R.HEDGE_SEAL_PERIOD, 15, 0⟩
def HEDGE_LEAF_NEXT_LEAF : Field := ⟨R.HEDGE_LEAF_NEXT, 23, 0⟩
def HEDGE_SEAL_PEND_UNITS : Field := ⟨R.HEDGE_SEAL_PEND, 12, 0⟩
def PWR_STATUS_LAST_CODE : Field := ⟨R.PWR_STATUS, 31, 16⟩
def PWR_STATUS_LEVEL : Field := ⟨R.PWR_STATUS, 7, 6⟩
def PWR_STATUS_HELD : Field := ⟨R.PWR_STATUS, 5, 5⟩
def PWR_STATUS_READY : Field := ⟨R.PWR_STATUS, 4, 4⟩
def PWR_STATUS_PHASE : Field := ⟨R.PWR_STATUS, 3, 0⟩
def PWR_RAIL_FAULT : Field := ⟨R.PWR_RAIL, 24, 16⟩
def PWR_RAIL_OK : Field := ⟨R.PWR_RAIL, 8, 0⟩
def PWR_RESET_CAUSE_RAIL : Field := ⟨R.PWR_RESET_CAUSE, 11, 8⟩
def PWR_RESET_CAUSE_SEQ : Field := ⟨R.PWR_RESET_CAUSE, 4, 4⟩
def PWR_RESET_CAUSE_THERMAL : Field := ⟨R.PWR_RESET_CAUSE, 3, 3⟩
def PWR_RESET_CAUSE_SUPPLY : Field := ⟨R.PWR_RESET_CAUSE, 2, 2⟩
def PWR_RESET_CAUSE_MOD_RST : Field := ⟨R.PWR_RESET_CAUSE, 1, 1⟩
def PWR_RESET_CAUSE_POR : Field := ⟨R.PWR_RESET_CAUSE, 0, 0⟩
def PWR_START_REF_WAIT : Field := ⟨R.PWR_START, 7, 0⟩
def PWR_TEMP_TEMP (k : Nat) : Field := ⟨(R.PWR_TEMP k), 15, 0⟩
def PWR_TEMP_CAL_TEMP : Field := ⟨R.PWR_TEMP_CAL, 15, 0⟩
def PWR_TEMP_MAX_TEMP : Field := ⟨R.PWR_TEMP_MAX, 15, 0⟩
def PWR_THERM_CFG_THROTTLE : Field := ⟨R.PWR_THERM_CFG, 15, 8⟩
def PWR_THERM_CFG_WARN : Field := ⟨R.PWR_THERM_CFG, 7, 0⟩
def PWR_SRESET_BLOCK : Field := ⟨R.PWR_SRESET, 21, 0⟩
def PWR_CMD_RESTART : Field := ⟨R.PWR_CMD, 0, 0⟩
def PWR_POWER_MW10 : Field := ⟨R.PWR_POWER, 15, 0⟩

end F

namespace RegTable

/-- The registers of GLB. -/
def glb : List RegRow := [
   ⟨0, [], 0x4320B000, 0, 0, 0xFFFFFF01, 0, 0, 0, 0, false, .single⟩, /- GLB_ID -/
   ⟨4, [], 0, 0, 0, 0xFFFF0010, 0, 0xF, 0, 0, false, .single⟩, /- GLB_STATUS -/
   ⟨0x10, [], 0, 0, 0x337, 0, 0, 0, 0, 0, false, .single⟩, /- GLB_MODE -/
   ⟨0x14, [], 0, 0, 0, 0xFFFF3FFB, 0, 0, 0, 0, false, .single⟩, /- GLB_MODE_STATUS -/
   ⟨0x20, [], 0, 0, 0, 0xFFFFFFFF, 0, 0, 0, 0, false, .single⟩, /- GLB_EVQ_WR -/
   ⟨0x24, [], 0, 0, 0xFFFFFFFF, 0, 0, 0, 0, 0, false, .single⟩, /- GLB_EVQ_RD -/
   ⟨0x28, [], 0, 0, 0, 0, 0, 0, 0, 0xFFFFFFFF, false, .single⟩, /- GLB_EVQ_LOST -/
   ⟨0x2C, [], 0x3FFFFF, 0, 0x3FFFFF, 0, 0, 0, 0, 0, false, .single⟩, /- GLB_EVQ_MASK -/
   ⟨0x30, [], 0, 0, 0, 0xFFFFFFFF, 0, 0, 0, 0, false, .lo⟩, /- GLB_BAD_ADDR_LO -/
   ⟨0x34, [], 0, 0, 0, 0x800000FF, 0, 0, 0, 0, false, .hi⟩, /- GLB_BAD_ADDR_HI -/
   ⟨0x40, [(2, 4)], 0xFFFFFFFF, 0, 0, 0, 0, 0, 0xFFFFFFFF, 0, false, .single⟩, /- GLB_IRQ_REARM -/
   ⟨0x100, [(22, 4)], 0, 0, 0x8000003F, 0, 0, 0, 0, 0, false, .single⟩, /- GLB_IRQ_ROUTE -/
   ⟨0x200, [(24, 4)], 0, 0, 0, 0, 0, 0, 0, 0xFFFFFFFF, false, .single⟩ /- GLB_EVENT_LOST -/]

/-- The registers of CFGC. -/
def cfgc : List RegRow := [
   ⟨0x100000, [], 0, 0, 0, 0xFFFFDFFF, 0, 0, 0, 0, false, .single⟩, /- CFGC_STATUS -/
   ⟨0x100004, [], 0, 0, 0, 0, 3, 0, 0, 0, false, .single⟩, /- CFGC_CMD -/
   ⟨0x100008, [], 0, 0, 0, 0xFFFFFFFF, 0, 0, 0, 0, false, .single⟩, /- CFGC_SEQ -/
   ⟨0x10000C, [], 0, 0, 0, 0xFFFFFFFF, 0, 0, 0, 0, false, .single⟩, /- CFGC_COMMIT_SEQ -/
   ⟨0x100010, [], 0, 0, 0, 0xFFFFFFFF, 0, 0, 0, 0, false, .single⟩, /- CFGC_APPLIED_SEQ -/
   ⟨0x100020, [], 0, 0, 0, 0xFFFFFFFF, 0, 0, 0, 0, false, .single⟩, /- CFGC_RPT_WR -/
   ⟨0x100024, [], 0, 0, 0xFFFFFFFF, 0, 0, 0, 0, 0, false, .single⟩, /- CFGC_RPT_RD -/
   ⟨0x100028, [], 0, 0, 0, 0, 0, 0, 0, 0xFFFFFFFF, false, .single⟩, /- CFGC_RPT_LOST -/
   ⟨0x100030, [(4, 4)], 0, 0, 0, 0xFFFFFFFF, 0, 0, 0, 0, false, .word0 4⟩ /- CFGC_RPT_ENTRY -/]

/-- The registers of CONV. -/
def conv : List RegRow := [
   ⟨0x200000, [(4, 0x1000)], 4, 0, 0, 0x2C, 0, 0x10, 0, 0, false, .single⟩, /- CONV_b_STATUS -/
   ⟨0x200004, [(4, 0x1000)], 0, 0, 0, 0, 0, 0, 0, 0xFFFFFFFF, false, .single⟩, /- CONV_b_OVR_CNT -/
   ⟨0x200008, [(4, 0x1000)], 0, 0, 0xFFF0FFF, 0, 0, 0, 0, 0, true, .single⟩, /- CONV_b_CH_TRIM -/
   ⟨0x20000C, [(4, 0x1000)], 0, 0, 0, 0xFFF0FFF, 0, 0, 0, 0, false, .single⟩, /- CONV_b_CH_TRIM_LIVE -/
   ⟨0x200100, [(4, 0x1000), (33, 8)], 0, 0, 0x3FF03FF, 0, 0, 0, 0, 0, true, .single⟩, /- CONV_b_TRIMA -/
   ⟨0x200104, [(4, 0x1000), (33, 8)], 0, 0, 0x1FF003F, 0, 0, 0, 0, 0, true, .single⟩, /- CONV_b_TRIMB -/
   ⟨0x200300, [(4, 0x1000), (33, 8)], 0, 0, 0, 0x3FF03FF, 0, 0, 0, 0, false, .single⟩, /- CONV_b_TRIMA_LIVE -/
   ⟨0x200304, [(4, 0x1000), (33, 8)], 0, 0, 0, 0x1FF003F, 0, 0, 0, 0, false, .single⟩ /- CONV_b_TRIMB_LIVE -/]

/-- The registers of ILV. -/
def ilv : List RegRow := [
   ⟨0x300000, [], 0x10804147, 0, 0xFFFFF1FF, 0, 0, 0, 0, 0, true, .single⟩, /- ILV_CTRL -/
   ⟨0x300004, [], 0, 0, 0, 0xFFFF00F3, 0, 0, 0, 0, false, .single⟩, /- ILV_STATUS -/
   ⟨0x300100, [(4, 0x10)], 0xFFF003F, 0, 0x3F, 0xFFFF8000, 0, 0, 0, 0, true, .single⟩, /- ILV_b_SPARE -/
   ⟨0x300104, [(4, 0x10)], 0, 0, 0, 0xFFFFFFFF, 0, 0, 0, 0, false, .single⟩, /- ILV_b_SLOW -/
   ⟨0x300108, [(4, 0x10)], 0, 0, 0, 0, 0, 0xFFFFFFFF, 0, 0, false, .single⟩, /- ILV_b_FAIL -/
   ⟨0x30010C, [(4, 0x10)], 0, 0, 0, 0xFFFFFF, 0, 0, 0, 0, false, .single⟩, /- ILV_b_EST -/
   ⟨0x301000, [(4, 0x400), (33, 8)], 0, 0, 0, 0x3FF03FF, 0, 0, 0, 0, false, .single⟩, /- ILV_b_PROPA -/
   ⟨0x301004, [(4, 0x400), (33, 8)], 0, 0, 0, 0x1FF003F, 0, 0, 0, 0, false, .single⟩ /- ILV_b_PROPB -/]

/-- The registers of STAG. -/
def stag : List RegRow := [
   ⟨0x400000, [], 0x5040000, 0, 0xFF0E0303, 0, 0, 0, 0, 0, true, .single⟩, /- STAG_TB_CTRL -/
   ⟨0x400004, [], 3, 0, 3, 0, 0, 0, 0, 0, true, .single⟩, /- STAG_SL_CTRL -/
   ⟨0x400008, [], 0x40000000, 0, 0x7FFFFFFF, 0, 0, 0, 0, 0, true, .single⟩, /- STAG_SL_DIV -/
   ⟨0x40000C, [], 0x30, 0, 0, 0xFFFFFFFE, 0, 1, 0, 0, false, .single⟩, /- STAG_STATUS -/
   ⟨0x400010, [], 0, 0, 0, 0xFFFFFFFF, 0, 0, 0, 0, false, .single⟩, /- STAG_REF_OFFSET -/
   ⟨0x400018, [], 0, 0, 0, 0xFFFFFFFF, 0, 0, 0, 0, false, .lo⟩, /- STAG_JUMP_LO -/
   ⟨0x40001C, [], 0, 0, 0, 0xFFFFFFFF, 0, 0, 0, 0, false, .hi⟩, /- STAG_JUMP_HI -/
   ⟨0x400020, [], 0, 0, 0, 0xFFFFFFFF, 0, 0, 0, 0, false, .lo⟩, /- STAG_PHASE_ERR_LO -/
   ⟨0x400024, [], 0, 0, 0, 0xFFFFFFFF, 0, 0, 0, 0, false, .hi⟩, /- STAG_PHASE_ERR_HI -/
   ⟨0x400028, [], 0, 0, 0, 0, 0xFFFFFFFF, 0, 0, 0, false, .lo⟩, /- STAG_TB_LOAD_LO -/
   ⟨0x40002C, [], 0, 0, 0, 0, 0xFFFFFFFF, 0, 0, 0, false, .hi⟩, /- STAG_TB_LOAD_HI -/
   ⟨0x400030, [], 0, 0, 0, 0, 0, 0, 0, 0xFFFFFFFF, false, .single⟩ /- STAG_UNLOCK_CNT -/]

/-- The registers of OWL. -/
def owl : List RegRow := [
   ⟨0x500000, [(8, 0x100)], 0x40000000, 0, 0xF0FF0000, 0, 0, 0, 0, 0, true, .single⟩, /- OWL_n_CFG -/
   ⟨0x500004, [(8, 0x100)], 0x7FF0800, 0, 0xFFF0FFF, 0, 0, 0, 0, 0, true, .single⟩, /- OWL_n_THRESH -/
   ⟨0x500008, [(8, 0x100)], 0, 0, 0, 0xFFFF01EF, 0, 0x10, 0, 0, false, .single⟩, /- OWL_n_STATUS -/
   ⟨0x50000C, [(8, 0x100)], 0, 0, 0, 0, 0, 0, 0, 0xFFFFFFFF, false, .single⟩, /- OWL_n_TRIP_CNT -/
   ⟨0x500010, [(8, 0x100)], 0, 0, 0, 0, 7, 0, 0, 0, false, .single⟩, /- OWL_n_CMD -/
   ⟨0x500014, [(8, 0x100)], 0, 0, 0, 0xFFFFFFFF, 0, 0, 0, 0, false, .single⟩ /- OWL_n_RB -/]

/-- The registers of PULSE. -/
def pulse : List RegRow := [
   ⟨0x600000, [(4, 0x100)], 0, 0, 0xF00000FF, 0, 0, 0, 0, 0, true, .single⟩, /- PULSE_u_CFG -/
   ⟨0x600004, [(4, 0x100)], 1, 0, 0xFFFF, 0, 0, 0, 0, 0, true, .single⟩, /- PULSE_u_COUNT -/
   ⟨0x600008, [(4, 0x100)], 0x40, 0, 0xFFFFFFFF, 0, 0, 0, 0, 0, true, .lo⟩, /- PULSE_u_WIDTH_LO -/
   ⟨0x60000C, [(4, 0x100)], 0, 0, 0xFFFF, 0, 0, 0, 0, 0, true, .hi⟩, /- PULSE_u_WIDTH_HI -/
   ⟨0x600010, [(4, 0x100)], 0x80, 0, 0xFFFFFFFF, 0, 0, 0, 0, 0, true, .lo⟩, /- PULSE_u_PERIOD_LO -/
   ⟨0x600014, [(4, 0x100)], 0, 0, 0xFFFF, 0, 0, 0, 0, 0, true, .hi⟩, /- PULSE_u_PERIOD_HI -/
   ⟨0x600018, [(4, 0x100)], 0, 0, 0, 0, 7, 0, 0, 0, false, .single⟩, /- PULSE_u_CMD -/
   ⟨0x60001C, [(4, 0x100)], 0, 0, 0, 0xFFFF0023, 0, 0x10, 0, 0, false, .single⟩, /- PULSE_u_STATUS -/
   ⟨0x600020, [(4, 0x100)], 0, 0, 0, 0, 0, 0, 0, 0xFFFFFFFF, false, .single⟩, /- PULSE_u_FIRE_CNT -/
   ⟨0x600024, [(4, 0x100)], 0, 0, 0, 0, 0, 0, 0, 0xFFFFFFFF, false, .single⟩ /- PULSE_u_IGN_CNT -/]

/-- The registers of FOX. -/
def fox0 : List RegRow := [
   ⟨0x700000, [], 0x10, 0, 0x71F, 0, 0, 0, 0, 0, true, .single⟩, /- FOX_CTRL -/
   ⟨0x700004, [], 0, 0, 0, 0xFFFFFC03, 0, 0, 0, 0, false, .single⟩, /- FOX_STATUS -/
   ⟨0x700008, [], 0, 0, 0, 0, 7, 0, 0, 0, false, .single⟩, /- FOX_ARM -/
   ⟨0x700010, [(2, 0x20)], 0, 0, 0xFFF00FFF, 0, 0, 0, 0, 0, true, .single⟩, /- FOX_x_CFG -/
   ⟨0x700014, [(2, 0x20)], 0, 0, 0xFFFFFFFF, 0, 0, 0, 0, 0, true, .single⟩, /- FOX_x_LEVEL -/
   ⟨0x700018, [(2, 0x20)], 0, 0, 0xFFFFFFFF, 0, 0, 0, 0, 0, true, .lo⟩, /- FOX_x_LIM1_LO -/
   ⟨0x70001C, [(2, 0x20)], 0, 0, 0xFFFF, 0, 0, 0, 0, 0, true, .hi⟩, /- FOX_x_LIM1_HI -/
   ⟨0x700020, [(2, 0x20)], 0, 0, 0xFFFFFFFF, 0, 0, 0, 0, 0, true, .lo⟩, /- FOX_x_LIM2_LO -/
   ⟨0x700024, [(2, 0x20)], 0, 0, 0xFFFF, 0, 0, 0, 0, 0, true, .hi⟩, /- FOX_x_LIM2_HI -/
   ⟨0x700050, [], 0, 0, 0xFFF, 0, 0, 0, 0, 0, true, .single⟩, /- FOX_PATTERN -/
   ⟨0x700054, [(4, 4)], 0, 0, 0xFFFFFFF, 0, 0, 0, 0, 0, true, .single⟩, /- FOX_PAT_LEVEL -/
   ⟨0x700070, [], 0, 0, 0x1FFFFFF, 0, 0, 0, 0, 0, true, .single⟩, /- FOX_QUAL -/
   ⟨0x700074, [(4, 4)], 0, 0, 0xFFFF, 0, 0, 0, 0, 0, true, .single⟩, /- FOX_QUAL_LEVEL -/
   ⟨0x700090, [], 0, 0, 0xC0000000, 0, 0, 0, 0, 0, true, .single⟩, /- FOX_SEQ -/
   ⟨0x700094, [], 1, 0, 0xFFFFFFFF, 0, 0, 0, 0, 0, true, .single⟩, /- FOX_SEQ_COUNT -/
   ⟨0x700098, [], 0, 0, 0xFFFFFFFF, 0, 0, 0, 0, 0, true, .lo⟩, /- FOX_SEQ_WIN_LO -/
   ⟨0x70009C, [], 0, 0, 0xFFFF, 0, 0, 0, 0, 0, true, .hi⟩, /- FOX_SEQ_WIN_HI -/
   ⟨0x7000A0, [], 0, 0, 0xFFFFFFFF, 0, 0, 0, 0, 0, true, .lo⟩, /- FOX_HOLDOFF_LO -/
   ⟨0x7000A4, [], 0, 0, 0x8001FFFF, 0, 0, 0, 0, 0, true, .hi⟩, /- FOX_HOLDOFF_HI -/
   ⟨0x7000B0, [], 0, 0, 3, 0, 0, 0, 0, 0, true, .single⟩ /- FOX_EXT -/]

/-- The registers of FOX. -/
def fox1 : List RegRow := [
   ⟨0x7000B4, [], 0, 0, 0xF, 0, 0, 0, 0, 0, true, .single⟩, /- FOX_SER -/
   ⟨0x7000B8, [], 1, 0, 0x3FFFF3, 0, 0, 0, 0, 0, true, .single⟩, /- FOX_KERNEL -/
   ⟨0x7000C0, [], 4, 0, 0xF000FFFF, 0, 0, 0, 0, 0, true, .single⟩, /- FOX_TRIGOUT -/
   ⟨0x7000C4, [], 0x780, 0, 0xFFFFF, 0, 0, 0, 0, 0, true, .single⟩, /- FOX_TRIGOUT_DELAY -/
   ⟨0x7000C8, [], 0, 0, 0, 0xFFFFF, 0, 0, 0, 0, false, .single⟩, /- FOX_TRIGOUT_MIN -/
   ⟨0x7000D0, [], 0, 0, 0, 0, 0, 0, 0, 0xFFFFFFFF, false, .single⟩, /- FOX_EARLY_CNT -/
   ⟨0x7000D4, [], 0, 0, 0, 0, 0, 0, 0, 0xFFFFFFFF, false, .single⟩, /- FOX_MISSED_CNT -/
   ⟨0x7000D8, [], 0, 0, 0, 0, 0, 0, 0, 0xFFFFFFFF, false, .single⟩, /- FOX_HOLDOFF_CNT -/
   ⟨0x7000DC, [], 0, 0, 0, 0, 0, 0, 0, 0xFFFFFFFF, false, .single⟩, /- FOX_SAMEVEC_CNT -/
   ⟨0x7000E0, [], 0, 0, 0, 0, 0, 0, 0, 0xFFFFFFFF, false, .single⟩, /- FOX_LATE_CNT -/
   ⟨0x7000E4, [], 0, 0, 0, 0, 0, 0, 0, 0xFFFFFFFF, false, .single⟩ /- FOX_MERGED_CNT -/]

/-- The registers of SDEC. -/
def sdec : List RegRow := [
   ⟨0x800000, [(4, 0x100)], 0xFFFF00, 0, 0xF8FFFFF0, 0, 0, 0, 0, 0, true, .single⟩, /- SDEC_d_CFG -/
   ⟨0x800004, [(4, 0x100)], 8, 0, 0x301FFFFF, 0, 0, 0, 0, 0, true, .single⟩, /- SDEC_d_OPT -/
   ⟨0x800008, [(4, 0x100), (4, 4)], 0, 0, 0xFFFFFFF, 0, 0, 0, 0, 0, true, .single⟩, /- SDEC_d_LEVEL -/
   ⟨0x800018, [(4, 0x100)], 0x80000000, 0, 0xFFFFFFFF, 0, 0, 0, 0, 0, true, .lo⟩, /- SDEC_d_UI_LO -/
   ⟨0x80001C, [(4, 0x100)], 0x138, 0, 0xFFFFFFFF, 0, 0, 0, 0, 0, true, .hi⟩, /- SDEC_d_UI_HI -/
   ⟨0x800020, [(4, 0x100)], 0x10000000, 0, 0xFFFFFFFF, 0, 0, 0, 0, 0, true, .lo⟩, /- SDEC_d_UI2_LO -/
   ⟨0x800024, [(4, 0x100)], 0x27, 0, 0xFFFFFFFF, 0, 0, 0, 0, 0, true, .hi⟩, /- SDEC_d_UI2_HI -/
   ⟨0x800028, [(4, 0x100)], 1, 0, 0x70FFFFF, 0, 0, 0, 0, 0, true, .single⟩, /- SDEC_d_MATCH -/
   ⟨0x800030, [(4, 0x100), (4, 4)], 0, 0, 0xFFFFFFFF, 0, 0, 0, 0, 0, true, .single⟩, /- SDEC_d_MASK -/
   ⟨0x800040, [(4, 0x100), (4, 4)], 0, 0, 0xFFFFFFFF, 0, 0, 0, 0, 0, true, .single⟩, /- SDEC_d_VAL_A -/
   ⟨0x800050, [(4, 0x100), (4, 4)], 0, 0, 0xFFFFFFFF, 0, 0, 0, 0, 0, true, .single⟩, /- SDEC_d_VAL_B -/
   ⟨0x800060, [(4, 0x100)], 0, 0, 0, 0xFFFF001B, 0, 4, 0, 0, false, .single⟩, /- SDEC_d_STATUS -/
   ⟨0x800064, [(4, 0x100)], 0, 0, 0, 0, 0, 0, 0, 0xFFFFFFFF, false, .single⟩, /- SDEC_d_FRAME_CNT -/
   ⟨0x800068, [(4, 0x100)], 0, 0, 0, 0, 0, 0, 0, 0xFFFFFFFF, false, .single⟩, /- SDEC_d_ERR_CNT -/
   ⟨0x80006C, [(4, 0x100)], 0, 0, 0, 0, 0, 0, 0, 0xFFFFFFFF, false, .single⟩, /- SDEC_d_MATCH_CNT -/
   ⟨0x800070, [(4, 0x100), (4, 4)], 0, 0, 0, 0xFFFFFFFF, 0, 0, 0, 0, false, .single⟩ /- SDEC_d_LAST_FIELD -/]

/-- The registers of LYNX. -/
def lynx : List RegRow := [
   ⟨0x900000, [(8, 0x100)], 0, 0x10000, 0xBC1F003F, 0, 0, 0, 0, 0, true, .single⟩, /- LYNX_n_CFG -/
   ⟨0x900004, [(8, 0x100)], 0x10, 0, 0x1F, 0, 0, 0, 0, 0, true, .single⟩, /- LYNX_n_EPOCH -/
   ⟨0x900008, [(8, 0x100)], 0x4C4B4, 0, 0xFFFFFFFF, 0, 0, 0, 0, 0, true, .lo⟩, /- LYNX_n_GATE_LO -/
   ⟨0x90000C, [(8, 0x100)], 0, 0, 0xFFFF, 0, 0, 0, 0, 0, true, .hi⟩, /- LYNX_n_GATE_HI -/
   ⟨0x900010, [(8, 0x100)], 0, 0, 0xFFFFFFFF, 0, 0, 0, 0, 0, true, .single⟩, /- LYNX_n_REPEAT -/
   ⟨0x900014, [(8, 0x100)], 0, 0, 0xFFFFFFFF, 0, 0, 0, 0, 0, true, .single⟩, /- LYNX_n_OFFSET -/
   ⟨0x900018, [(8, 0x100)], 0, 0, 0x1FFF, 0, 0, 0, 0, 0, true, .single⟩, /- LYNX_n_WM -/
   ⟨0x900020, [(8, 0x100)], 0, 0, 0, 0, 7, 0, 0, 0, false, .single⟩, /- LYNX_n_CMD -/
   ⟨0x900024, [(8, 0x100)], 0, 0, 0, 0xFFFF001F, 0, 0, 0, 0, false, .single⟩, /- LYNX_n_STATUS -/
   ⟨0x900028, [(8, 0x100)], 0, 0, 0, 0x1FFF, 0, 0, 0, 0, false, .single⟩, /- LYNX_n_LEVEL -/
   ⟨0x90002C, [(8, 0x100)], 0, 0, 0, 0, 0, 0, 0, 0xFFFFFFFF, false, .single⟩, /- LYNX_n_LOST -/
   ⟨0x900030, [(8, 0x100)], 0, 0, 0, 0xFFFFFFFF, 0, 0, 0, 0, false, .single⟩, /- LYNX_n_MEAS -/
   ⟨0x900034, [(8, 0x100)], 0, 0, 0, 0xFFFFFFFF, 0, 0, 0, 0, false, .single⟩, /- LYNX_n_CALRES -/
   ⟨0x900040, [(8, 0x100), (4, 4)], 0, 0, 0, 0xFFFFFFFF, 0, 0, 0, 0, false, .word0 4⟩, /- LYNX_n_Q -/
   ⟨0x900800, [], 0, 0, 0xFFFFFFFF, 0, 0, 0, 0, 0, true, .single⟩ /- LYNX_EXT_OFFSET -/]

/-- The registers of AQS. -/
def aqs : List RegRow := [
   ⟨0xA00000, [], 0, 0, 0, 0, 1, 0, 0, 0, false, .single⟩, /- AQS_CTRL -/
   ⟨0xA00004, [], 0, 0, 0, 0xFFFFFFFF, 0, 0, 0, 0, false, .single⟩, /- AQS_STATUS -/
   ⟨0xA00008, [], 0, 0, 0, 0xFFFFFFFF, 0, 0, 0, 0, false, .lo⟩, /- AQS_CYCLE_LO -/
   ⟨0xA0000C, [], 0, 0, 0, 0xFFFFFFFF, 0, 0, 0, 0, false, .hi⟩, /- AQS_CYCLE_HI -/
   ⟨0xA00010, [], 0, 0, 0, 0xFFFFFFFF, 0, 0, 0, 0, false, .lo⟩, /- AQS_TICK_LO -/
   ⟨0xA00014, [], 0, 0, 0, 0xFFFFFFFF, 0, 0, 0, 0, false, .hi⟩, /- AQS_TICK_HI -/
   ⟨0xA01000, [(8, 0x200)], 0, 0, 0, 0, 0xF, 0, 0, 0, false, .single⟩, /- AQS_CTX_n_CTRL -/
   ⟨0xA01004, [(8, 0x200)], 0, 0, 0, 0xFFFFFFF3, 0, 0, 0, 0, false, .single⟩, /- AQS_CTX_n_STATUS -/
   ⟨0xA01008, [(8, 0x200)], 0, 0, 0x7FFFF, 0, 0, 0, 0, 0, false, .single⟩, /- AQS_CTX_n_PC -/
   ⟨0xA0100C, [(8, 0x200)], 0, 0, 0, 0x7FFFF, 0, 0, 0, 0, false, .single⟩, /- AQS_CTX_n_FAULT_PC -/
   ⟨0xA01040, [(8, 0x200), (16, 8)], 0, 0, 0xFFFFFFFF, 0, 0, 0, 0, 0, false, .lo⟩, /- AQS_CTX_n_G_LO -/
   ⟨0xA01044, [(8, 0x200), (16, 8)], 0, 0, 0xFFFFFFFF, 0, 0, 0, 0, 0, false, .hi⟩, /- AQS_CTX_n_G_HI -/
   ⟨0xA010C0, [(8, 0x200)], 0, 0, 0, 0xFFF0FFF, 0, 0, 0, 0, false, .single⟩, /- AQS_CTX_n_EVNUM -/
   ⟨0xA010C8, [(8, 0x200)], 0, 0, 0, 0xFFFFFFFF, 0, 0, 0, 0, false, .lo⟩, /- AQS_CTX_n_ARG_LO -/
   ⟨0xA010CC, [(8, 0x200)], 0, 0, 0, 0xFFFFFFFF, 0, 0, 0, 0, false, .hi⟩, /- AQS_CTX_n_ARG_HI -/
   ⟨0xA010D0, [(8, 0x200), (3, 4)], 0, 0, 0, 0xFFFFFFFF, 0, 0, 0, 0, false, .word0 3⟩, /- AQS_CTX_n_EVTS -/
   ⟨0xA01100, [(8, 0x200), (16, 4)], 0, 0, 0, 0x1FF0FFF, 0, 0, 0, 0, false, .single⟩, /- AQS_CTX_n_WATCH -/
   ⟨0xA01140, [(8, 0x200), (16, 4)], 0, 0, 0, 0x7FFFF, 0, 0, 0, 0, false, .single⟩ /- AQS_CTX_n_RSTK -/]

/-- The registers of CAP. -/
def cap : List RegRow := [
   ⟨0xB00000, [], 0xA4F, 0, 0x1F7F, 0, 0, 0, 0, 0, true, .single⟩, /- CAP_CTRL -/
   ⟨0xB00004, [], 0, 0, 0xFFFFFFF, 0, 0, 0, 0, 0, true, .single⟩, /- CAP_PLAN -/
   ⟨0xB00008, [], 0, 0, 0, 0xFFFF0703, 0, 0x800, 0, 0, false, .single⟩, /- CAP_STATUS -/
   ⟨0xB0000C, [], 0, 0, 0, 0xFFF, 0, 0, 0, 0, false, .single⟩, /- CAP_POS_ENTRY -/
   ⟨0xB00010, [], 0, 0, 0, 0xFFFFFF, 0, 0, 0, 0, false, .single⟩, /- CAP_POS_SLOT -/
   ⟨0xB00014, [], 0, 0, 0, 0xFFFFFFFF, 0, 0, 0, 0, false, .single⟩, /- CAP_ACQ -/
   ⟨0xB00018, [], 0, 0, 0xFFFFFFFF, 0, 0, 0, 0, 0, true, .lo⟩, /- CAP_ACQ_HDR_LO -/
   ⟨0xB0001C, [], 0, 0, 0xFFFFFFFF, 0, 0, 0, 0, 0, true, .hi⟩, /- CAP_ACQ_HDR_HI -/
   ⟨0xB00020, [], 0, 0, 0, 0x1FFFF, 0, 0, 0, 0, false, .single⟩, /- CAP_SRAM_LEVEL -/
   ⟨0xB00024, [], 0, 0, 0, 0x1FFFF, 0, 0, 0, 0, false, .single⟩, /- CAP_SRAM_HWM -/
   ⟨0xB00028, [], 0, 0, 0, 0xFFFFFFFF, 0, 0, 0, 0, false, .lo⟩, /- CAP_LOST_LO -/
   ⟨0xB0002C, [], 0, 0, 0, 0xFFFFFFFF, 0, 0, 0, 0, false, .hi⟩, /- CAP_LOST_HI -/
   ⟨0xB00030, [], 0, 0, 0, 0xFFFFFFFF, 0, 0, 0, 0, false, .lo⟩, /- CAP_STREAM_WR_LO -/
   ⟨0xB00034, [], 0, 0, 0, 0xFFFFFFFF, 0, 0, 0, 0, false, .hi⟩, /- CAP_STREAM_WR_HI -/
   ⟨0xB00038, [], 0, 0, 0xFFFFFFFF, 0, 0, 0, 0, 0, false, .lo⟩, /- CAP_STREAM_RD_LO -/
   ⟨0xB0003C, [], 0, 0, 0xFFFFFFFF, 0, 0, 0, 0, 0, false, .hi⟩, /- CAP_STREAM_RD_HI -/
   ⟨0xB00040, [], 0, 0, 0, 0, 0, 0, 0, 0xFFFFFFFF, false, .single⟩ /- CAP_TLIST_DROP -/]

/-- The registers of RED. -/
def red : List RegRow := [
   ⟨0xC00000, [(4, 0x100)], 0x500000, 0, 0xFFFF0000, 0, 0, 0, 0, 0, true, .single⟩, /- RED_p_CFG -/
   ⟨0xC00004, [(4, 0x100)], 2, 0, 0x1FFFF, 0, 0, 0, 0, 0, true, .single⟩, /- RED_p_GROUP -/
   ⟨0xC00008, [(4, 0x100)], 0xFFFF, 0, 0xFFFFFFFF, 0, 0, 0, 0, 0, true, .single⟩, /- RED_p_FIR -/
   ⟨0xC0000C, [(4, 0x100)], 0, 0, 0xC0001FFF, 0, 0, 0, 0, 0, true, .single⟩, /- RED_p_DST -/
   ⟨0xC00010, [(4, 0x100)], 0, 0, 0xFFFFFFFF, 0, 0, 0, 0, 0, true, .lo⟩, /- RED_p_MEM_ADDR_LO -/
   ⟨0xC00014, [(4, 0x100)], 0, 0, 0xFFFFFFFF, 0, 0, 0, 0, 0, true, .hi⟩, /- RED_p_MEM_ADDR_HI -/
   ⟨0xC00018, [(4, 0x100)], 0, 0, 0xFFFFFFFF, 0, 0, 0, 0, 0, true, .lo⟩, /- RED_p_MEM_COUNT_LO -/
   ⟨0xC0001C, [(4, 0x100)], 0, 0, 0xFFFFFFFF, 0, 0, 0, 0, 0, true, .hi⟩, /- RED_p_MEM_COUNT_HI -/
   ⟨0xC00020, [(4, 0x100)], 0, 0, 0, 0, 3, 0, 0, 0, false, .single⟩, /- RED_p_CMD -/
   ⟨0xC00024, [(4, 0x100)], 0, 0, 0, 0xFFFF0007, 0, 0, 0, 0, false, .single⟩, /- RED_p_STATUS -/
   ⟨0xC00028, [(4, 0x100)], 0, 0, 0, 0xFFFFFFFF, 0, 0, 0, 0, false, .lo⟩, /- RED_p_BLOCKS_LO -/
   ⟨0xC0002C, [(4, 0x100)], 0, 0, 0, 0xFFFFFFFF, 0, 0, 0, 0, false, .hi⟩, /- RED_p_BLOCKS_HI -/
   ⟨0xC00030, [(4, 0x100)], 0, 0, 0, 0xFFFFFFFF, 0, 0, 0, 0, false, .lo⟩, /- RED_p_LOST_LO -/
   ⟨0xC00034, [(4, 0x100)], 0, 0, 0, 0xFFFFFFFF, 0, 0, 0, 0, false, .hi⟩, /- RED_p_LOST_HI -/
   ⟨0xC00038, [(4, 0x100)], 0, 0, 0, 0, 0, 0, 0, 0xFFFFFFFF, false, .single⟩, /- RED_p_SAT -/
   ⟨0xC00040, [(4, 0x100), (8, 4)], 0, 0, 0, 0xFFFFFFFF, 0, 0, 0, 0, false, .single⟩, /- RED_p_LS -/
   ⟨0xC00060, [(4, 0x100)], 0, 0, 0xFFFFFFFF, 0, 0, 0, 0, 0, true, .lo⟩, /- RED_p_MEM_TS_LO -/
   ⟨0xC00064, [(4, 0x100)], 0, 0, 0xFFFFFFFF, 0, 0, 0, 0, 0, true, .hi⟩, /- RED_p_MEM_TS_HI -/
   ⟨0xC00400, [], 0, 0, 0xFFFFFFFF, 0, 0, 0, 0, 0, true, .lo⟩, /- RED_FINE_LS_LO -/
   ⟨0xC00404, [], 0, 0, 0xFFFFFFFF, 0, 0, 0, 0, 0, true, .hi⟩ /- RED_FINE_LS_HI -/]

/-- The registers of STK. -/
def stk : List RegRow := [
   ⟨0xD00000, [], 1, 0, 7, 0, 0, 0, 0, 0, true, .single⟩, /- STK_CTRL -/
   ⟨0xD00004, [], 0x1000000, 0, 0x1FFFFFF, 0, 0, 0, 0, 0, true, .single⟩, /- STK_TARGET -/
   ⟨0xD00008, [], 0x400000A, 0, 0x7FF000F, 0, 0, 0, 0, 0, true, .single⟩, /- STK_HIST -/
   ⟨0xD00010, [], 0, 0, 0xFFFFFFFF, 0, 0, 0, 0, 0, true, .lo⟩, /- STK_SPILL_LO -/
   ⟨0xD00014, [], 0, 0, 0xFFFFFFFF, 0, 0, 0, 0, 0, true, .hi⟩, /- STK_SPILL_HI -/
   ⟨0xD00018, [], 0, 0, 0xFFFFFFFF, 0, 0, 0, 0, 0, true, .lo⟩, /- STK_HDR_LO -/
   ⟨0xD0001C, [], 0, 0, 0xFFFFFFFF, 0, 0, 0, 0, 0, true, .hi⟩, /- STK_HDR_HI -/
   ⟨0xD00020, [], 0, 0, 0, 0, 3, 0, 0, 0, false, .single⟩, /- STK_CMD -/
   ⟨0xD00024, [], 0, 0, 0, 0xFFFF001F, 0, 0, 0, 0, false, .single⟩, /- STK_STATUS -/
   ⟨0xD00028, [], 0, 0, 0, 0xFFFFFFFF, 0, 0, 0, 0, false, .single⟩, /- STK_COUNT -/
   ⟨0xD0002C, [], 0, 0, 0, 0xFFFFFFFF, 0, 0, 0, 0, false, .single⟩ /- STK_REJECT -/]

/-- The registers of CAL. -/
def cal : List RegRow := [
   ⟨0xE00000, [], 0, 0, 1, 0, 0, 0, 0, 0, true, .single⟩, /- CAL_CTRL -/
   ⟨0xE00004, [], 0xF4240, 0, 0x1FFFFF, 0, 0, 0, 0, 0, true, .single⟩, /- CAL_REF_VALUE -/
   ⟨0xE00008, [], 0x1C200014, 0, 0xFFFF00FF, 0, 0, 0, 0, 0, true, .single⟩, /- CAL_STALE_CFG -/
   ⟨0xE0000C, [], 0, 0, 0, 0, 0xFF37, 0, 0, 0, false, .single⟩, /- CAL_START -/
   ⟨0xE00010, [], 0, 0, 0, 0, 0xF, 0, 0, 0, false, .single⟩, /- CAL_CMD -/
   ⟨0xE00014, [], 0x7000, 0, 0, 0xFFFF7FF3, 0, 0, 0, 0, false, .single⟩, /- CAL_STATUS -/
   ⟨0xE00018, [], 0, 0, 0, 0xFFFFFFFF, 0, 0, 0, 0, false, .single⟩, /- CAL_COUNT -/
   ⟨0xE0001C, [], 0, 0, 0, 0xFFFF, 0, 0, 0, 0, false, .single⟩, /- CAL_LAST_TEMP -/
   ⟨0xE00020, [(3, 4)], 0, 0, 0, 0xFFFFFFFF, 0, 0, 0, 0, false, .word0 3⟩, /- CAL_LAST_TS -/
   ⟨0xE00030, [], 0, 0, 0, 0xFFFFFFFF, 0, 0, 0, 0, false, .single⟩, /- CAL_RESULT0 -/
   ⟨0xE00034, [], 0, 0, 0, 0xFFFFFFFF, 0, 0, 0, 0, false, .single⟩, /- CAL_RESULT1 -/
   ⟨0xE00038, [], 0, 0, 0xFFFFFFFF, 0, 0, 0, 0, 0, false, .lo⟩, /- CAL_BUNDLE_ADDR_LO -/
   ⟨0xE0003C, [], 0, 0, 0xFFFFFFFF, 0, 0, 0, 0, 0, false, .hi⟩, /- CAL_BUNDLE_ADDR_HI -/
   ⟨0xE08000, [(4096, 4)], 0, 0, 0xFFFFFFFF, 0, 0, 0, 0, 0, false, .single⟩ /- CAL_IMAGE -/]

/-- The registers of BADGER. -/
def badger : List RegRow := [
   ⟨0xF00000, [], 0x80000100, 0, 0x8000FF00, 0, 0, 0, 0, 0, true, .single⟩, /- BADGER_CTRL -/
   ⟨0xF00004, [], 0, 0, 0, 0xFFFFFF07, 0, 8, 0, 0, false, .single⟩, /- BADGER_STATUS -/
   ⟨0xF00008, [], 0, 0, 0, 0, 1, 0, 0, 0, false, .single⟩, /- BADGER_CMD -/
   ⟨0xF00010, [(4, 4)], 0x112, 0, 0x3FF, 0, 0, 0, 0, 0, true, .single⟩, /- BADGER_PIPE -/
   ⟨0xF00020, [], 0, 0, 0, 0x1FFF, 0, 0, 0, 0, false, .single⟩, /- BADGER_QLEVEL -/
   ⟨0xF00030, [], 0, 0, 0, 0xFFFFFFFF, 0, 0, 0, 0, false, .lo⟩, /- BADGER_IN_LO -/
   ⟨0xF00034, [], 0, 0, 0, 0xFFFFFFFF, 0, 0, 0, 0, false, .hi⟩, /- BADGER_IN_HI -/
   ⟨0xF00038, [], 0, 0, 0, 0xFFFFFFFF, 0, 0, 0, 0, false, .lo⟩, /- BADGER_OUT_LO -/
   ⟨0xF0003C, [], 0, 0, 0, 0xFFFFFFFF, 0, 0, 0, 0, false, .hi⟩, /- BADGER_OUT_HI -/
   ⟨0xF00040, [], 0, 0, 0, 0, 0, 0, 0, 0xFFFFFFFF, false, .single⟩, /- BADGER_NOGAIN_CNT -/
   ⟨0xF00044, [], 0, 0, 0, 0, 0, 0, 0, 0xFFFFFFFF, false, .single⟩, /- BADGER_VERIFY_CNT -/
   ⟨0xF00048, [], 0, 0, 0, 0, 0, 0, 0, 0xFFFFFFFF, false, .single⟩, /- BADGER_ERR_CNT -/
   ⟨0xF00100, [(4, 0x40)], 0, 0, 0xFFFFFFFF, 0, 0, 0, 0, 0, true, .lo⟩, /- BADGER_r_BASE_LO -/
   ⟨0xF00104, [(4, 0x40)], 0, 0, 0xFFFFFFFF, 0, 0, 0, 0, 0, true, .hi⟩, /- BADGER_r_BASE_HI -/
   ⟨0xF00108, [(4, 0x40)], 0xFF0004, 0, 0x80FF000F, 0, 0, 0, 0, 0, true, .single⟩, /- BADGER_r_CFG -/
   ⟨0xF0010C, [(4, 0x40)], 0, 0, 0, 0xFFF, 0, 0, 0, 0, false, .single⟩, /- BADGER_r_NEXT -/
   ⟨0xF00110, [(4, 0x40)], 0, 0, 0, 0, 1, 0, 0, 0, false, .single⟩, /- BADGER_r_DOORBELL -/
   ⟨0xF00114, [(4, 0x40)], 0, 0, 0, 0xFFFF0007, 0, 0, 0, 0, false, .single⟩, /- BADGER_r_STATUS -/
   ⟨0xF00118, [(4, 0x40)], 0, 0, 0, 0, 0, 0, 0, 0xFFFFFFFF, false, .single⟩ /- BADGER_r_DONE -/]

/-- The registers of DDR. -/
def ddr0 : List RegRow := [
   ⟨0x1000000, [], 0, 0, 0, 0xFFF0703, 0, 0, 0, 0, false, .single⟩, /- DDR_ORG -/
   ⟨0x1000004, [], 0xFFF2C03, 0, 0xFFF3F03, 0, 0, 0, 0, 0, true, .single⟩, /- DDR_CTRL -/
   ⟨0x1000008, [], 0x3E8000A, 0, 0xFFFFFFFF, 0, 0, 0, 0, 0, true, .single⟩, /- DDR_PD -/
   ⟨0x100000C, [], 0x280014, 0, 0x3FF003F, 0, 0, 0, 0, 0, true, .single⟩, /- DDR_ARB -/
   ⟨0x1000010, [], 0, 0, 0x8000FFFF, 0, 0, 0, 0, 0, true, .single⟩, /- DDR_STRIPE -/
   ⟨0x1000014, [], 0xE03CD, 0, 0x1F07FF, 0, 0, 0, 0, 0, true, .single⟩, /- DDR_RATE_CFG -/
   ⟨0x1000018, [], 0x76543210, 0, 0xFFFFFFFF, 0, 0, 0, 0, 0, true, .lo⟩, /- DDR_SCRAMBLE_LO -/
   ⟨0x100001C, [], 0xFEDCBA98, 0, 0xFFFFFFFF, 0, 0, 0, 0, 0, true, .hi⟩, /- DDR_SCRAMBLE_HI -/
   ⟨0x1000020, [], 0, 0, 0, 0xFFFF001F, 0, 0, 0, 0, false, .single⟩, /- DDR_STATUS -/
   ⟨0x1000024, [], 0, 0, 0, 0xFFF0FFF, 0, 0, 0, 0, false, .single⟩, /- DDR_READY -/
   ⟨0x1000028, [], 0, 0, 0, 0, 0xFFF0001, 0, 0, 0, false, .single⟩, /- DDR_CMD -/
   ⟨0x100002C, [], 0, 0, 0, 0x1F0FFF, 0, 0, 0, 0, false, .single⟩, /- DDR_STRIPE_CH -/
   ⟨0x1000100, [(12, 0x40)], 0, 0, 0, 0xFFFF05F3, 0, 0x200, 0, 0, false, .single⟩, /- DDR_CH_n_STATUS -/
   ⟨0x1000104, [(12, 0x40)], 0x400, 0, 0, 0x7FF, 0, 0, 0, 0, false, .single⟩, /- DDR_CH_n_RATE -/
   ⟨0x1000108, [(12, 0x40)], 0, 0, 0, 0, 0, 0, 0, 0xFFFFFFFF, false, .single⟩, /- DDR_CH_n_CE_CNT -/
   ⟨0x100010C, [(12, 0x40)], 0, 0, 0, 0, 0, 0, 0, 0xFFFFFFFF, false, .single⟩, /- DDR_CH_n_UE_CNT -/
   ⟨0x1000110, [(12, 0x40)], 0, 0, 0, 0, 0, 0, 0, 0xFFFFFFFF, false, .single⟩, /- DDR_CH_n_NRR_CNT -/
   ⟨0x1000114, [(12, 0x40)], 0, 0, 0, 0, 0, 0, 0, 0xFFFFFFFF, false, .single⟩, /- DDR_CH_n_FORCED_CNT -/
   ⟨0x1000118, [(12, 0x40)], 0, 0, 0, 0xFFFFFFFF, 0, 0, 0, 0, false, .lo⟩, /- DDR_CH_n_UE_ADDR_LO -/
   ⟨0x100011C, [(12, 0x40)], 0, 0, 0, 0xFFFFFFFF, 0, 0, 0, 0, false, .hi⟩ /- DDR_CH_n_UE_ADDR_HI -/]

/-- The registers of DDR. -/
def ddr1 : List RegRow := [
   ⟨0x1000120, [(12, 0x40)], 0, 0, 0, 0, 1, 0, 0, 0, false, .single⟩ /- DDR_CH_n_CMD -/]

/-- The registers of BEAVER. -/
def beaver : List RegRow := [
   ⟨0x1100000, [], 0x80000000, 0, 0x80000000, 0, 0, 0, 0, 0, true, .single⟩, /- BEAVER_CTRL -/
   ⟨0x1100004, [], 0, 0, 0, 0xFFFF0003, 0, 0, 0, 0, false, .single⟩, /- BEAVER_STATUS -/
   ⟨0x1100008, [], 0x14, 0, 0x7F, 0, 0, 0, 0, 0, true, .single⟩, /- BEAVER_ARB -/
   ⟨0x110000C, [], 0, 0, 0, 0, 1, 0, 0, 0, false, .single⟩, /- BEAVER_CMD -/
   ⟨0x1100010, [], 0, 0, 0x8000FFFF, 0, 0, 0, 0, 0, true, .single⟩, /- BEAVER_SCHED -/
   ⟨0x1100014, [], 0, 0, 0, 0xFFFFFFFB, 0, 0, 0, 0, false, .single⟩, /- BEAVER_SCHED_STATUS -/
   ⟨0x1100020, [], 0, 0, 0, 0xFFFFFFFF, 0, 0, 0, 0, false, .lo⟩, /- BEAVER_BYTES_LO -/
   ⟨0x1100024, [], 0, 0, 0, 0xFFFFFFFF, 0, 0, 0, 0, false, .hi⟩, /- BEAVER_BYTES_HI -/
   ⟨0x1100100, [(32, 0x40)], 0x800A0000, 0, 0x871FFFFF, 0, 0, 0, 0, 0, true, .single⟩, /- BEAVER_CH_n_CFG -/
   ⟨0x1100104, [(32, 0x40)], 0, 0, 0, 0, 7, 0, 0, 0, false, .single⟩, /- BEAVER_CH_n_CMD -/
   ⟨0x1100108, [(32, 0x40)], 0, 0, 0, 0xFFFF007B, 0, 0, 0, 0, false, .single⟩, /- BEAVER_CH_n_STATUS -/
   ⟨0x110010C, [(32, 0x40)], 0, 0, 0, 0, 0, 0, 0, 0xFFFFFFFF, false, .single⟩, /- BEAVER_CH_n_DONE_CNT -/
   ⟨0x1100110, [(32, 0x40)], 0, 0, 0xFFFFFFFF, 0, 0, 0, 0, 0, false, .lo⟩, /- BEAVER_CH_n_HEAD_LO -/
   ⟨0x1100114, [(32, 0x40)], 0, 0, 0xFFFFFFFF, 0, 0, 0, 0, 0, false, .hi⟩, /- BEAVER_CH_n_HEAD_HI -/
   ⟨0x1100118, [(32, 0x40)], 0, 0, 0, 0xFFFFFFFF, 0, 0, 0, 0, false, .lo⟩, /- BEAVER_CH_n_CUR_LO -/
   ⟨0x110011C, [(32, 0x40)], 0, 0, 0, 0xFFFFFFFF, 0, 0, 0, 0, false, .hi⟩ /- BEAVER_CH_n_CUR_HI -/]

/-- The registers of PCIE. -/
def pcie : List RegRow := [
   ⟨0x1200000, [], 6, 0, 0xC000000F, 0, 0, 0, 0, 0, false, .single⟩, /- PCIE_CTRL -/
   ⟨0x1200004, [], 0, 0, 0, 0xFFFFFFF3, 0, 0, 0, 0, false, .single⟩, /- PCIE_STATUS -/
   ⟨0x1200008, [], 0, 0, 0, 0, 0, 0, 0, 0xFFFFFFFF, false, .single⟩, /- PCIE_CE_CNT -/
   ⟨0x120000C, [], 0, 0, 0, 0, 0, 0, 0, 0xFFFFFFFF, false, .single⟩, /- PCIE_UE_CNT -/
   ⟨0x1200010, [], 0, 0, 0, 0, 0, 0, 0, 0xFFFFFFFF, false, .single⟩ /- PCIE_POISON_CNT -/]

/-- The registers of IFL. -/
def ifl0 : List RegRow := [
   ⟨0x1300000, [], 0, 0, 0x8003FFFF, 0, 0, 0, 0, 0, true, .single⟩, /- IFL_ADDR -/
   ⟨0x1300004, [], 0x141D, 0, 0xFF3F, 0, 0, 0, 0, 0, true, .single⟩, /- IFL_TT -/
   ⟨0x1300008, [], 0xA000014, 0, 0xFF0003FF, 0, 0, 0, 0, 0, true, .single⟩, /- IFL_RING -/
   ⟨0x130000C, [], 0x14, 0, 0x11F, 0x30000, 0, 0, 0, 0, true, .single⟩, /- IFL_MGMT -/
   ⟨0x1300010, [], 0x500, 0, 0xFFFF, 0, 0, 0, 0, 0, true, .single⟩, /- IFL_SCHED_LEAD -/
   ⟨0x1300014, [], 0x700, 0, 0, 0xFFFF0783, 0, 0, 0, 0, false, .single⟩, /- IFL_STATUS -/
   ⟨0x1300018, [], 0, 0, 0, 0xBFF3FFFF, 0, 0, 0, 0, false, .single⟩, /- IFL_GM -/
   ⟨0x1300020, [], 0, 0, 0, 0xFFFFFFFF, 0, 0, 0, 0, false, .lo⟩, /- IFL_TIME_OFFSET_LO -/
   ⟨0x1300024, [], 0, 0, 0, 0xFFFFFFFF, 0, 0, 0, 0, false, .hi⟩, /- IFL_TIME_OFFSET_HI -/
   ⟨0x1300028, [], 0, 0, 0, 0xFFFFFFFF, 0, 0, 0, 0, false, .lo⟩, /- IFL_TIME_DELAY_LO -/
   ⟨0x130002C, [], 0, 0, 0, 0xFFFFFFFF, 0, 0, 0, 0, false, .hi⟩, /- IFL_TIME_DELAY_HI -/
   ⟨0x1300030, [], 0, 0, 0xFFFFFFFF, 0, 0, 0, 0, 0, true, .lo⟩, /- IFL_RX_BASE_LO -/
   ⟨0x1300034, [], 0, 0, 0xFFFFFFFF, 0, 0, 0, 0, 0, true, .hi⟩, /- IFL_RX_BASE_HI -/
   ⟨0x1300038, [], 6, 0, 0xF, 0, 0, 0, 0, 0, true, .single⟩, /- IFL_RX_CFG -/
   ⟨0x130003C, [], 0, 0, 0, 0xFFFFFFFF, 0, 0, 0, 0, false, .single⟩, /- IFL_RX_WR -/
   ⟨0x1300040, [], 0, 0, 0xFFFFFFFF, 0, 0, 0, 0, 0, false, .single⟩, /- IFL_RX_RD -/
   ⟨0x1300044, [], 0, 0, 0, 0, 0, 0, 0, 0xFFFFFFFF, false, .single⟩, /- IFL_RX_LOST -/
   ⟨0x1300048, [], 0, 0, 0xFFFFFFFF, 0, 0, 0, 0, 0, false, .lo⟩, /- IFL_TX_ADDR_LO -/
   ⟨0x130004C, [], 0, 0, 0xFFFFFFFF, 0, 0, 0, 0, 0, false, .hi⟩, /- IFL_TX_ADDR_HI -/
   ⟨0x1300050, [], 0, 0, 0, 0, 1, 0, 0, 0, false, .single⟩ /- IFL_TX_CMD -/]

/-- The registers of IFL. -/
def ifl1 : List RegRow := [
   ⟨0x1300060, [(3, 4)], 0, 0, 0xFFFFFFFF, 0, 0, 0, 0, 0, false, .single⟩, /- IFL_SCHED_TS -/
   ⟨0x130006C, [], 0, 0, 0x3FFFF, 0, 0, 0, 0, 0, false, .single⟩, /- IFL_SCHED_DEST -/
   ⟨0x1300070, [], 0, 0, 0x3FFFF, 0, 0, 0, 0, 0, false, .single⟩, /- IFL_SCHED_MASK -/
   ⟨0x1300074, [], 0, 0, 0, 0, 1, 0, 0, 0, false, .single⟩, /- IFL_SCHED_CMD -/
   ⟨0x1300100, [(3, 0x100)], 0, 0, 0xC0000000, 0, 0, 0, 0, 0, true, .single⟩, /- IFL_x_CFG -/
   ⟨0x1300104, [(3, 0x100)], 0, 0, 0xFFFFFFFF, 0, 0, 0, 0, 0, true, .single⟩, /- IFL_x_ASYM_W -/
   ⟨0x1300108, [(3, 0x100)], 0, 0, 0xFFFFFFFF, 0, 0, 0, 0, 0, true, .single⟩, /- IFL_x_ASYM_E -/
   ⟨0x130010C, [(3, 0x100)], 0, 0, 0, 0, 0x7F, 0, 0, 0, false, .single⟩, /- IFL_x_CMD -/
   ⟨0x1300110, [(3, 0x100)], 0x10, 0, 0, 0xFFFFFFFF, 0, 0, 0, 0, false, .single⟩, /- IFL_x_STATUS -/
   ⟨0x1300114, [(3, 0x100)], 0, 0, 0, 0x8003FFFF, 0, 0, 0, 0, false, .single⟩, /- IFL_x_NBR_W -/
   ⟨0x1300118, [(3, 0x100)], 0, 0, 0, 0x8003FFFF, 0, 0, 0, 0, false, .single⟩, /- IFL_x_NBR_E -/
   ⟨0x130011C, [(3, 0x100)], 0xFFFF, 0, 0, 0xFFFF, 0, 0, 0, 0, false, .single⟩, /- IFL_x_FOLD -/
   ⟨0x1300120, [(3, 0x100)], 0, 0, 0, 0, 0, 0, 0, 0xFFFFFFFF, false, .single⟩, /- IFL_x_ERR_CNT -/
   ⟨0x1300124, [(3, 0x100)], 0, 0, 0, 0, 0, 0, 0, 0xFFFFFFFF, false, .single⟩, /- IFL_x_AUTH_CNT -/
   ⟨0x1300128, [(3, 0x100)], 0, 0, 0, 0, 0, 0, 0, 0xFFFFFFFF, false, .single⟩, /- IFL_x_RATE_CNT -/
   ⟨0x130012C, [(3, 0x100)], 0, 0, 0, 0, 0, 0, 0, 0xFFFFFFFF, false, .single⟩, /- IFL_x_DROP_CNT -/
   ⟨0x1300130, [(3, 0x100)], 0, 0, 0, 0, 0, 0, 0, 0xFFFFFFFF, false, .single⟩ /- IFL_x_TT_REJ -/]

/-- The registers of HEDGE. -/
def hedge0 : List RegRow := [
   ⟨0x1400000, [], 0, 0, 0, 0, 0xFF, 0, 0, 0, false, .single⟩, /- HEDGE_CMD -/
   ⟨0x1400004, [], 0, 0, 0xFFFFFFFF, 0, 0, 0, 0, 0, false, .single⟩, /- HEDGE_ARG -/
   ⟨0x1400008, [], 0, 0, 0xFFFFFFFF, 0, 0, 0, 0, 0, false, .lo⟩, /- HEDGE_ADDR_LO -/
   ⟨0x140000C, [], 0, 0, 0xFFFFFFFF, 0, 0, 0, 0, 0, false, .hi⟩, /- HEDGE_ADDR_HI -/
   ⟨0x1400010, [], 0, 0, 0, 0xFFFFFFE3, 0, 0, 0, 0, false, .single⟩, /- HEDGE_STATUS -/
   ⟨0x1400018, [], 0, 0, 0, 0xFFFFFFFF, 0, 0, 0, 0, false, .lo⟩, /- HEDGE_DEVICE_ID_LO -/
   ⟨0x140001C, [], 0, 0, 0, 0xFFFFFFFF, 0, 0, 0, 0, false, .hi⟩, /- HEDGE_DEVICE_ID_HI -/
   ⟨0x1400020, [], 0, 0, 0, 0xFFFFFF, 0, 0, 0, 0, false, .single⟩, /- HEDGE_CTRS -/
   ⟨0x1400024, [], 0, 0, 0, 0xFFFF, 0, 0, 0, 0, false, .single⟩, /- HEDGE_OWNER -/
   ⟨0x1400028, [], 0, 0, 0, 0xFFFFFFFF, 0, 0, 0, 0, false, .single⟩, /- HEDGE_FW_SVN -/
   ⟨0x140002C, [], 0, 0, 0, 0xFFFFFFFF, 0, 0, 0, 0, false, .single⟩, /- HEDGE_PRG_SVN -/
   ⟨0x1400040, [], 0x11080400, 0, 0x9F1FFFFF, 0, 0, 0, 0, 0, false, .single⟩, /- HEDGE_SEAL_CTRL -/
   ⟨0x1400044, [], 0x64, 0, 0xFFFF, 0, 0, 0, 0, 0, false, .single⟩, /- HEDGE_SEAL_PERIOD -/
   ⟨0x1400048, [], 0, 0, 0xFFFFFFFF, 0, 0, 0, 0, 0, false, .lo⟩, /- HEDGE_SEAL_BASE_LO -/
   ⟨0x140004C, [], 0, 0, 0xFFFFFFFF, 0, 0, 0, 0, 0, false, .hi⟩, /- HEDGE_SEAL_BASE_HI -/
   ⟨0x1400050, [], 0, 0, 0xFFFFFFFF, 0, 0, 0, 0, 0, false, .lo⟩, /- HEDGE_LEAF_BASE_LO -/
   ⟨0x1400054, [], 0, 0, 0xFFFFFFFF, 0, 0, 0, 0, 0, false, .hi⟩, /- HEDGE_LEAF_BASE_HI -/
   ⟨0x140005C, [], 0, 0, 0, 0xFFFFFFFF, 0, 0, 0, 0, false, .single⟩, /- HEDGE_SEAL_STREAM -/
   ⟨0x1400060, [], 0, 0, 0, 0xFFFFFFFF, 0, 0, 0, 0, false, .single⟩, /- HEDGE_SEAL_WR -/
   ⟨0x1400064, [], 0, 0, 0xFFFFFFFF, 0, 0, 0, 0, 0, false, .single⟩ /- HEDGE_SEAL_RD -/]

/-- The registers of HEDGE. -/
def hedge1 : List RegRow := [
   ⟨0x1400068, [], 0, 0, 0, 0xFFFFFF, 0, 0, 0, 0, false, .single⟩, /- HEDGE_LEAF_NEXT -/
   ⟨0x140006C, [], 0, 0, 0, 0, 0, 0, 0, 0xFFFFFFFF, false, .single⟩, /- HEDGE_SEAL_SKIP -/
   ⟨0x1400070, [], 0, 0, 0, 0x1FFF, 0, 0, 0, 0, false, .single⟩ /- HEDGE_SEAL_PEND -/]

/-- The registers of PWR. -/
def pwr : List RegRow := [
   ⟨0x1500000, [], 0, 0, 0, 0xFFFF00FF, 0, 0, 0, 0, false, .single⟩, /- PWR_STATUS -/
   ⟨0x1500004, [], 0, 0, 0, 0x1FF, 0, 0x1FF0000, 0, 0, false, .single⟩, /- PWR_RAIL -/
   ⟨0x1500008, [], 1, 0, 0, 0xF00, 0, 0x1F, 0, 0, false, .single⟩, /- PWR_RESET_CAUSE -/
   ⟨0x150000C, [], 5, 0, 0xFF, 0, 0, 0, 0, 0, false, .single⟩, /- PWR_START -/
   ⟨0x1500020, [(8, 4)], 0, 0, 0, 0xFFFF, 0, 0, 0, 0, false, .single⟩, /- PWR_TEMP -/
   ⟨0x1500040, [], 0, 0, 0, 0xFFFF, 0, 0, 0, 0, false, .single⟩, /- PWR_TEMP_CAL -/
   ⟨0x1500044, [], 0, 0, 0, 0xFFFF, 0, 0, 0, 0, false, .single⟩, /- PWR_TEMP_MAX -/
   ⟨0x1500048, [], 0x695F, 0, 0xFFFF, 0, 0, 0, 0, 0, true, .single⟩, /- PWR_THERM_CFG -/
   ⟨0x1500050, [], 0, 0, 0, 0, 0x3FFFFF, 0, 0, 0, false, .single⟩, /- PWR_SRESET -/
   ⟨0x1500054, [], 0, 0, 0, 0, 1, 0, 0, 0, false, .single⟩, /- PWR_CMD -/
   ⟨0x1500058, [], 0, 0, 0, 0xFFFF, 0, 0, 0, 0, false, .single⟩ /- PWR_POWER -/]

/-- The registers of the block of index `i` (R15); none above 21. -/
def ofBlock : Nat → List RegRow
  | 0 => glb
  | 1 => cfgc
  | 2 => conv
  | 3 => ilv
  | 4 => stag
  | 5 => owl
  | 6 => pulse
  | 7 => fox0 ++ fox1
  | 8 => sdec
  | 9 => lynx
  | 10 => aqs
  | 11 => cap
  | 12 => red
  | 13 => stk
  | 14 => cal
  | 15 => badger
  | 16 => ddr0 ++ ddr1
  | 17 => beaver
  | 18 => pcie
  | 19 => ifl0 ++ ifl1
  | 20 => hedge0 ++ hedge1
  | 21 => pwr
  | _ => []

end RegTable

end Sys2Proof.Machine
end

