-- ==== Sys2Proof/Machine/State.lean ====
section
/-! DEFINITION. The state of the block: every register, FIFO, buffer, counter, latch and mode the spec gives the module, the
model's own counter of open values, and the queue of waiting commands. Plain data throughout. -/
namespace Sys2Proof.Machine

/-- Sparse data by key: (key, value) pairs, keys strictly rising, no pair equal to what an unlisted key reads as. -/
abbrev Store (β : Type) := List (Nat × β)

/-- One island's event crossing into Q (Table 1.5, R35): the 32-entry FIFO, the events whose posting block it holds, and how
many events were lost on it since the last EV_EVENT_LOST. -/
structure Crossing where
  fifo : List Event := []
  held : List Event := []
  lost : Nat := 0
deriving DecidableEq, Repr

/-- How often the contents of a kind of memory became undefined: DRAM (R367), capture SRAM (R365, Table 20.3), STK SRAM and
Badger staging (Table 20.3), the SRAMs of AQS and CFGC. The model's own. -/
structure MemGen where
  dram : Nat := 0
  capture : Nat := 0
  data : Nat := 0
  sram : Nat := 0
deriving DecidableEq, Repr

/-! ### CFGC (chapter 10) -/

/-- A staged register word: its BAR0 offset, the value after its clamps, the sequence number of its write (R272). -/
structure Staged where
  addr : Nat
  val : Word
  seq : Nat
deriving DecidableEq, Repr

/-- A _LO half that waits in CFGC, or at a block that does not sit behind it, for its _HI half (R10). -/
structure HeldHalf where
  req : Requester
  addr : Nat
  val : Word
  seq : Nat
deriving DecidableEq, Repr

/-- A commit that CFGC has taken and not yet handed out: its sequence number and the writes it covers (R274). -/
structure Commit where
  seq : Nat
  words : List Staged
  halves : List HeldHalf
deriving DecidableEq, Repr

/-- A committed word on its way into a unit. -/
structure CfgWord where
  tgt : CfgUnit
  addr : Nat
  val : Word
deriving DecidableEq, Repr

/-- A commit that some units have not applied yet (R275). -/
structure CommitWait where
  seq : Nat
  units : List CfgUnit
  /-- The commit came in a mode transition: it waits for the target mode (R64). -/
  deferred : Bool := false
deriving DecidableEq, Repr

structure Cfgc where
  /-- The staging set, at most 4,096 words (R272). -/
  staged : List Staged := []
  /-- Commits taken and not yet handed out, oldest first, at most 8 (R274). -/
  commits : List Commit := []
  /-- Words handed to units that have not reached their boundary, merged (R275). -/
  parts : List CfgWord := []
  /-- Commits checked in a mode transition: their words wait for the target mode (R64), oldest first. -/
  withMode : List Commit := []
  /-- The pending sets that an arm, START or CLEAR takes (R275). -/
  latched : List CfgWord := []
  waits : List CommitWait := []
  /-- The next value of the sequence counter (R272). -/
  next : Nat := 1
  /-- A report was discarded since CFGC_RPT_LOST was read (R277). -/
  lostNotified : Bool := false
  /-- The report queue's bytes, as the BAR0 window shows them (R277). -/
  rpt : Store Byte := []
  /-- The tables that passed the check of a commit and may be in use (R265): offset and length in table SRAM, and the number
  of the naming field. -/
  tables : List (Nat × Nat × Nat) := []
deriving DecidableEq, Repr

/-! ### AQS (chapter 9) -/

/-- The run states of Table 9.1. -/
inductive RunState
  | stopped
  | running
  | waiting
  | stopping
  | halted
  | faulted
  | brk
  | aborting
deriving DecidableEq, Repr

/-- A watch slot (R249). -/
structure Watch where
  num : BitVec 12 := 0
  cnt : BitVec 8 := 0
  ovr : Bool := false
  sub : BitVec 8 := 0
  arg : Word64 := 0
  ts : TS := 0
deriving DecidableEq, Repr

/-- The event latch (R249). -/
structure EvLatch where
  num : BitVec 12 := 0
  sub : BitVec 8 := 0
  slot : BitVec 4 := 0
  arg : Word64 := 0
  ts : TS := 0
deriving DecidableEq, Repr

/-- The four forms of a fabric access (R237). -/
inductive MemOp
  | ld
  | ldw
  | st
  | stw
deriving DecidableEq, Repr

/-- The instruction a context has in progress beyond its slot. -/
inductive Busy
  | idle
  | csr (addr : Nat) (d : Fin 16)
  | fabric (op : MemOp) (d : Fin 16) (addr : Nat)
  /-- DRAM has served the access; what it read returns to the context. -/
  | answered (op : MemOp) (d : Fin 16) (data : Word64)
  | cfgl (d : Fin 16) (addr : Nat)
  | dmaq (d : Fin 16) (head : Word64) (ch : Fin 32)
  | lyq (d a : Fin 16) (q : Fin 8)
  | waitEv (d : Fin 16) (mask : BitVec 16) (deadline : Option Nat)
  | waitTick (target : Nat)
  | waitCyc (n : Nat)
deriving DecidableEq, Repr

/-- A context's own state (R232) with its fault registers. -/
structure Ctx where
  run : RunState := .stopped
  /-- Started by STEP: it stops after one instruction (R254). -/
  single : Bool := false
  pc : BitVec 19 := 0
  g : Vector Word64 16 := Vector.replicate 16 0
  z : Bool := false
  n : Bool := false
  c : Bool := false
  v : Bool := false
  stack : List (BitVec 19) := []
  watch : Vector Watch 16 := Vector.replicate 16 {}
  latch : EvLatch := {}
  busy : Busy := .idle
  /-- The PC of a posted write that timed out while an instruction was in progress (R242). -/
  late : Option (BitVec 19) := none
  code : BitVec 16 := 0
  faultPc : BitVec 19 := 0
deriving DecidableEq, Repr

/-- A posted register write in flight (R242). -/
structure Posted where
  ctx : Fin 8
  addr : Nat
  val : Word
  pc : BitVec 19
deriving DecidableEq, Repr

structure Aqs where
  ctxs : Vector Ctx 8 := Vector.replicate 8 {}
  posted : List Posted := []
  /-- Requests on the register bus that have reached its age threshold, oldest first: context and block (R38). -/
  urgent : List (Fin 8 × Nat) := []
  /-- AQS_CYCLE: Q cycles since power-on or MOD_RST_N (Table 9.11). -/
  cycle : Word64 := 0
  /-- The tick copy (R247). -/
  tick : Word64 := 0
  /-- Program SRAM holds an image that HEDGE verified since it was last written (R255, R262). -/
  verified : Bool := false
deriving DecidableEq, Repr

/-! ### Host interface (chapter 17) -/

/-- One entry of the MSI-X table. -/
structure Msix where
  addr : Word64 := 0
  data : Word := 0
  masked : Bool := true
deriving DecidableEq, Repr

/-- A memory request that PCIE formed for BEAVER or BADGER (R414), at its host address. `open'` names the channel whose whole bursts
a contiguous next one may still join. -/
structure HostReq where
  write : Bool
  addr : Nat
  len : Nat
  open' : Option (Fin 32) := none
  noSnoop : Bool := false
  relaxed : Bool := false
deriving DecidableEq, Repr

structure HostIf where
  /-- The event queue's bytes, as the BAR0 window shows them (R415). -/
  evq : Store Byte := []
  /-- Entries appended since power-on, discarded ones included (Table 17.3, SEQ). -/
  seq : Word := 0
  /-- The next entry written carries GAP (R416). -/
  gap : Bool := false
  /-- The latches of disarmed vectors (R418). -/
  latch : Word64 := 0
  msix : Vector Msix 64 := Vector.replicate 64 {}
  /-- The pending-bit array (R418). -/
  pba : Word64 := 0
  /-- MSI-X enable and function mask, Bus Master Enable, Relaxed Ordering enable, Max Payload Size and Max Read Request Size of
  configuration space (R405, R407, R414). -/
  msixEn : Bool := false
  funcMask : Bool := false
  busMaster : Bool := false
  relaxed : Bool := false
  mps : Nat := 128
  mrrs : Nat := 512
  /-- PERST_N is asserted, and the PCIe reference is present (R30). -/
  perst : Bool := true
  refPresent : Bool := true
  /-- AER status registers, correctable and uncorrectable (R405). -/
  aerCor : Word := 0
  aerUncor : Word := 0
  /-- A host fault was reported since GLB_BAD_ADDR_LO was read (R411). -/
  faultNotified : Bool := false
  /-- The data of the latest completion to the host, and whether it was poisoned (R411, R413). -/
  completion : List Byte := []
  poisoned : Bool := false
  /-- MSI-X messages issued, newest first: address and data (R418). -/
  messages : List (Word64 × Word) := []
  /-- Memory requests issued into host space, newest first (R414). -/
  requests : List HostReq := []
  /-- What the module wrote into host memory. -/
  mem : Store Byte := []
deriving DecidableEq, Repr

/-! ### Modes (chapter 2) -/

/-- A mode transition in progress (R52 to R55): the units that must still reach OFF, and whether FOX arms when the wake
ends (R51). -/
structure ModeSt where
  leaving : List UnitId := []
  wake : Bool := false
  /-- TS of the waking trigger. -/
  wakeTS : TS := 0
  /-- The request is CAL's own, for a procedure (R60). -/
  forCal : Bool := false
deriving DecidableEq, Repr

/-! ### STAG (chapter 4) -/

structure Stag where
  /-- Timebase time at the latest tick (R102, R108). -/
  now : TS := 0
  /-- The count starts at the next tick; it has started (R108). -/
  starting : Bool := false
  counting : Bool := false
  /-- The remainder of a slew, × 2^−32 × 10^−7 tick (R105). -/
  slewRem : Int := 0
  /-- The grid's origin, moved by steps, × 2^−32 tick (R106, R111). -/
  origin : Int := 0
  /-- A count load waiting for the next tick (R108). -/
  load : Option Word64 := none
  /-- A SNAP step waiting for its tick (R106). -/
  snap : Option Int := none
  /-- A band search is running, and whether it follows a loss of lock (R113, R116). -/
  searching : Bool := false
  /-- From an EV_SL_UNLOCK detection point until the islands return from BYCLK (R146). -/
  lost : Bool := false
  /-- A lock was reached at least once (free run otherwise, Table 4.1). -/
  everLocked : Bool := false
  /-- T runs on BYCLK since the timebase loop failed, until it locks again (R117). -/
  tFallback : Bool := false
deriving DecidableEq, Repr

/-! ### CONV and ILV (chapter 3) -/

/-- A swap waiting for its application point (R90, R91) in the trim set of an arrangement: the slot to retire, or 63 to return
the spare. -/
structure Swap where
  bank : Fin 4
  slot : Nat
  set : Nat
deriving DecidableEq, Repr

/-- What the estimator has seen of one physical sub-converter: the code it delivered last and how many times in a row, and how
often each code came in the window in progress (R88). -/
structure EstSub where
  last : Option Int := none
  run : Nat := 0
  hits : List (Int × Nat) := []
deriving DecidableEq, Repr

/-- The last sample of an input's latest vector, which waits for its later neighbour (R84): the sub-converter that took it, its
code, whether it or its earlier neighbour was overranged, and whether it was. -/
structure EstTail where
  key : Fin 132
  code : Int
  skip : Bool
  ovr : Bool
deriving DecidableEq, Repr

structure Conv where
  /-- The next sample index each input's vector must start at; none before the first (R111). -/
  next : Vector (Option Int) 4 := Vector.replicate 4 none
  /-- Proposals staged for the next application point (R86). -/
  proposals : List TrimProp := []
  swaps : List Swap := []
  /-- The arrangement whose trim set the staging registers address (R79). -/
  addressed : Fin 3 := 0
  /-- A trim change holds until the first vector under a new lock or mode (R81, R83). -/
  hold : Bool := false
  /-- Words of the set in use that a restored image or bundle brings at the next application point (R82, R335). -/
  calSet : List (Nat × Word) := []
  /-- The slot each bank's spare shadows, and the conversions it has shadowed so far (R76, R90). -/
  shadow : Vector (Option (Nat × Nat)) 4 := Vector.replicate 4 none
  /-- Conversions of each sub-converter in the estimator window in progress (R84). -/
  window : Nat := 0
  /-- What the estimator saw of physical sub-converter k of bank b, at b × 33 + k (R88). -/
  est : Vector EstSub 132 := Vector.replicate 132 {}
  estTail : Vector (Option EstTail) 4 := Vector.replicate 4 none
  /-- Whether each bank's spare was SLOW and FAILED in the latest window that classified it (R88). -/
  spareWas : Vector (Bool × Bool) 4 := Vector.replicate 4 (false, false)
  /-- Per arrangement, the banks whose trims in effect a procedure or an image changed while no vector was converted: their
  EV_TRIM_APPLIED comes with the first vector under them (R83). -/
  owed : Vector (BitVec 4) 3 := Vector.replicate 3 0
deriving DecidableEq, Repr

/-! ### CAP (chapter 7) -/

/-- An entry of a stream block's trigger list (Table 7.8). -/
structure TrigEntry where
  index : Nat
  frac : Nat
  source : Nat
  seq : Nat
deriving DecidableEq, Repr

/-- What a unit of capture is (Table 7.2). -/
inductive CapKind
  | record
  | segment
  | block
deriving DecidableEq, Repr

/-- A capture plan entry (Table 7.3). -/
structure PlanEntry where
  ctrl : Nat := 0
  pre : Nat := 0
  post : Nat := 0
  bodyBase : Nat := 0
  bodyStride : Nat := 0
  inStride : Nat := 0
  hdrBase : Nat := 0
  count : Nat := 0
  next : Nat := 0xFFFF
  tmax : Nat := 0
  tbase : Nat := 0
deriving DecidableEq, Repr

/-- A unit of capture, from its trigger to its header write (R174 to R199). -/
structure CapUnit where
  kind : CapKind
  mode : Nat
  arr : Nat
  inputs : List Nat
  entry : Nat
  slot : Nat
  index : Nat
  acq : Nat
  source : Nat
  /-- Stored-sample number of body sample 0 in every partition. -/
  start : Nat
  /-- Grid index of the sample that TS_FIRST names. -/
  startK : Int
  pre : Nat
  preReq : Nat
  /-- PRE + POST still required, samples per input. -/
  need : Nat
  samples : Nat := 0
  flags : Nat := 0
  tsFirst : TS
  tsTrig : TS := 0
  trigIndex : Nat := 2 ^ 64 - 1
  trigFrac : Nat := 0
  lost : Nat := 0
  lastGood : Option Nat := none
  stepIndex : Option Nat := none
  stepSize : Int := 0
  stepCount : Nat := 0
  bodyAddr : Nat
  inStride : Nat
  hdrAddr : Nat
  tlistAddr : Nat := 0
  tlistMax : Nat := 0
  tlist : List TrigEntry := []
  dropped : Nat := 0
  slDiv : Word
  calCount : Nat
  decim : Nat := 1
  leaf : Nat := 0
  hold : Bool := false
  keep : Bool := true
  closed : Bool := false
  bursts : Nat := 0
  /-- The stream's last block (R192, R194). -/
  final : Bool := false
  /-- COUNT of the entry: the slots of the ring (R194). -/
  ringCount : Nat := 0
  /-- Stored numbers that no sample of the unit has: an arm began a new P10 block while the unit was open (R171). -/
  skips : List (Nat × Nat) := []
  /-- NODE and SEAL, fixed as the unit closes (R176). -/
  node : Nat := 0
  sealW : Nat := 0
  /-- The sample grid has been laid anew since: no later trigger lies in the unit (R110, R113). -/
  past : Bool := false
deriving DecidableEq, Repr

/-- What the acquisition header sums up over the segments (R191), and what the arm gives it. -/
structure AcqAcc where
  active : Bool := false
  ending : Bool := false
  num : Nat := 0
  arr : Nat := 0
  inputs : List Nat := []
  entry : Nat := 0
  slDiv : Word := 0
  calCount : Nat := 0
  hdrAddr : Nat := 0
  /-- CAP_ACQ_HDR names memory that can hold the header. -/
  hdrOk : Bool := true
  segments : Nat := 0
  flags : Nat := 0
  samples : Nat := 0
  lost : Nat := 0
  steps : Nat := 0
  first : Option CapUnit := none
  /-- The last segment's header address, and whether its EV_SEG_DONE was posted (R192). -/
  lastHdr : Nat := 0
  lastSaid : Bool := true
deriving DecidableEq, Repr

structure Cap where
  /-- The arm that capture runs on: mode, arrangement, stored inputs, plan table offset and entries (R170, R181, R185). -/
  armed : Bool := false
  mode : Nat := 0
  arr : Nat := 0
  inputs : List Nat := []
  /-- The stored inputs of an arm that came while a unit with other inputs was open: they are stored from that unit's close on
  (R170, R174; log 144). -/
  nextInputs : Option (List Nat) := none
  planOff : Nat := 0
  /-- The entries of the arm's plan (R185). -/
  entries : List PlanEntry := []
  planOk : Bool := false
  exhausted : Bool := true
  /-- The start entry of the arm. -/
  startEntry : Nat := 0
  /-- A slot has been used since reset and since the last commit of CAP_PLAN (R181). -/
  resumable : Bool := false
  /-- The committed plan and the one committed before it (R183): offset and start entry. -/
  plan : Option (Nat × Nat) := none
  lastPlan : Option (Nat × Nat) := none
  /-- Samples stored per input since the arm; all stored inputs move together (R522). -/
  stored : Vector Nat 4 := Vector.replicate 4 0
  /-- The stored number and grid index at which the present gapless run began. -/
  runStored : Nat := 0
  runGrid : Int := 0
  /-- Native samples per stored sample in the present run: 1, or DECIM in FINE (R195). -/
  runDecim : Nat := 1
  /-- The next vector stored begins a new run. -/
  newRun : Bool := true
  /-- The stored number from which pretrigger fill counts (R143). -/
  fillFrom : Nat := 0
  unit : Option CapUnit := none
  /-- Closed units whose body or header is not yet written, oldest first. -/
  moving : List CapUnit := []
  held : Option CapUnit := none
  /-- Held records whose header is not yet written (R178), oldest first. -/
  heads : List CapUnit := []
  acq : AcqAcc := {}
  /-- Acquisitions that have ended and whose header is not yet written, oldest first. -/
  ended : List AcqAcc := []
  /-- Header addresses written since reset (R177). -/
  written : List Nat := []
  /-- Capture SRAM is full: whole vectors are dropped (R196). -/
  full : Bool := false
  /-- Samples per input in the present overflow gap. -/
  gap : Nat := 0
  /-- The grid index at which the post-trigger count of a unit that overflowed ends: a drain lasts until then (R66). -/
  tail : Option Int := none
  /-- LOST and OVERFLOW that the next stream block takes (R196). -/
  pendLost : Nat := 0
  pendDrop : Nat := 0
  records : Nat := 0
  blocks : Nat := 0
  trigSeq : Nat := 0
  /-- A stream block must begin at the next vector (R193, R198). -/
  needBlock : Bool := false
  /-- 4 MiB are free again: CAP resumes at the next span of vectors (R196). -/
  resume : Bool := false
  /-- An overflow closed the unit last moved, and no vector has come since (R197). -/
  justFull : Bool := false
  /-- The header address of the stream's latest block written, and whether its EV_BLOCK_DONE was posted (R192). -/
  blkHdr : Nat := 0
  blkSaid : Bool := true
  /-- The calibration count from a stored number on, newest first (Table 7.5). -/
  cals : List (Nat × Nat) := []
  /-- Stretches of stored samples that meet a flag's condition (Table 7.6): first and last stored number, flag bits. -/
  marks : List (Nat × Nat × Nat) := []
  /-- Steps of the timebase: the first stored sample after each, and its size (R106, R188). -/
  steps : List (Nat × Int) := []
deriving DecidableEq, Repr

/-! ### Sealing (R477 to R481) -/

/-- A leaf waiting to be hashed: what HEDGE reads, or the code of R480 when it cannot be hashed. -/
structure Leaf where
  num : Nat
  /-- The seal stream it belongs to, and whether it is that stream's last leaf (R478, Table 19.7). -/
  stream : Nat
  final : Bool := false
  ty : Nat
  hdrAddr : Nat
  hdrLen : Nat
  bodyAddr : Nat
  inStride : Nat
  inputs : Nat
  samples : Nat
  tlistAddr : Nat
  ntrig : Nat
  hold : Bool
  part : Nat
  written : Bool
  code : Nat
  /-- The leaf value, once it is known and until its turn comes (R481). -/
  value : List Byte := []
deriving DecidableEq, Repr

/-- A leaf value written and not yet sealed: its stream and leaf number, 64 bytes, whether it carries a code in place of a
digest, and whether it is its stream's last (R480, R481). -/
structure LeafValue where
  stream : Nat
  num : Nat
  value : List Byte
  coded : Bool
  final : Bool
deriving DecidableEq, Repr

structure Seal where
  /-- SEAL_CTRL as the last arm took it (R477, R481). -/
  on : Bool := false
  leafLog : Nat := 17
  ringLog : Nat := 4
  batch : Nat := 1024
  /-- The boot store's stream counter (R478). -/
  streams : Nat := 0
  waiting : List Leaf := []
  /-- Leaf values written and not yet sealed, oldest first. -/
  ready : List LeafValue := []
  /-- A decision to seal: how many leaves, and whether it is the stream's last (R481, Table 19.7). -/
  decided : Option (Nat × Bool × TS × Nat) := none
  prev : List Byte := []
  skipNotified : Bool := false
  /-- How many of the leaves not yet sealed belong to arms that have ended: the hash of the last of them decides a seal (R481). -/
  mark : Nat := 0
  /-- SEAL_FLUSH was given (R481). -/
  flush : Bool := false
  /-- Leaf 2^24 − 1 was taken: the next arm begins a new stream (R478). -/
  wrapped : Bool := false
deriving DecidableEq, Repr

/-! ### FOX (chapter 5) -/

/-- The history of one level (R121): whether the next crossing in each direction counts. -/
structure LevelHist where
  rise : Bool := true
  fall : Bool := true
deriving DecidableEq, Repr

/-- An instant FOX has found: the grid index of its triggering sample, its timestamp, and the position index and fraction
of R134. -/
structure Instant where
  k : Int
  ts : Nat
  pos : Int
  frac : Nat
deriving DecidableEq, Repr

/-- What an event unit carries from vector to vector (Table 5.1, R121, R123, R125). -/
structure EventUnit where
  upper : LevelHist := {}
  lower : LevelHist := {}
  /-- A pattern's levels and latches. -/
  pat : Vector LevelHist 4 := Vector.replicate 4 {}
  latch : Vector Bool 4 := Vector.replicate 4 false
  /-- The crossings that a pulse, runt or transition in progress began with. -/
  upRise : Option Instant := none
  upFall : Option Instant := none
  loRise : Option Instant := none
  loFall : Option Instant := none
  /-- Inside the window, or pattern true; since when; and whether since the first sample examined. -/
  state : Bool := false
  since : Option Instant := none
  sinceFirst : Bool := false
  /-- A TIMEOUT's reference instant; whether the duration has already yielded its candidate. -/
  ref : Option Instant := none
  fired : Bool := false
  /-- A sample has been examined since the arm or restart. -/
  started : Bool := false
deriving DecidableEq, Repr

/-- A candidate waiting for the decision stage (R128): its source code of Table 7.5, its instant, whether the qualifier
already holds, and the kind of source for TRIGOUT's reference instant (R147). -/
structure Cand where
  source : Nat
  at' : Instant
  qualOk : Bool
  sampled : Bool
  /-- The input the source watches, whose vector limits it to one candidate; 4 for none, when the C cycle does (R127, R164). -/
  watch : Nat
deriving DecidableEq, Repr

/-- TRIGOUT's drive (R147 to R151): an edge still to come, and the active period. -/
structure TrigOut where
  /-- Edges still to come and the ends of their active periods, × 2^−32 tick. -/
  edges : List (Nat × Nat) := []
  active : Bool := false
  endAt : Nat := 0
  /-- FOX_TRIGOUT in force: a change waits for the end of an active period (R151). -/
  cfg : Word := 4
deriving DecidableEq, Repr

/-- A request that FOX takes at the next boundary between spans of vectors (R522). -/
inductive FoxAct
  | arm
  | disarm
  | force
deriving DecidableEq, Repr

structure Fox where
  a : EventUnit := {}
  b : EventUnit := {}
  cands : List Cand := []
  /-- The open sequence: A's instant and the B events counted (R131). -/
  seqAt : Option Nat := none
  seqCount : Nat := 0
  /-- Holdoff in progress (R132). -/
  holdUntil : Option Nat := none
  holdCount : Nat := 0
  /-- The busy interval, and the grid index of the first sample after it once the open unit's end is known (R144). -/
  busy : Bool := false
  busyEnd : Option Int := none
  /-- A software request that reaches FOX with the next vector, and one held pending (R140). -/
  swNow : Bool := false
  /-- First EV_TRIG, EV_TRIG_EARLY and EV_TRIG_MISSED since the arm were posted (R142). -/
  saidTrig : Bool := false
  saidEarly : Bool := false
  saidMissed : Bool := false
  trigout : TrigOut := {}
  /-- The latest grid index at which the qualifier's requirements did not hold (R129). -/
  lastBad : Option Int := none
  /-- The kernel in effect fell back to CUBIC (R135). -/
  cubic : Bool := false
  /-- OWL trip states as latched in C (R126). -/
  owl : BitVec 8 := 0
  /-- Each input's latest vector, with four samples before it and four after it. -/
  vec : Vector (List Int) 4 := Vector.replicate 4 []
  vecK : Int := 0
  /-- Requests that came inside a span of vectors, oldest first (R522). -/
  due : List FoxAct := []
  /-- Scheduled triggers that wait for their vector (R139). -/
  sched : List Nat := []
  /-- Events of the units on OWL sources that wait for the vector of their triggering sample: whether unit B's (R129, R131). -/
  owlEvs : List (Bool × Instant) := []
  /-- Per source and watched input, the vector or C cycle that has given its candidate (R127). -/
  seen : List (Nat × Nat × Int) := []
deriving DecidableEq, Repr

/-! ### SDEC (chapter 6) -/

/-- What bit recovery and protocol decoding find on a decoder's lines (R157 to R161): a character, words, a condition, an address
or data byte, a CAN identifier or data byte, a symbol or block (none: in error); the end of a frame without error; an error bitmap
of Table 6.4; alignment gained or lost; a clock faster than Table 6.2 allows. -/
inductive SdecItem
  | char (v : Nat)
  | word (a : Nat) (b : Option Nat)
  | cond (c : Nat)
  | addr (v : Nat)
  | data (b : Nat)
  | canId (v : Nat)
  | canByte (b : Nat)
  | symbol (v : Option Nat) (raw : Nat)
  | block (v : Option (Nat × Nat))
  | tooFast
  | frameEnd
  | error (bits : Nat)
  | align (on : Bool)
deriving DecidableEq, Repr

/-- One line of a decoder (R154, R155): its logic state, the state before the latest change and the TS of the sample that showed
the change, and the history of its level. -/
structure SdecLine where
  level : Bool := false
  prev : Bool := false
  seen : Nat := 0
  hist : LevelHist := {}
deriving DecidableEq, Repr

/-- UART (R157): since when the line is high, whether the stop bits before were good, the start edge of the character in progress,
the bit decided next, data bits so far, 1 bits so far, and a parity error. -/
structure UartRx where
  since : Nat := 0
  ready : Bool := false
  start : Option Nat := none
  bit : Nat := 0
  data : Nat := 0
  ones : Nat := 0
  perr : Bool := false
deriving DecidableEq, Repr

/-- SPI (R158, R160): whether words are framed, since when SCLK rests at its idle level, and the words in progress. -/
structure SpiRx where
  /-- The latest sampling edge of SCLK, for its rate (R160). -/
  clk : Option Nat := none
  framed : Bool := false
  idleAt : Option Nat := none
  count : Nat := 0
  a : Nat := 0
  b : Nat := 0
deriving DecidableEq, Repr

/-- A change of an I²C line that the pulse filter has not passed yet. -/
structure I2cPend where
  ts : Nat
  seen : Nat
  at' : Instant
  level : Bool
deriving DecidableEq, Repr

/-- I²C (R158, R161): the filtered lines, SDA before its latest change and when that was seen, changes in the filter, the short
filter; bus busy, in a transfer, repeated START; bits of the byte so far, whether the last one stands in the present SCL high, the
byte's value; what the byte is (0 address, 1 second address byte, 2 data), whether the byte to acknowledge was an address, and the
10-bit address of the preceding transfer. -/
structure I2cRx where
  scl : Bool := true
  sda : Bool := true
  sdaPrev : Bool := true
  sdaSeen : Nat := 0
  pend0 : Option I2cPend := none
  pend1 : Option I2cPend := none
  short : Bool := false
  busy : Bool := false
  within : Bool := false
  again : Bool := false
  bits : Nat := 0
  tent : Bool := false
  acc : Nat := 0
  kind : Nat := 0
  isAddr : Bool := false
  high : Nat := 0
  saved : Option Nat := none
  /-- The latest rise of SCL, for its rate (R160). -/
  clk : Option Nat := none
deriving DecidableEq, Repr

/-- Where a CAN decoder is in the bit stream (ISO 11898-1). -/
inductive CanStage
  | integrate | idle | sof | ident | srr | ide | ext | rtr | fdf | r0 | res | brs | esi | dlc | data | crcFd | crc | delim | ack
  | ackDelim | eof | space
deriving DecidableEq, Repr

/-- CAN (R157): where the current bit begins, its phase, the value at the last sample point, whether an edge was used since; the
stage with its bits so far (`n`) and their value; ID_CTRL so far, the run of equal bits, stuff bits so far and the three CRCs. -/
structure CanRx where
  start : Nat := 0
  fast : Bool := false
  last : Bool := true
  used : Bool := false
  stage : CanStage := .integrate
  n : Nat := 0
  acc : Nat := 0
  ctl : Nat := 0
  run : Nat := 0
  stuffs : Nat := 0
  crc15 : BitVec 15 := 0
  crc17 : BitVec 17 := 0
  crc21 : BitVec 21 := 0
deriving DecidableEq, Repr

/-- 8b/10b (R160): the last ten bits and how many there are, alignment, bits since the last group, running disparity (true:
positive), and which of the last sixteen symbols were CODE errors. -/
structure SymRx where
  sh : Nat := 0
  got : Nat := 0
  aligned : Bool := false
  cnt : Nat := 0
  rd : Bool := false
  bad : List Bool := []
deriving DecidableEq, Repr

/-- 64b/66b (R160): the bit of the block, its header, its payload so far, a block type error; the descrambler, newest bit lowest;
valid headers in a row, block lock, the blocks and invalid headers of the window, and a bit to slip. -/
structure BlkRx where
  n : Nat := 0
  h0 : Bool := false
  h1 : Bool := false
  pay : Nat := 0
  badType : Bool := false
  hist : BitVec 58 := 0
  good : Nat := 0
  locked : Bool := false
  wn : Nat := 0
  winv : Nat := 0
  slip : Bool := false
deriving DecidableEq, Repr

structure Sdec where
  /-- Characters, symbols with their raw groups, or blocks since synchronisation, newest first, none where in error (the sliding
  fields of Table 6.3). -/
  recent : List (Option (Nat × Nat)) := []
  /-- The line's clock proved faster than Table 6.2 allows: nothing is decoded until the next check (R160). -/
  fast : Bool := false
  /-- The address and data bytes of the transfer or frame in progress. -/
  addr : Option Nat := none
  bytes : List Nat := []
  /-- The first sample has been examined, and the lines. -/
  started : Bool := false
  lines : Vector SdecLine 4 := Vector.replicate 4 {}
  /-- Bit recovery and framing by protocol. -/
  uart : UartRx := {}
  spi : SpiRx := {}
  i2c : I2cRx := {}
  can : CanRx := {}
  sym : SymRx := {}
  blk : BlkRx := {}
deriving DecidableEq, Repr

/-! ### RED and STK (chapter 8) -/

/-- A finished RED block waiting for its destination (R218). -/
structure RedBlock where
  pipe : Nat
  bytes : List Byte
  natives : Nat
  last : Bool
deriving DecidableEq, Repr

/-- An output value of a pipe that waits in its open block (X24), whether it saturated, its newest and its oldest native input,
its instant (R208), the flags of the native inputs it uses and the calibration count at the oldest (Table 8.5). -/
structure RedOut where
  v : Int
  sat : Bool
  k : Int
  first : Int
  ts : Int
  flags : Nat
  cal : Nat
deriving DecidableEq, Repr

structure RedPipe where
  /-- The pipe's history is open: live from the arm's first vector, MEM from START. -/
  running : Bool := false
  /-- Inputs of FIR1, of FIR2 and of the group step inside the history, newest first (X24), and the outputs of the open
  block, newest first. -/
  h1 : List Int := []
  h2 : List Int := []
  grp : List Int := []
  vals : List RedOut := []
  /-- Flags met by native inputs of the history, each with the newest output time that such an input still reaches. -/
  seen : List (Nat × Int) := []
  /-- The calibration count from a native index on, newest first (Table 8.5). -/
  cals : List (Int × Nat) := []
  /-- Steps of the timebase since the arm: the first native index after each, and its size (R106). -/
  steps : List (Int × Int) := []
  /-- FINE: the stored numbers of saturated values in blocks not yet closed (R219, R220). -/
  fineSat : List Nat := []
  /-- Finished blocks waiting for their destination, at most two (R218). -/
  ready : List RedBlock := []
  index : Nat := 0
  lostSince : Nat := 0
  saidDiscard : Bool := false
  /-- A MEM job: samples read, and TS, SL_DIV, arrangement, flags and calibration count of its source. -/
  memK : Nat := 0
  memTS : Nat := 0
  memDiv : Word := 0
  memArr : Nat := 0
  memFlags : Nat := 0
  memCal : Nat := 0
deriving DecidableEq, Repr

structure Stk where
  len : Option Nat := none
  pre : Nat := 0
  flags : Nat := 0
  tsTrig : TS := 0
  sumSat : Nat := 0
  histSat : Nat := 0
  satFirst : Option Nat := none
  cols : Nat := 0
  acq : Nat := 0
  inmask : Nat := 0
  arr : Nat := 0
  clearing : Bool := false
  clearReq : Bool := false
  /-- The acquisition being folded. -/
  fold : Option CapUnit := none
  saidReject : Bool := false
  spillInvalid : Bool := false
deriving DecidableEq, Repr

/-! ### LYNX (chapter 11) -/

/-- An interpolator's latest calibration (R285). -/
structure Interp where
  gain : Int := 0
  zero : Int := 0
  ready : Bool := false
deriving DecidableEq, Repr

/-- A stamp on its way into a measurement: its TS, the sum of the timebase's steps since START that precede it (R296), the tick edge at
or after its edge, how many edges the prescaler passed before it (R292), its direction. -/
structure LynxStamp where
  ts : Nat
  steps : Int
  edge : Nat
  prior : Nat
  rising : Bool
deriving DecidableEq, Repr

structure LynxIn where
  ip : Vector Interp 2 := Vector.replicate 2 {}
  fails : Nat := 0
  /-- A measurement is open from this tick edge on; 0 before the first since START. -/
  measuring : Bool := false
  start : Nat := 0
  /-- Selected edges of the measurement (R282), and edges that the prescaler passed since START (R292). -/
  edges : Nat := 0
  passed : Nat := 0
  /-- The last edge stamped, by the tick count as it is now (R283). -/
  lastStamp : Option Int := none
  /-- First and last stamps of the measurement, and how many. -/
  first : Option LynxStamp := none
  last : Option LynxStamp := none
  stamps : Nat := 0
  /-- The sum of the timebase's steps since START; a step since the last stamp; one inside the measurement (R296). -/
  steps : Int := 0
  stepMark : Bool := false
  stepIn : Bool := false
  unref : Bool := false
  slew : Bool := false
  /-- An entry was lost since the last one queued; a loss was reported since LYNX_n_LOST was read (R293). -/
  gap : Bool := false
  lostNotified : Bool := false
  queue : List (Word64 × Word64) := []
  /-- Triggers of FOX on their way over the C-to-T crossing, in the order of their instants, each with the steps before it (R281). -/
  inbox : List (Nat × Int) := []
deriving DecidableEq, Repr

/-- The EXTTRIG stamper (R298): its interpolators, the epoch in progress, the last edge stamped. -/
structure ExtStamper where
  ip : Vector Interp 2 := Vector.replicate 2 {}
  active : Fin 2 := 0
  fails : Nat := 0
  measuring : Bool := false
  start : Nat := 0
  lastStamp : Option Int := none
deriving DecidableEq, Repr

/-! ### OWL and PULSE (chapter 12) -/

/-- A window monitor: its latches (none while undecided), what it waits for, and how it is seeded (R306 to R310). -/
structure OwlMon where
  upper : Option Bool := none
  lower : Option Bool := none
  /-- A seeding, a readback, is requested and not yet done. -/
  wantSeed : Bool := false
  wantRb : Bool := false
  /-- The seeding was asked for by SEED, which waits for a spare that serves a slot (R309). -/
  byCommand : Bool := false
  /-- Seeding is unavailable: the latches wait for a crossing (R308). -/
  crossOnly : Bool := false
  /-- What SEED showed before the seeding in progress; it shows that again when the seeding ends without a reading. -/
  seedBefore : Nat := 0
deriving DecidableEq, Repr

/-- What the spare of a bank measures for OWL: the monitor, and whether it seeds (R75). -/
structure OwlService where
  mon : Fin 8
  seed : Bool
deriving DecidableEq, Repr

/-- A pulse unit: an active period, its mode as fired, pulses still to come of a train, and commands that wait for a tick. -/
structure PulseUnit where
  active : Bool := false
  mode : Nat := 0
  left : Nat := 0
  endless : Bool := false
  fireDue : Bool := false
  clearDue : Bool := false
deriving DecidableEq, Repr

/-! ### DDR (chapter 15) -/

structure DdrCh where
  /-- Requests in order of arrival, at most 64. -/
  queue : List DdrReq := []
  /-- Refreshes postponed, and precharge power-down, by rank (R371, R375). -/
  postponed : Vector Nat 2 := Vector.replicate 2 0
  pd : Vector Bool 2 := Vector.replicate 2 false
  /-- Open rows: (rank, subchannel, bank) and row (R369). -/
  rows : List ((Nat × Nat × Nat) × Nat) := []
  /-- A Class D request arrived within the last 1 µs (R371). -/
  classD : Bool := false
  /-- Bursts that every read reports as uncorrectable (R380). -/
  poison : List Nat := []
  /-- A corrected error was reported since CE_CNT was read (R379). -/
  ceSaid : Bool := false
  /-- DRAM temperature: 0 up to 85 °C, 1 above, 2 above 95 °C (R372). -/
  temp : Fin 3 := 0
deriving DecidableEq, Repr

structure Ddr where
  /-- Bytes of DRAM that the stripe in use maps (R268), the installed DRAM for R39. -/
  span : Nat := 0
  /-- The stripe table in effect, by its offset in table SRAM; none is the built-in stripe (R366). -/
  table : Option Nat := none
  chans : Vector DdrCh 12 := Vector.replicate 12 {}
  /-- A training runs on these channels. -/
  training : Option (BitVec 12) := none
  /-- The latest read returned to a requester, and whether it is marked poisoned (R380). -/
  out : List Byte := []
  outPoisoned : Bool := false
deriving DecidableEq, Repr

/-! ### BADGER (chapter 14) -/

/-- A block waiting for a lane or in one (R351 to R353): op 0 COMPRESS, 1 DECOMPRESS, 2 CHECK. -/
structure BadgerJob where
  src : JobSrc
  op : Nat := 0
  level : Nat := 0
  xform : Nat := 0
  blkLog : Nat := 12
  tag : Nat := 0
  from' : Nat := 0
  len : Nat := 0
  dst : Nat := 0
  dstCap : Nat := 0
  ev : Bool := false
  /-- The descriptor's control word as it was fetched. -/
  ctrl : Nat := 0
  chan : Nat := 0
  /-- BADGER_CTRL.MIN_SAVE when a lane took the block (R357). -/
  minSave : Nat := 1
  /-- The input, once a lane has read it. -/
  bytes : List Byte := []
deriving DecidableEq, Repr

/-- A finished job that waits for its turn: its code, output, original's CRC and error offset where there are any. -/
structure BadgerResult where
  job : BadgerJob
  code : Nat
  out : List Byte
  crc : Option Nat
  errOff : Option Nat
deriving DecidableEq, Repr

/-- A result in the output queue, waiting for its BEAVER channel (R349, R350). -/
structure BadgerOut where
  pipe : Fin 4
  chan : Nat
  bytes : List Byte
deriving DecidableEq, Repr

structure Badger where
  lanes : Vector (Option BadgerJob) 8 := Vector.replicate 8 none
  /-- Jobs fetched from rings and not yet in a lane, oldest first. -/
  jobs : List BadgerJob := []
  /-- Results that wait for an earlier one of their pipe or ring. -/
  results : List BadgerResult := []
  outQ : List BadgerOut := []
  /-- Blocks taken from, and handed on for, each pipe. -/
  taken : Vector Nat 4 := Vector.replicate 4 0
  handed : Vector Nat 4 := Vector.replicate 4 0
  /-- The next descriptor to fetch of each ring. -/
  fetch : Vector Nat 4 := Vector.replicate 4 0
  /-- Blocks that have waited 16 µs, oldest first (R356). -/
  urgent : List JobSrc := []
deriving DecidableEq, Repr

/-! ### BEAVER (chapter 16) -/

/-- A descriptor (Table 16.1). -/
structure DmaDesc where
  ctrl : Nat
  tag : Nat
  src : Nat
  dst : Nat
  next : Nat
  srcLine : Nat
  srcCount : Nat
  srcStride : Nat
  dstLine : Nat
  dstCount : Nat
  dstStride : Nat
deriving DecidableEq, Repr

structure DmaChan where
  /-- The descriptor being performed; what a write-back still has to report of it. -/
  desc : Option DmaDesc := none
  wb : Option Nat := none
  /-- Destination bytes accepted (DONE_LEN), and the length of the destination stream where it is not D: a FEED's block. -/
  done : Nat := 0
  block : Option (List Byte) := none
  /-- The block came from BADGER's output queue, or from RED's pipe of this number. -/
  blockPipe : Option (Option (Fin 4)) := none
  /-- Descriptors completed since the channel started running (R392). -/
  hops : Nat := 0
  /-- ABORT ends the descriptor after the burst in progress. -/
  aborting : Bool := false
  /-- The next descriptor of a schedule run, and whether the run's last descriptor is done. -/
  schedIdx : Nat := 0
  runDone : Bool := false
deriving DecidableEq, Repr

structure Sched where
  /-- The schedule in effect: its table's offset. -/
  on : Bool := false
  off : Nat := 0
  /-- The current step, its run, whether a run is in progress, and occurrences counted meanwhile (R401). -/
  step : Nat := 0
  run : Nat := 0
  running : Bool := false
  waiting : Nat := 0
  done : Bool := false
  /-- An arm came during a run: step 0 becomes current when it completes (R402). -/
  rearm : Bool := false
  /-- The number of the arm that made step 0 current (R402). -/
  arm : Nat := 0
  /-- A checked schedule was in effect at that arm: the channels its steps name serve it, also once it has stopped (R400). -/
  serves : Bool := false
deriving DecidableEq, Repr

structure Beaver where
  chans : Vector DmaChan 32 := Vector.replicate 32 {}
  sched : Sched := {}
  /-- Channels whose burst became urgent, oldest first; the channel served last (R383). -/
  urgent : List (Fin 32) := []
  last : Fin 32 := 31
deriving DecidableEq, Repr

/-! ### IFL (chapter 18) -/

/-- What a port has transmitted, but for LINK, ALIGN and IDLE flits. -/
inductive RingTx
  | announce (idx hops gm gmHops steps : Nat) (slew : Bool)
  | req (seq : Nat) (t1 : TS)
  | resp (seq : Nat) (ta tb tc : TS) (gm gmHops steps : Nat) (slew : Bool)
  | sched (flags level hops dest mask src : Nat) (ts : TS)
  | frame (bytes : List Byte)
  | reflectReq
  | reflectAck
deriving DecidableEq, Repr

/-- A frame waiting at a transmit port: header and payload, the number of a frame sent from here, whether it is urgent. -/
structure IflFrame where
  bytes : List Byte
  own : Option Nat
  urgent : Bool := false
  /-- Passed here from another level by this gateway (R453). -/
  passed : Bool := false
deriving DecidableEq, Repr

/-- One port: pair x and side s (W 0, E 1) are port 2x + s (R442). -/
structure IflPort where
  /-- HEAL_HOLD runs: up, but out of use (R440). -/
  hold : Bool := false
  /-- The port went down while its pair was CLOSED (R439). -/
  foldDue : Bool := false
  /-- LEVEL of the neighbour's latest LINK flit (R436). -/
  level : Option Nat := none
  /-- The latest ANNOUNCE of the ring master: exchange periods since, its index and HOPS (R437, R442). -/
  annAge : Option Nat := none
  annIdx : Nat := 0
  annHops : Nat := 0
  /-- Exchange periods since it came up or the latest ANNOUNCE arrived (R438). -/
  silent : Nat := 0
  /-- REQs answered in this period (R444). -/
  answered : Nat := 0
  /-- SCHED tokens (R449). -/
  tokens : Nat := 64
  /-- A limit was exceeded since the last token came, and the ticks of such intervals within 1 s (Table 18.5, RATE). -/
  rated : Bool := false
  ratedAt : List Nat := []
  /-- Ticks of authentication and replay failures, and of discarded flits with their number, within 1 s. -/
  authAt : List Nat := []
  badAt : List (Nat × Nat) := []
  /-- Data flits freed here, freed by the neighbour and sent, mod 2^16, and the tick of the neighbour's latest return (R453). -/
  freed : BitVec 16 := 0
  returned : BitVec 16 := 0
  sent : BitVec 16 := 0
  creditAt : Nat := 0
  queue : List IflFrame := []
  /-- An asymmetry measurement runs; REFLECT_ACK came; own and neighbour's TXDLY; the A accepted since the port came up; the
  tick at which a neighbour's REFLECT_REQ was last honoured (R445). -/
  measuring : Bool := false
  acked : Bool := false
  txDly : Int := 0
  nbrTxDly : Int := 0
  prevA : Option Int := none
  honoured : Option Nat := none
  /-- What the port transmitted, newest first. -/
  out : List RingTx := []
deriving DecidableEq, Repr

structure Ifl where
  ports : Vector IflPort 6 := Vector.replicate 6 {}
  /-- Periods since each pair heard an ANNOUNCE of a lower index, or since it joined; whether it heard one (R437). -/
  since : Vector Nat 3 := Vector.replicate 3 0
  heard : Vector Bool 3 := Vector.replicate 3 false
  /-- Consecutive periods in which the other port was better by 2 hops (R442). -/
  better : Nat := 0
  /-- The exchange in progress: SEQ and t1, and whether it was accepted (R443). -/
  reqSeq : BitVec 16 := 0
  req : Option TS := none
  accepted : Bool := false
  /-- Accepted exchanges in a row, rejections in a row, exchanges without a result in a row, and exchanges left without the
  outlier test (R444, R446). -/
  run : Nat := 0
  rejects : Nat := 0
  missed : Nat := 0
  quiet : Nat := 0
  /-- Accepted offsets and delays, newest first (R443). -/
  offsets : List Int := []
  delays : List Int := []
  /-- STEPS, and whether the next accepted offset goes to STAG as a reference return (R446). -/
  steps : BitVec 16 := 0
  present : Bool := false
  /-- A scheduled trigger that has not left yet: DEST, MASK and TS (R448). -/
  sched : Option (Nat × Nat × TS) := none
  /-- The latest SEQ sent (R455), and the frames sent from here that have copies to go: number, FTYPE, CHANNEL, copies. -/
  seq : Nat := 0
  sends : List (Nat × Nat × Nat × Nat) := []
  /-- The latest SEQ of a sender and the tick it came (R455). -/
  senders : List (Nat × Nat × Nat) := []
  /-- The ring keys (R454). -/
  keys : Vector (Option (List Byte)) 2 := Vector.replicate 2 none
  /-- Keys loaded or cleared since the last tick, oldest first: they take effect at the next (R482). -/
  keyDue : List (Fin 2 × Option (List Byte)) := []
  /-- A discard was reported since IFL_RX_LOST was read (R452). -/
  saidLost : Bool := false
deriving DecidableEq, Repr

/-! ### CAL (chapter 13) -/

structure Cal where
  /-- The live image's bytes by offset, but for its header and what CONV and ILV hold: channel trims, trims, retired slots,
  VALID bytes (R332, R333). -/
  live : Store Byte := []
  /-- The image buffer, by word. -/
  buf : Store Word := []
  /-- The procedure requested or running: PROC, ARR and OWL_MASK; whether it has begun; the mode and arrangement to return to,
  none when it was started in CALIBRATE (R60, R321). -/
  proc : Option (Nat × Nat × Nat) := none
  begun : Bool := false
  home : Option (Nat × Nat) := none
  /-- The first calibration of a start-up, and how often it has failed (R331). -/
  startup : Bool := false
  tries : Nat := 0
  /-- A bundle that HEDGE verifies, by its latched address (R336). -/
  bundle : Option Nat := none
  /-- A restored set in use that waits for the next application point: its number and its bytes (R335). -/
  nextSet : Option (Nat × List Byte) := none
  /-- The tick from which each set's age counts (R330). -/
  ageFrom : Vector Nat 3 := Vector.replicate 3 0
  /-- Sections of a restored image that wait for their moment (R335): bytes 0x40 to 0x90, bytes 0xC0 to 0x120. -/
  timing : Option (List Byte) := none
  owl : Option (List Byte) := none
deriving DecidableEq, Repr

/-! ### HEDGE (chapter 19) -/

/-- A firmware slot of the boot store: its image's digest, SVN and key set, and whether it is marked TRIAL (R463, R465). -/
structure FwSlot where
  digest : List Byte
  svn : Nat
  keySet : Nat
  trial : Bool
deriving DecidableEq, Repr

/-- An owner slot: the enrolled key blob, the fused digest, OWNER_REVOKE, and a slot that is BROKEN (Table 19.3, R467). -/
structure OwnerSlot where
  blob : Option (List Byte) := none
  fused : Option (List Byte) := none
  revoked : Bool := false
  broken : Bool := false
deriving DecidableEq, Repr

/-- A command in progress: OP, ARG and ADDR as latched; an attestation report, whose fields are taken at once (R476). -/
structure HedgeCmd where
  op : Nat
  arg : Nat
  addr : Nat
  report : List Byte := []
deriving DecidableEq, Repr

/-- The verified program image (R472): SVN, KEY_ID and digest. -/
structure PrgImage where
  svn : Nat
  key : Nat
  digest : List Byte
deriving DecidableEq, Repr

/-- What HEDGE's commands burn: the lifecycle state, DEBUG_LOCK, FW_CTR, PRG_CTR, CAL_CTR and the owner slots (Table 19.3). -/
structure Fuses where
  lc : Nat
  debugLock : Bool
  fwCtr : Nat
  prgCtr : Nat
  calCtr : Nat
  owners : Vector OwnerSlot 4
deriving DecidableEq, Repr

structure Hedge where
  /-- Fuses: the lifecycle state burnt, DEBUG_LOCK, and the counters (Table 19.3). -/
  lc : Nat := 1
  debugLock : Bool := false
  fwCtr : Nat := 0
  prgCtr : Nat := 0
  calCtr : Nat := 0
  owners : Vector OwnerSlot 4 := Vector.replicate 4 {}
  /-- FW_REVOKE of firmware key sets 0 and 1 (Table 19.3). -/
  fwRevoke : BitVec 2 := 0
  /-- The boot store: firmware slots A and B, whether the last boot was of a TRIAL slot, the last accepted BUNDLE_SEQ. -/
  slots : Vector (Option FwSlot) 2 := Vector.replicate 2 none
  tried : Option (Fin 2) := none
  bundleSeq : Nat := 0
  /-- The fuses and records as the command that a reset cut short would have left them (R467). -/
  after : Option Fuses := none
  /-- The running firmware's slot and digest, and the lifecycle state at boot (R461, Table 19.5). -/
  running : Option (Fin 2) := none
  fwDigest : List Byte := []
  lcBoot : Nat := 0
  /-- The entropy of the signature under the alias certificate, which a boot issues (R461). -/
  aliasRnd : List Byte := []
  cmd : Option HedgeCmd := none
  prg : Option PrgImage := none
deriving DecidableEq, Repr

/-! ### PWR (chapter 20) -/

structure Pwr where
  /-- Island K has been released (E1 of Table 20.4), Q and H have, and all the others have (E2). -/
  kUp : Bool := false
  qUp : Bool := false
  up : Bool := false
  /-- MOD_RST_N is low. -/
  modRst : Bool := false
  /-- Sensors that read 115 °C or more last time (R500). -/
  hot : BitVec 8 := 0
  /-- The sensors have been read since PWR was reset: PWR_TEMP_MAX holds a reading (Table 20.10). -/
  sensed : Bool := false
  /-- The wait for REFIN of start-up runs (R495). -/
  refWait : Bool := false
  /-- Blocks whose soft reset runs (R492). -/
  sreset : BitVec 22 := 0
deriving DecidableEq, Repr

/-! ### The block -/

/-- Everything but the command queue. -/
structure Dev where
  /-- Registers by BAR0 offset: hardware state, and the latest committed value of configuration registers (R273). -/
  regs : Store Word := []
  /-- Configuration registers as they are in effect at their units (R275). -/
  eff : Store Word := []
  /-- Memory of the device address space (Table 1.6). -/
  mem : Store Byte := []
  gen : MemGen := {}
  /-- Read shadows (R10): the reader, the word's BAR0 offset, its value. -/
  shadows : List (Requester × Nat × Word) := []
  /-- _LO halves held for their _HI halves (R10). -/
  halves : List HeldHalf := []
  /-- The value last written to a _LO half and taken into effect, of pairs that CFGC does not hold (R10). -/
  lastLo : Store Word := []
  crossings : Vector Crossing 24 := Vector.replicate 24 {}
  /-- The model's own: how many open values the run has met (log 1). -/
  freeCtr : Nat := 0
  cfgc : Cfgc := {}
  aqs : Aqs := {}
  host : HostIf := {}
  mod : ModeSt := {}
  stag : Stag := {}
  conv : Conv := {}
  cap : Cap := {}
  sealing : Seal := {}
  fox : Fox := {}
  sdec : Vector Sdec 4 := Vector.replicate 4 {}
  /-- The sixteen SDI samples of the latest tick, SDI0 to SDI7 each (R155). -/
  sdi : Vector (BitVec 16) 8 := Vector.replicate 8 0
  red : Vector RedPipe 4 := Vector.replicate 4 {}
  stk : Stk := {}
  ddr : Ddr := {}
  lynx : Vector LynxIn 8 := Vector.replicate 8 {}
  /-- The EXTTRIG stamper (R298). -/
  ext : ExtStamper := {}
  owl : Vector OwlMon 8 := Vector.replicate 8 {}
  owlSvc : Vector (Option OwlService) 4 := Vector.replicate 4 none
  pulse : Vector PulseUnit 4 := Vector.replicate 4 {}
  badger : Badger := {}
  beaver : Beaver := {}
  ifl : Ifl := {}
  cal : Cal := {}
  hedge : Hedge := {}
  pwr : Pwr := {}
  /-- The instruction in effect at the debug access port (R470). -/
  tap : TapInstr := .idcode
deriving DecidableEq, Repr

/-- The block: its hardware state and the commands that wait, first in, first out. -/
structure State where
  dev : Dev
  pending : List Instr
deriving DecidableEq, Repr

/-- After power-on, before any rail is good: every register at the reset value of its chapter, memory with nothing listed, the
lifecycle PROVISIONED and slot A of the boot store as shipped (R463, R468). -/
def State.reset : State where
  dev := { hedge := { slots := #v[some ⟨Config.fwDigest, Config.fwSvn, Config.fwKeySet, false⟩, none] } }
  pending := []

/-- Why the block stops. No command faults: every access the spec calls a hole or an error has an effect on the state. -/
inductive Fault
deriving DecidableEq, Repr

/-- Why a command has no meaning here. -/
inductive Refusal
  /-- The arm of a command that has no meaning yet raises it, by its mnemonic. Safe: no claim can be proved of it. -/
  | notModelled (mnemonic : String)
deriving DecidableEq, Repr

end Sys2Proof.Machine
end

