-- ==== Sys2Proof/Machine/Ops.lean ====
section
/-! DEFINITION. The named operations over the state: the sparse stores, registers and their fields, memory, events, open
values. -/
namespace Sys2Proof.Machine

/-! ### Bits, bytes and signs -/

/-- Bits [hi:lo] of `v`, as a number. -/
def bitsOf (v hi lo : Nat) : Nat := v / 2 ^ lo % 2 ^ (hi + 1 - lo)

/-- `v` with bits [hi:lo] replaced by the low bits of `x`. -/
def setBits (v hi lo x : Nat) : Nat :=
  v - bitsOf v hi lo * 2 ^ lo + x % 2 ^ (hi + 1 - lo) * 2 ^ lo

/-- The two's-complement value of the low `n` bits of `v`. -/
def signedOf (n v : Nat) : Int :=
  if v % 2 ^ n < 2 ^ (n - 1) then (v % 2 ^ n : Nat) else (v % 2 ^ n : Nat) - (2 ^ n : Nat)

/-- The `n`-bit two's-complement encoding of `x`. -/
def encodeSigned (n : Nat) (x : Int) : Nat := (x % (2 ^ n : Nat)).toNat

def clampInt (lo hi x : Int) : Int := if x < lo then lo else if hi < x then hi else x
def clampNat (lo hi x : Nat) : Nat := if x < lo then lo else if hi < x then hi else x

/-- The `n` bytes of `v`, lowest first (every multi-byte value of the module is little-endian). -/
def leBytes : Nat → Nat → List Byte
  | 0, _ => []
  | n + 1, v => BitVec.ofNat 8 v :: leBytes n (v / 256)

/-- The 64 bytes of SHA-512, and of HMAC-SHA-512 over a key and a message (R459, R461). -/
def sha512 (bs : List Byte) : List Byte := leBytes 64 (Config.sha512 bs).toNat
def hmacSha512 (key bs : List Byte) : List Byte := leBytes 64 (Config.hmacSha512 key bs).toNat

/-- The number that bytes spell, lowest first. -/
def leNat : List Byte → Nat
  | [] => 0
  | b :: bs => b.toNat + 256 * leNat bs

def divUp (a b : Nat) : Nat := (a + b - 1) / b

/-! ### Sparse stores -/

namespace Store

/-- What a key reads as: its listed value, or what an unlisted key reads as. -/
def get {β : Type} (dflt : Nat → β) : Store β → Nat → β
  | [], k => dflt k
  | (j, v) :: r, k => if j = k then v else get dflt r k

/-- Insert before the first greater key. -/
def insert {β : Type} (k : Nat) (v : β) : Store β → Store β
  | [] => [(k, v)]
  | (j, w) :: r => if k < j then (k, v) :: (j, w) :: r else (j, w) :: insert k v r

/-- Give `k` the value `v`, keeping the canonical form: an entry equal to what an unlisted key reads as is removed. -/
def set {β : Type} [DecidableEq β] (dflt : Nat → β) (m : Store β) (k : Nat) (v : β) : Store β :=
  let rest := m.filter (fun e => e.1 != k)
  if v = dflt k then rest else insert k v rest

/-- The canonical form: keys strictly rising, no entry equal to what an unlisted key reads as. -/
def wf {β : Type} [DecidableEq β] (dflt : Nat → β) : Store β → Bool
  | [] => true
  | [(j, v)] => v ≠ dflt j
  | (j, v) :: (k, w) :: r => v ≠ dflt j && decide (j < k) && wf dflt ((k, w) :: r)

end Store

/-! ### Registers -/

/-- The distance of `x` from a register's first copy, resolved against its dimensions: the indices, outermost first. -/
def dimIndices : List (Nat × Nat) → Nat → Option (List Nat)
  | [], x => if x = 0 then some [] else none
  | (n, stride) :: ds, x =>
    if x / stride < n then (dimIndices ds (x % stride)).map (fun l => x / stride :: l) else none

/-- The register at a BAR0 offset and the indices that name its copy; none at a hole (R409). -/
def findReg (a : Nat) : Option (RegRow × List Nat) :=
  (RegTable.ofBlock (a / 0x100000)).findSome? fun r =>
    if a < r.off then none else (dimIndices r.dims (a - r.off)).map (fun l => (r, l))

/-- What a register holds at reset: the value of its chapter; GLB_ID and DDR_ORG as the module was built. A key above 2^32
is the same register of another trim set (R79). -/
def regReset (key : Nat) : Word :=
  let a := key % 2 ^ 32
  if a = R.GLB_ID then 0x4320B000#32 ||| Config.variantM.setWidth 32
  else if a = R.DDR_ORG then ddrOrgWord
  else match findReg a with
    | some (r, i :: _) => BitVec.ofNat 32 (r.reset + r.rstep * i)
    | some (r, []) => BitVec.ofNat 32 r.reset
    | none => 0

/-- Bytes of a queue or of host memory that nothing has written. -/
def zeroByte (_ : Nat) : Byte := 0

/-- The end of the DRAM region (Table 1.6). -/
def dramEnd : Nat := 0x6000000000

/-- How often the contents at a device address became undefined. -/
def MemGen.at' (g : MemGen) (a : Nat) : Nat :=
  if a < dramEnd then g.dram else if a < 0xF00010000000 then g.capture else if a < 0xF00030000000 then g.data else g.sram

/-- What a byte of device memory that nothing has written reads as: 0 since power-on (DESIGN CHOICE, log 2, unsafe: the spec
gives no contents), an open value once the spec calls the contents undefined. -/
def memReset (g : MemGen) (a : Nat) : Byte := if g.at' a = 0 then 0 else Config.freeByte (g.at' a) a

namespace Dev

/-- The value a register reads as: hardware state, or the value of the latest commit (R273). -/
def rd (d : Dev) (a : Nat) : Word := Store.get regReset d.regs a
def wr (d : Dev) (a : Nat) (v : Word) : Dev := { d with regs := Store.set regReset d.regs a v }

/-- The value of a configuration register in effect at its unit (R275). -/
def ef (d : Dev) (a : Nat) : Word := Store.get regReset d.eff a
def efw (d : Dev) (a : Nat) (v : Word) : Dev := { d with eff := Store.set regReset d.eff a v }

/-- A field of a register, and writing one. -/
def get (d : Dev) (f : Field) : Nat := bitsOf (d.rd f.reg).toNat f.hi f.lo
def put (d : Dev) (f : Field) (x : Nat) : Dev := d.wr f.reg (BitVec.ofNat 32 (setBits (d.rd f.reg).toNat f.hi f.lo x))
def flag (d : Dev) (f : Field) : Bool := d.get f != 0
def putB (d : Dev) (f : Field) (b : Bool) : Dev := d.put f b.toNat
/-- A field of a configuration register as it is in effect at its unit. -/
def cfg (d : Dev) (f : Field) : Nat := bitsOf (d.ef f.reg).toNat f.hi f.lo
def cfgB (d : Dev) (f : Field) : Bool := d.cfg f != 0
def cfgS (d : Dev) (f : Field) : Int := signedOf (f.hi + 1 - f.lo) (d.cfg f)
def getS (d : Dev) (f : Field) : Int := signedOf (f.hi + 1 - f.lo) (d.get f)

/-- The 64-bit value of a _LO and _HI pair, named by its _LO half. -/
def rd64 (d : Dev) (lo : Nat) : Nat := (d.rd lo).toNat + 2 ^ 32 * (d.rd (lo + 4)).toNat
def wr64 (d : Dev) (lo : Nat) (v : Nat) : Dev :=
  (d.wr lo (BitVec.ofNat 32 v)).wr (lo + 4) (BitVec.ofNat 32 (v / 2 ^ 32))
def cf64 (d : Dev) (lo : Nat) : Nat := (d.ef lo).toNat + 2 ^ 32 * (d.ef (lo + 4)).toNat

/-- Add to a counter that saturates at 0xFFFF_FFFF. -/
def count (d : Dev) (a : Nat) (n : Nat := 1) : Dev :=
  d.wr a (BitVec.ofNat 32 (min ((d.rd a).toNat + n) 0xFFFFFFFF))

/-! ### Memory: the device address space and what the module wrote into host space -/

def byte (d : Dev) (a : Nat) : Byte := Store.get (memReset d.gen) d.mem a
def setByte (d : Dev) (a : Nat) (b : Byte) : Dev := { d with mem := Store.set (memReset d.gen) d.mem a b }

def loadBytes (d : Dev) (a : Nat) : Nat → List Byte
  | 0 => []
  | n + 1 => d.byte a :: loadBytes d (a + 1) n

def storeBytes (d : Dev) (a : Nat) : List Byte → Dev
  | [] => d
  | b :: bs => storeBytes (d.setByte a b) (a + 1) bs

/-- `n` bytes at `a`, little-endian. -/
def load (d : Dev) (a n : Nat) : Nat := leNat (d.loadBytes a n)
def store (d : Dev) (a n v : Nat) : Dev := d.storeBytes a (leBytes n v)

/-- The bursts of [a, a + n) that are wholly inside it no longer read as uncorrectable (R380). -/
def clearPoison (d : Dev) (a n : Nat) : Dev :=
  if d.ddr.span ≤ a then d
  else { d with ddr := { d.ddr with chans := d.ddr.chans.map fun c =>
    { c with poison := c.poison.filter (fun p => !(decide (a ≤ p) && decide (p + 64 ≤ a + n))) } } }

/-- A write that reached its destination. -/
def writeOut (d : Dev) (a : Nat) (bs : List Byte) : Dev := (d.storeBytes a bs).clearPoison a bs.length

/-! ### Events (R35, R248) -/

/-- Post an event on an island's crossing into Q. With no room the crossing holds the posting block (R35). -/
def post (d : Dev) (i : Island) (num sub : Nat) (arg : Nat := 0) (ts : Option TS := none) : Dev :=
  let c := d.crossings.get i
  let e : Event := ⟨num, sub % 256, BitVec.ofNat 64 arg, ts⟩
  let c' := if c.held.isEmpty && c.fifo.length < 32 then { c with fifo := c.fifo ++ [e] }
            else { c with held := c.held ++ [e] }
  { d with crossings := d.crossings.set i.val c' }

/-! ### Open values -/

/-- The next value that the spec leaves open. -/
def free (d : Dev) : Word64 := Config.freeValue d.freeCtr
def nextFree (d : Dev) : Dev := { d with freeCtr := d.freeCtr + 1 }

end Dev

/-! ### Time -/

/-- The timestamp of a tick count and a fraction of a tick (R11). -/
def mkTS (tick : Nat) (frac : Nat := 0) : TS := BitVec.ofNat 96 (tick * 2 ^ 32 + frac)
def TS.ticks (t : TS) : Nat := t.toNat / 2 ^ 32
def TS.frac (t : TS) : Nat := t.toNat % 2 ^ 32

/-! ### Unit states (Table 2.7) -/

def stOff : Nat := 0
def stOn : Nat := 1
def stDraining : Nat := 2
def stAborting : Nat := 3

/-- The STATE field of a unit (R61). -/
def UnitId.state : UnitId → Field
  | .ilv => F.ILV_STATUS_STATE
  | .fox => F.FOX_STATUS_STATE
  | .sdec d => F.SDEC_d_STATUS_STATE d
  | .cap => F.CAP_STATUS_STATE
  | .red p => F.RED_p_STATUS_STATE p
  | .stk => F.STK_STATUS_STATE
  | .badger => F.BADGER_STATUS_STATE
  | .beaver n => F.BEAVER_CH_n_STATUS_STATE n
  | .ddr n => F.DDR_CH_n_STATUS_STATE n
  | .ifl x => F.IFL_x_STATUS_STATE x
  | .lynx n => F.LYNX_n_STATUS_STATE n
  | .pulse u => F.PULSE_u_STATUS_STATE u
  | .owl n => F.OWL_n_STATUS_STATE n
  | .cal => F.CAL_STATUS_STATE

def Dev.unitState (d : Dev) (u : UnitId) : Nat := d.get (UnitId.state u)
def Dev.setUnit (d : Dev) (u : UnitId) (st : Nat) : Dev := d.put (UnitId.state u) st

/-! ### CRC-32 (R189) -/

/-- Eight shifts of the reflected polynomial 0x04C1_1DB7. -/
def crcShift : Nat → Word → Word
  | 0, c => c
  | n + 1, c => crcShift n (if c.getLsbD 0 then (c >>> 1) ^^^ 0xEDB88320#32 else c >>> 1)

def crcBytes : Word → List Byte → Word
  | c, [] => c
  | c, b :: bs => crcBytes (crcShift 8 (c ^^^ b.setWidth 32)) bs

/-- The CRC-32 of IEEE 802.3: initial value and final XOR 0xFFFF_FFFF. -/
def crc32 (bs : List Byte) : Word := crcBytes 0xFFFFFFFF#32 bs ^^^ 0xFFFFFFFF#32

/-! ### The device address map (Table 1.6, R39) -/

inductive Region
  | dram
  | capture
  | stk
  | badger
  | program
  | data
  | table
deriving DecidableEq, Repr

def captureBase : Nat := 0xF00000000000
def stkBase : Nat := 0xF00010000000
def badgerBase : Nat := 0xF00020000000
def programBase : Nat := 0xF00030000000
def dataBase : Nat := 0xF00030200000
def tableBase : Nat := 0xF00040000000

/-- The region an address lies in; none for a hole, which includes DRAM beyond what the stripe maps (R39, R268). -/
def regionOf (d : Dev) (a : Nat) : Option Region :=
  if a < d.ddr.span then some .dram
  else if captureBase ≤ a && a < captureBase + 0x4000000 then some .capture
  else if stkBase ≤ a && a < stkBase + 0x1000000 then some .stk
  else if badgerBase ≤ a && a < badgerBase + 0x800000 then some .badger
  else if programBase ≤ a && a < programBase + 0x200000 then some .program
  else if dataBase ≤ a && a < dataBase + 0x200000 then some .data
  else if tableBase ≤ a && a < tableBase + 0x400000 then some .table
  else none

/-- The `n` bytes at `a` lie in one region. -/
def rangeRegion (d : Dev) (a n : Nat) : Option Region :=
  match regionOf d a with
  | some r => if n ≤ 1 || regionOf d (a + n - 1) = some r then some r else none
  | none => none

def inDram (d : Dev) (a n : Nat) : Bool := rangeRegion d a n = some .dram
def inDramOrData (d : Dev) (a n : Nat) : Bool :=
  rangeRegion d a n = some .dram || rangeRegion d a n = some .data

/-! ### Modes and arrangements (Tables 2.1, 2.2) -/

def mSentry : Nat := 0
def mSingle : Nat := 1
def mFrame : Nat := 2
def mStream : Nat := 3
def mStack : Nat := 4
def mFine : Nat := 5
def mCount : Nat := 6
def mCalibrate : Nat := 7
def isCapture (m : Nat) : Bool := 1 ≤ m && m ≤ 5
/-- A mode that converts, for R53 and MODE_NO_CLOCK: CALIBRATE does not count. -/
def converts (m : Nat) : Bool := m ≤ 5

/-- The inputs an arrangement samples (Table 2.2). -/
def sampledInputs : Nat → List Nat
  | 0 => [0, 1, 2, 3]
  | 1 => [0, 2]
  | _ => [0]

/-- The bank and slot of sample m of an input (Table 3.1). -/
def sampleBank (arr inp m : Nat) : Nat :=
  match arr with
  | 0 => inp
  | 1 => inp + m % 2
  | _ => m % 4

def sampleSlot (arr m : Nat) : Nat :=
  match arr with
  | 0 => m % 32
  | 1 => m / 2 % 32
  | _ => m / 4 % 32

def Dev.mode (d : Dev) : Nat := d.get F.GLB_MODE_STATUS_CUR_MODE
def Dev.arr (d : Dev) : Nat := d.get F.GLB_MODE_STATUS_CUR_ARR
def Dev.phase (d : Dev) : Nat := d.get F.GLB_MODE_STATUS_PHASE
def Dev.armed (d : Dev) : Bool := d.flag F.FOX_STATUS_ARMED
def Dev.sealedState (d : Dev) : Bool := d.get F.HEDGE_STATUS_LC == 3

/-! ### The sample grid (R109, R111, R112) -/

/-- N × 2^24 of a STAG_SL_DIV value. -/
def divN (w : Word) : Nat := (w &&& 0x7FFFFFFF#32).toNat

/-- The grid's multiplier: samples per tick are m × N. -/
def gridMul (arr : Nat) : Nat := match arr with | 0 => 4 | 1 => 8 | _ => 16

/-- The TS of sample k of the grid (R112), × 2^−32 tick from the grid's origin: the nearest multiple, ties up. -/
def gridTS (w : Word) (arr : Nat) (k : Int) : Int :=
  let num : Int := k * 2 ^ 56
  let den : Int := gridMul arr * divN w
  (2 * num + den) / (2 * den)

def Dev.sampleTS (d : Dev) (k : Int) : Int :=
  d.stag.origin + gridTS (d.ef R.STAG_SL_DIV) (if d.mode = mSentry then 0 else d.arr) k

/-- The index of the last grid sample whose TS is at or before t, and the fraction of a period left, rounded down (R137). -/
def Dev.gridAt (d : Dev) (t : Nat) : Int × Nat :=
  let den : Int := gridMul (if d.mode = mSentry || d.mode = mCount then 0 else d.arr) * divN (d.ef R.STAG_SL_DIV)
  let x : Int := ((t : Int) - d.stag.origin) * den
  let k := x / 2 ^ 56
  let k := if d.stag.origin + gridTS (d.ef R.STAG_SL_DIV) (if d.mode = mSentry || d.mode = mCount then 0 else d.arr) (k + 1) ≤ t
    then k + 1 else k
  let rest := x - k * 2 ^ 56
  (k, if rest < 0 then 0 else (rest * 2 ^ 16 / 2 ^ 56).toNat % 2 ^ 16)

/-- Samples of one input per tick, rounded up to whole samples for `n` ticks (R144). -/
def samplesIn (w : Word) (arr n : Nat) : Nat := divUp (n * gridMul arr * divN w) (2 ^ 24)

/-! ### Applying commits (R275) -/

/-- The events of CFGC (Table 10.10a). -/
def evClamp : Nat := 0x041
def evCfgApplied : Nat := 0x042
def evReportLost : Nat := 0x043

/-- The crossing into Q holds a block: an event that it posted finds no room (R34, R35). -/
def blockHeld (d : Dev) (b : Nat) : Bool := d.crossings.toList.any fun c => c.held.any fun e => e.num / 64 == b

/-- Post EV_CFG_APPLIED for every commit that no unit still has to apply; CFGC_APPLIED_SEQ only advances (R272, R275). -/
def announceApplied (d : Dev) : List CommitWait → Dev
  | [] => d
  | w :: ws =>
    let d := if w.units.isEmpty && !w.deferred then
        let old := (d.rd R.CFGC_APPLIED_SEQ).toNat
        let seq := if (w.seq + 2 ^ 32 - old) % 2 ^ 32 < 2 ^ 31 then w.seq else old
        (d.wr R.CFGC_APPLIED_SEQ (BitVec.ofNat 32 seq)).post .q evCfgApplied 0 w.seq
      else d
    announceApplied d ws

/-- A unit has applied what it was handed: its commits no longer wait for it. -/
def unitApplied (d : Dev) (us : List CfgUnit) : Dev :=
  let waits := d.cfgc.waits.map fun w => if w.deferred then w else { w with units := w.units.filter (fun u => !us.contains u) }
  let d := announceApplied d waits
  let left := waits.filter (fun w => w.deferred || !w.units.isEmpty)
  { d with cfgc := { d.cfgc with waits := left } } |>.putB F.CFGC_STATUS_PENDING (!left.isEmpty || !d.cfgc.commits.isEmpty)

/-- The words of a unit take effect. -/
def takeWords (d : Dev) : List CfgWord → Dev
  | [] => d
  | w :: ws => takeWords (d.efw w.addr w.val) ws

/-- A unit reaches its boundary: the merged fields it was handed take effect together. -/
def applyUnit (d : Dev) (u : CfgUnit) : Dev :=
  let mine := d.cfgc.parts.filter (fun w => w.tgt == u)
  let d := takeWords { d with cfgc := { d.cfgc with parts := d.cfgc.parts.filter (fun w => w.tgt != u) } } mine
  unitApplied d [u]

def hasPart (d : Dev) (u : CfgUnit) : Bool := d.cfgc.parts.any (fun w => w.tgt == u)

/-- An arm, START or CLEAR takes the pending set of a unit. -/
def takeLatched (d : Dev) (u : CfgUnit) : Dev :=
  let mine := d.cfgc.latched.filter (fun w => w.tgt == u)
  takeWords { d with cfgc := { d.cfgc with latched := d.cfgc.latched.filter (fun w => w.tgt != u) } } mine

/-! ### Clamp reports (R276, R277) -/

def rptByte (d : Dev) (i : Nat) : Byte := Store.get zeroByte d.cfgc.rpt i

def storeRpt (d : Dev) (i : Nat) : List Byte → Dev
  | [] => d
  | b :: bs => storeRpt { d with cfgc := { d.cfgc with rpt := Store.set zeroByte d.cfgc.rpt i b } } (i + 1) bs

/-- Append a clamp report (Table 10.9), or count it as lost on a full queue; the first loss since CFGC_RPT_LOST was read
posts EV_REPORT_LOST. -/
def fileReport (d : Dev) (seq field req app : Nat) (hiChanged : Bool) (block code : Nat) : Dev :=
  let wrp := (d.rd R.CFGC_RPT_WR).toNat
  if 4096 ≤ (wrp + 2 ^ 32 - (d.rd R.CFGC_RPT_RD).toNat) % 2 ^ 32 then
    let d := d.count R.CFGC_RPT_LOST
    if d.cfgc.lostNotified then d
    else { d with cfgc := { d.cfgc with lostNotified := true } }.post .q evReportLost 0
  else
    let reason := (if hiChanged then 2 ^ 31 else 0) + block * 2 ^ 16 + code
    let d := storeRpt d (16 * (wrp % 4096))
      (leBytes 2 seq ++ leBytes 2 field ++ leBytes 4 req ++ leBytes 4 app ++ leBytes 4 reason)
    d.wr R.CFGC_RPT_WR (BitVec.ofNat 32 (wrp + 1))

/-- A burst of DRAM in [a, a + n) reads as uncorrectable (R380). -/
def burstPoisoned (d : Dev) (a n : Nat) : Bool :=
  d.ddr.chans.toList.any (fun c => c.poison.any (fun p => decide (p < a + n) && decide (a < p + 64)))

end Sys2Proof.Machine
end

