-- ==== Sys2Proof/Machine/Tables.lean ====
section
/-! DEFINITION. The tables in table SRAM (R263 to R269) and the capture plan with its checks (R180 to R184). -/
namespace Sys2Proof.Machine

def tyPlan : Nat := 1
def tyFir : Nat := 2
def tyKernel : Nat := 3
def tyStripe : Nat := 4
def tySchedule : Nat := 5

/-- The header alignment of a table type (Table 10.4). -/
def tableAlign (ty : Nat) : Nat := if ty = tyKernel then 16 else 64

def tableCrcOf (d : Dev) (a len : Nat) : Word :=
  crc32 (d.loadBytes a 0x1C ++ d.loadBytes (a + 32) (len - 32))

/-- The exact LENGTH that the body of a type gives (R264). -/
def tableLength (d : Dev) (ty a : Nat) : Nat :=
  let b := a + 32
  if ty = tyPlan then 32 + 64 * d.load (a + 0x0C) 4
  else if ty = tyFir then 16 * divUp (48 + 4 * d.load (b + 2) 2) 16
  else if ty = tyKernel then 16 * divUp (48 + 514 * d.load b 2) 16
  else if ty = tyStripe then 16 * divUp (48 + d.load (b + 2) 2) 16
  else 64 * divUp (48 + 16 * d.load b 2) 64 + 64 * d.load (b + 4) 4

/-- The header check of R264 for the table of a type at a byte offset of table SRAM. -/
def tableHeaderOk (d : Dev) (ty off : Nat) : Bool :=
  let a := tableBase + off
  let len := d.load (a + 8) 4
  off % tableAlign ty == 0
    && d.load a 4 == 0x54424C54 && d.load (a + 4) 1 == ty && d.load (a + 5) 1 == 1
    && len == tableLength d ty a && off + len ≤ 0x400000
    && (if ty = tyPlan then 1 ≤ d.load (a + 0x0C) 4 && d.load (a + 0x0C) 4 ≤ 4096 else d.load (a + 0x0C) 4 == 1)
    && d.load (a + 0x1C) 4 == (tableCrcOf d a len).toNat

/-- Rewrite a table's CRC after clamps were written back into its entries (R264). -/
def fixTableCrc (d : Dev) (off : Nat) : Dev :=
  let a := tableBase + off
  d.store (a + 0x1C) 4 (tableCrcOf d a (d.load (a + 8) 4)).toNat

/-! ### FIR stages (R206) -/

def firFactor (d : Dev) (off : Nat) : Nat := d.load (tableBase + off + 32) 2
def firTaps (d : Dev) (off : Nat) : Nat := d.load (tableBase + off + 34) 2
def firDelay (d : Dev) (off : Nat) : Nat := d.load (tableBase + off + 36) 4
def firPass (d : Dev) (off : Nat) : Nat := d.load (tableBase + off + 40) 2
def firStop (d : Dev) (off : Nat) : Nat := d.load (tableBase + off + 42) 2
def firRipple (d : Dev) (off : Nat) : Nat := d.load (tableBase + off + 44) 2
def firAtten (d : Dev) (off : Nat) : Nat := d.load (tableBase + off + 46) 2
def firWord (d : Dev) (off i : Nat) : Nat := d.load (tableBase + off + 48 + 4 * i) 4
def firCoef (d : Dev) (off i : Nat) : Int := signedOf 24 (firWord d off i)

def firBodyOk (d : Dev) (off : Nat) : Bool :=
  1 ≤ firFactor d off && firFactor d off ≤ 256 && 1 ≤ firTaps d off && firTaps d off ≤ 2048
    && firPass d off ≤ firStop d off
    && (List.range (firTaps d off)).all fun i =>
      let w := firWord d off i
      bitsOf w 31 24 == (if bitsOf w 23 23 = 1 then 255 else 0)

def firOk (d : Dev) (off : Nat) : Bool := tableHeaderOk d tyFir off && firBodyOk d off

/-! ### Interpolation kernels (R266) -/

def kernelTaps (d : Dev) (off : Nat) : Nat := d.load (tableBase + off + 32) 2
def kernelWeight (d : Dev) (off p i : Nat) : Int :=
  signedOf 16 (d.load (tableBase + off + 48 + 2 * (p * kernelTaps d off + i)) 2)

def kernelOk (d : Dev) (off : Nat) : Bool :=
  let t := kernelTaps d off
  tableHeaderOk d tyKernel off && (t == 2 || t == 4 || t == 6 || t == 8) && d.load (tableBase + off + 34) 2 == 257
    && (List.range 257).all fun p =>
      let s := (List.range t).foldl (fun acc i => acc + kernelWeight d off p i) 0
      decide (16384 - 64 ≤ s) && decide (s ≤ 16384 + 64)

/-! ### Stripe tables (R267, R268) -/

def stripeGrainLog (d : Dev) (off : Nat) : Nat := d.load (tableBase + off + 32) 1
def stripeNslot (d : Dev) (off : Nat) : Nat := d.load (tableBase + off + 34) 2
def stripeChannels (d : Dev) (off : Nat) : Nat := d.load (tableBase + off + 36) 2
def stripeW (d : Dev) (off : Nat) : Nat := d.load (tableBase + off + 38) 2
def stripeSlot (d : Dev) (off s : Nat) : Nat := d.load (tableBase + off + 48 + s) 1 % 16

def stripeOk (d : Dev) (off : Nat) : Bool :=
  let n := stripeNslot d off
  let chans := (List.range 12).filter (fun c => bitsOf (stripeChannels d off) c c == 1)
  tableHeaderOk d tyStripe off && 8 ≤ stripeGrainLog d off && stripeGrainLog d off ≤ 16
    && 1 ≤ n && n ≤ 4096 && bitsOf (stripeChannels d off) 15 12 == 0
    && n == stripeW d off * chans.length
    && (List.range n).all (fun s => chans.contains (stripeSlot d off s))
    && chans.all (fun c => ((List.range n).filter (fun s => stripeSlot d off s == c)).length == stripeW d off)

/-- Where a DRAM address lies (R268): the channel and the address local to it. -/
def stripeMap (d : Dev) (off a : Nat) : Nat × Nat :=
  let gl := stripeGrainLog d off
  let g := a / 2 ^ gl
  let n := stripeNslot d off
  let s := g % n
  let ch := stripeSlot d off s
  let r := ((List.range s).filter (fun j => stripeSlot d off j == ch)).length
  (ch, (g / n * stripeW d off + r) * 2 ^ gl + a % 2 ^ gl)

/-! ### DMA schedules (R269) -/

def schedNstep (d : Dev) (off : Nat) : Nat := d.load (tableBase + off + 32) 2
def schedNdesc (d : Dev) (off : Nat) : Nat := d.load (tableBase + off + 36) 4
def schedStep (off j : Nat) : Nat := tableBase + off + 48 + 16 * j
def schedEvent (d : Dev) (off j : Nat) : Nat := d.load (schedStep off j) 2
def schedChannel (d : Dev) (off j : Nat) : Nat := d.load (schedStep off j + 2) 1
def schedFlags (d : Dev) (off j : Nat) : Nat := d.load (schedStep off j + 3) 1
def schedDesc (d : Dev) (off j : Nat) : Nat := d.load (schedStep off j + 4) 4
def schedRepeat (d : Dev) (off j : Nat) : Nat := d.load (schedStep off j + 8) 4
/-- The offset P at which the descriptors begin, from the header. -/
def schedP (d : Dev) (off : Nat) : Nat := 64 * divUp (48 + 16 * schedNstep d off) 64
def schedDescAddr (d : Dev) (off j : Nat) : Nat := tableBase + off + schedP d off + 64 * j

/-- How many events each block assigns, n = 1 onward (R258 and the event tables of the chapters). -/
def eventsOfBlock : Nat → Nat
  | 0 => 5 | 1 => 3 | 2 => 1 | 3 => 5 | 4 => 7 | 5 => 3 | 6 => 2 | 7 => 4 | 8 => 2 | 9 => 4 | 11 => 6 | 12 => 2
  | 13 => 2 | 14 => 4 | 15 => 3 | 16 => 7 | 17 => 5 | 18 => 3 | 19 => 10 | 20 => 5 | 21 => 3 | _ => 0

/-- A number assigned under R258. -/
def eventAssigned (n : Nat) : Bool :=
  let b := n / 64
  let i := n % 64
  b < 22 && (if b = 10 then (1 ≤ i && i ≤ 3) || (8 ≤ i && i ≤ 15) else 1 ≤ i && i ≤ eventsOfBlock b)

def schedOk (d : Dev) (off : Nat) : Bool :=
  let ns := schedNstep d off
  let nd := schedNdesc d off
  tableHeaderOk d tySchedule off && 1 ≤ ns && ns ≤ 4096 && 1 ≤ nd && nd ≤ 16384
    && (List.range (schedP d off - (48 + 16 * ns))).all (fun i => d.byte (tableBase + off + 48 + 16 * ns + i) == 0)
    && (List.range ns).all (fun j =>
      schedDesc d off j < nd && schedChannel d off j < 32
        && 1 ≤ schedRepeat d off j && schedRepeat d off j ≤ 2 ^ 24
        && (schedEvent d off j == 0 || eventAssigned (schedEvent d off j))
        && (schedFlags d off j == (if j + 1 = ns then 1 else 0)))
    && (List.range nd).all (fun j => bitsOf (d.load (schedDescAddr d off j) 4) 31 31 == 1)

/-! ### The capture plan (R180 to R184) -/

def PlanEntry.wrap (e : PlanEntry) : Bool := bitsOf e.ctrl 0 0 == 1
def PlanEntry.hold (e : PlanEntry) : Bool := bitsOf e.ctrl 1 1 == 1
def PlanEntry.keep (e : PlanEntry) : Bool := bitsOf e.ctrl 2 2 == 1

def entryAddr (off e : Nat) : Nat := tableBase + off + 32 + 64 * e

def readEntry (d : Dev) (off e : Nat) : PlanEntry :=
  let a := entryAddr off e
  { ctrl := d.load a 4, pre := d.load (a + 4) 4, post := d.load (a + 8) 8, bodyBase := d.load (a + 0x10) 8,
    bodyStride := d.load (a + 0x18) 8, inStride := d.load (a + 0x20) 8, hdrBase := d.load (a + 0x28) 8,
    count := d.load (a + 0x30) 4, next := d.load (a + 0x34) 2, tmax := d.load (a + 0x36) 2, tbase := d.load (a + 0x38) 8 }

def writeEntry (d : Dev) (off e : Nat) (p : PlanEntry) : Dev :=
  d.storeBytes (entryAddr off e)
    (leBytes 4 p.ctrl ++ leBytes 4 p.pre ++ leBytes 8 p.post ++ leBytes 8 p.bodyBase ++ leBytes 8 p.bodyStride
      ++ leBytes 8 p.inStride ++ leBytes 8 p.hdrBase ++ leBytes 4 p.count ++ leBytes 2 p.next ++ leBytes 2 p.tmax
      ++ leBytes 8 p.tbase)

/-- Bytes of a partition of capture SRAM for n inputs (R170), and PRE_MAX in samples (R172). -/
def partitionBlocks (n : Nat) : Nat := 65536 / n
def partitionBytes (n : Nat) : Nat := partitionBlocks n * 1024
def preMax (n : Nat) : Nat := partitionBlocks n / 2 * 768

/-- The inputs of the plan check (R183): stored inputs, mode, installed DRAM. -/
structure PlanEnv where
  n : Nat
  mode : Nat
  entries : Nat
deriving DecidableEq, Repr

def PlanEnv.stream (v : PlanEnv) : Bool := v.mode == mStream || v.mode == mFine
def PlanEnv.holdIn (v : PlanEnv) (e : PlanEntry) : Bool := e.hold && v.mode == mSingle
def PlanEnv.hdrBytes (v : PlanEnv) : Nat := if v.mode = mFrame || v.mode = mStack then 128 else 192

/-- A clamp of the plan check: the field f of R184, the values requested and applied, and the report's code. -/
structure PlanClamp where
  f : Nat
  req : Nat
  app : Nat
  code : Nat
deriving DecidableEq, Repr

def clampTo (f code req app : Nat) : List PlanClamp := if req = app then [] else [⟨f, req, app, code⟩]

/-- Samples an input's stride holds: P10, or S16 in FINE (Table 7.4, check 11). -/
def strideCapacity (v : PlanEnv) (e : PlanEntry) : Nat :=
  if v.mode = mFine then e.inStride / 2 else e.inStride / 4 * 3

/-- Words, and 64-byte bursts, that a body of so many samples takes (R175). -/
def bodyWords (mode samples : Nat) : Nat := if mode = mFine then divUp samples 2 else divUp samples 3
def bodyBursts (mode samples : Nat) : Nat := divUp (bodyWords mode samples) 16

/-- Bytes from the first body of a slot to the end of its last. -/
def slotBytes (v : PlanEnv) (e : PlanEntry) : Nat :=
  (v.n - 1) * e.inStride + 64 * bodyBursts v.mode (if v.stream then e.post else e.pre + e.post)

/-- Whether slot s of an entry lies where check 14 wants it. -/
def slotFits (d : Dev) (v : PlanEnv) (e : PlanEntry) (s : Nat) : Bool :=
  inDramOrData d (e.hdrBase + s * v.hdrBytes) v.hdrBytes
    && rangeRegion d e.hdrBase (s * v.hdrBytes + v.hdrBytes) = regionOf d e.hdrBase
    && (v.holdIn e || inDram d (e.bodyBase + s * e.bodyStride) (slotBytes v e))
    && (!v.stream || inDram d (e.tbase + s * (e.tmax * 16)) (max 1 (e.tmax * 16)))

/-- The most slots, at most `c`, whose last one fits: the region is an interval, so a bisection finds it. -/
def fittingSlots (d : Dev) (v : PlanEnv) (e : PlanEntry) : Nat → Nat → Nat → Nat
  | 0, lo, _ => lo
  | fuel + 1, lo, hi =>
    if hi ≤ lo + 1 then lo
    else
      let m := (lo + hi) / 2
      if slotFits d v e (m - 1) then fittingSlots d v e fuel m hi else fittingSlots d v e fuel lo m

/-- The checks of Table 7.4 on one entry, in order: none when the plan is invalid. -/
def checkEntry (d : Dev) (v : PlanEnv) (e0 : PlanEntry) : Option (PlanEntry × List PlanClamp) :=
  let cR := 0x0105
  let cA := 0x0103
  let cRg := 0x0101
  let cD := 0x0104
  let down (x : Nat) := x / 64 * 64
  -- 1, 2
  let e := { e0 with ctrl := e0.ctrl % 8, bodyBase := down e0.bodyBase, hdrBase := down e0.hdrBase, tbase := down e0.tbase }
  let rs := clampTo 7 cR e0.ctrl e.ctrl ++ clampTo 5 cA e0.bodyBase e.bodyBase ++ clampTo 5 cA e0.hdrBase e.hdrBase
    ++ clampTo 5 cA e0.tbase e.tbase
  -- 3, 4
  if (!v.holdIn e && !inDram d e.bodyBase 1) || (v.stream && !inDram d e.tbase 1) || !inDramOrData d e.hdrBase 1 then none
  else
    -- 5
    let e5 := { e with inStride := down e.inStride, bodyStride := down e.bodyStride }
    let rs := rs ++ clampTo 2 cA e.inStride e5.inStride ++ clampTo 3 cA e.bodyStride e5.bodyStride
    -- 6, 7
    let e7 := { e5 with pre := min e5.pre (preMax v.n), post := max e5.post 1 }
    let rs := rs ++ clampTo 0 cRg e5.pre e7.pre ++ clampTo 1 cRg e5.post e7.post
    -- 8
    let e8 := if v.stream then { e7 with post := clampNat 768 (2 ^ 32 - 768) (e7.post / 768 * 768) } else e7
    let rs := rs ++ clampTo 1 cRg e7.post e8.post
    -- 9
    let e9 := if (v.mode = mFrame || v.mode = mStack) && 2 ^ 32 - 1 < e8.pre + e8.post
      then { e8 with post := 2 ^ 32 - 1 - e8.pre } else e8
    let rs := rs ++ clampTo 1 cD e8.post e9.post
    -- 10
    let most := (partitionBlocks v.n - 1) * 768
    let e10 := if v.holdIn e9 && most < e9.pre + e9.post then { e9 with post := most - e9.pre } else e9
    let rs := rs ++ clampTo 1 cD e9.post e10.post
    -- 11
    let cap := strideCapacity v e10
    let ok11 := v.holdIn e10 || (if v.stream then 768 ≤ cap else 1 ≤ cap)
    let e11 :=
      if v.holdIn e10 then e10
      else if v.stream then (if cap < e10.post then { e10 with post := cap / 768 * 768 } else e10)
      else if e10.pre + e10.post ≤ cap then e10
      else if cap ≤ e10.pre then { e10 with pre := cap - 1, post := 1 }
      else { e10 with post := cap - e10.pre }
    if !ok11 then none
    else
      let rs := rs ++ clampTo 0 cD e10.pre e11.pre ++ clampTo 1 cD e10.post e11.post
      -- 12
      let e12 := { e11 with bodyStride := max e11.bodyStride (v.n * e11.inStride) }
      let rs := rs ++ clampTo 3 cD e11.bodyStride e12.bodyStride
      -- 13
      let e13 := { e12 with count := clampNat 1 (2 ^ 24) e12.count }
      let rs := rs ++ clampTo 4 cRg e12.count e13.count
      -- 14
      if !slotFits d v e13 0 then none
      else
        let c := if slotFits d v e13 (e13.count - 1) then e13.count else fittingSlots d v e13 25 1 e13.count
        let e14 := { e13 with count := c }
        let rs := rs ++ clampTo 4 cD e13.count c
        -- 15
        let e15 := { e14 with next := if e14.next < v.entries then e14.next else 0xFFFF }
        some (e15, rs ++ clampTo 6 0x0102 e14.next e15.next)

/-- File the reports of one entry (R184): SEQ is that of the write of CAP_PLAN, and 0 at an arm (R276). -/
def fileClamps (seq : Nat) (d : Dev) (e : Nat) : List PlanClamp → Dev
  | [] => d
  | c :: cs =>
    fileClamps seq (fileReport d (seq % 65536) (0x8000 + e * 8 + c.f) (c.req % 2 ^ 32) (c.app % 2 ^ 32)
      (c.req / 2 ^ 32 != c.app / 2 ^ 32) 11 c.code) e cs

/-- Check the entries from e on; none when one makes the plan invalid. The clamps of the entries already checked are written
back with their reports; the number of reports filed comes beside the state. -/
def checkEntries (v : PlanEnv) (seq off : Nat) : Nat → Nat → Dev × Nat → Dev × Nat × Bool
  | 0, _, (d, r) => (d, r, true)
  | n + 1, e, (d, r) =>
    match checkEntry d v (readEntry d off e) with
    | none => (d, r, false)
    | some (p, cs) =>
      let d := if cs.isEmpty then d else fixTableCrc (fileClamps seq (writeEntry d off e p) e cs) off
      checkEntries v seq off n (e + 1) (d, r + cs.length)

/-- The plan check of R183 on the table at a byte offset, for the write SEQ: the state with its clamps and reports, how many reports were
filed, and whether the plan is valid. -/
def checkPlan (seq : Nat) (d : Dev) (n mode start off : Nat) : Dev × Nat × Bool :=
  if !tableHeaderOk d tyPlan off then (d, 0, false)
  else
    let entries := d.load (tableBase + off + 0x0C) 4
    if entries ≤ start then (d, 0, false)
    else checkEntries ⟨n, mode, entries⟩ seq off entries 0 (d, 0)

/-! ### Tables in use (R265) -/

/-- A table at `off` that passed its check is in use through its naming field, or still used by what runs on it (R265): 0 the capture plan, 1 to 8 the
FIR stages of the four pipes, 9 the kernel, 10 the stripe, 11 the schedule. -/
def tableLive (d : Dev) (off fid : Nat) : Bool :=
  if fid = 0 then
    d.get F.CAP_PLAN_OFFSET * 64 == off || ((d.armed || d.cap.unit.isSome) && d.cap.planOff == off)
  else if fid ≤ 8 then
    let p : Fin 4 := Fin.ofNat 4 ((fid - 1) / 2)
    let f := if fid % 2 = 1 then F.RED_p_FIR_OFF1 p else F.RED_p_FIR_OFF2 p
    let runs (q : Fin 4) : Bool := d.unitState (.red q) != stOff
    d.get f * 64 == off || ((runs p || (p == 0 && d.mode == mFine && [0, 1, 2, 3].any runs)) && d.cfg f * 64 == off)
  else if fid = 9 then
    (d.get F.FOX_KERNEL_KSEL == 2 && d.get F.FOX_KERNEL_OFFSET * 16 == off)
      || (d.cfg F.FOX_KERNEL_KSEL == 2 && d.cfg F.FOX_KERNEL_OFFSET * 16 == off)
  else if fid = 10 then
    (d.flag F.DDR_STRIPE_USE && d.get F.DDR_STRIPE_OFFSET * 64 == off) || d.ddr.table == some off
  else
    let s := d.beaver.sched
    (d.flag F.BEAVER_SCHED_EN && d.get F.BEAVER_SCHED_OFFSET * 64 == off) || ((s.on || s.running) && s.off == off)

/-- A write of bytes [a, a + n) would meet a table in use (R265). -/
def hitsTable (d : Dev) (a n : Nat) : Bool :=
  d.cfgc.tables.any fun (off, len, fid) => tableLive d off fid && decide (a < tableBase + off + len) && decide (tableBase + off < a + n)

/-- A table passed the check of its naming field: earlier tables of the field stay while something still uses them. -/
def useTable (fid ty off : Nat) (d : Dev) : Dev :=
  let kept := d.cfgc.tables.filter (fun t => t.2.2 != fid || (t.1 != off && tableLive d t.1 fid))
  { d with cfgc := { d.cfgc with tables := kept ++ [(off, tableLength d ty (tableBase + off), fid)] } }

/-- A table that fails the check of its naming field is not in use through it. -/
def forgetTable (fid off : Nat) (d : Dev) : Dev :=
  { d with cfgc := { d.cfgc with tables := d.cfgc.tables.filter (fun t => t.2.2 != fid || t.1 != off) } }

end Sys2Proof.Machine
end

