-- ==== Sys2Proof/Machine/Cap.lean ====
section
/-! DEFINITION. CAP's shared operations (chapter 7): the pretrigger ring in capture SRAM, opening and closing units, headers,
slots, leaf numbers. -/
namespace Sys2Proof.Machine

def evRecDone : Nat := 0x2C1
def evSegDone : Nat := 0x2C2
def evAcqDone : Nat := 0x2C3
def evBlockDone : Nat := 0x2C4
def evOverflow : Nat := 0x2C5
def evPlanEnd : Nat := 0x2C6

def flShortPre : Nat := 1
def flClockLost : Nat := 2
def flTbStep : Nat := 4
def flOverflow : Nat := 8
def flOverrange : Nat := 16
def flCalStale : Nat := 32
def flUnreferenced : Nat := 64
def flSpare : Nat := 128
def flAborted : Nat := 256

def allOnes (n : Nat) : Nat := 2 ^ n - 1

/-! ### The ring (R170, R171) and its P10 words (R95) -/

def capCode (d : Dev) (c : Nat) : Dev := d.put F.CAP_STATUS_LAST_CODE c

/-- Where partition i starts, and the address of byte `off` of its circular contents. -/
def ringAddr (n i off : Nat) : Nat := captureBase + i * partitionBytes n + off % partitionBytes n

/-- Store the 10-bit code of stored sample s: its word, and the block marker when it opens a P10 block. -/
def putSample (d : Dev) (n i s : Nat) (code : BitVec 10) : Dev :=
  let a := ringAddr n i (s / 3 * 4)
  let old := if s % 3 = 0 then (if s / 3 % 256 = 0 then 2 ^ 30 else 0) else d.load a 4
  d.store a 4 (old + code.toNat * 2 ^ (10 * (s % 3)))

def getSample (d : Dev) (n i s : Nat) : BitVec 10 :=
  BitVec.ofNat 10 (d.load (ringAddr n i (s / 3 * 4)) 4 / 2 ^ (10 * (s % 3)))

/-- FINE keeps RED's S16 outputs in the partition, two bytes each (R195). -/
def putS16 (d : Dev) (n i s : Nat) (x : Int) : Dev := d.store (ringAddr n i (2 * s)) 2 (encodeSigned 16 x)
def getS16 (d : Dev) (n i s : Nat) : Nat := d.load (ringAddr n i (2 * s)) 2

def putSamples (d : Dev) (n i s : Nat) : List Sample → Dev
  | [] => d
  | x :: xs => putSamples (putSample d n i s x.code) n i (s + 1) xs

/-- The word of a body packed anew (R175): codes c of samples 3w, 3w+1, 3w+2 as far as there are any. -/
def p10Word (w : Nat) (cs : List (BitVec 10)) : Nat :=
  let mark := match cs.length with | 1 => 3 | 2 => 2 | _ => if w % 256 = 0 then 1 else 0
  (cs.zipIdx.foldl (fun acc (c, i) => acc + c.toNat * 2 ^ (10 * i)) 0) + mark * 2 ^ 30

/-- The stored number of sample j of a unit, and the index of the first sample at or after a stored number. -/
def CapUnit.ringOf (u : CapUnit) (j : Nat) : Nat :=
  u.skips.foldl (fun s (p, q) => if p ≤ s then s + (q - p) else s) (u.start + j)
def CapUnit.indexOf (u : CapUnit) (s : Nat) : Nat :=
  s - u.start - (u.skips.foldl (fun acc (p, q) => acc + (if s ≤ p then 0 else min s q - p)) 0)

/-- Samples 3w to 3w+2 of input i of a unit, those the body holds. -/
def bodyCodes (d : Dev) (u : CapUnit) (i w : Nat) : List (BitVec 10) :=
  ((List.range 3).filter (fun j => 3 * w + j < u.samples)).map fun j => getSample d u.inputs.length i (u.ringOf (3 * w + j))

/-- Word w of a unit's body of input i; 0 beyond the last. -/
def bodyWord (d : Dev) (u : CapUnit) (i w : Nat) : Nat :=
  if u.mode = mFine then
    ((List.range 2).filter (fun j => 2 * w + j < u.samples)).foldl
      (fun acc j => acc + getS16 d u.inputs.length i (u.ringOf (2 * w + j)) * 2 ^ (16 * j)) 0
  else match bodyCodes d u i w with
    | [] => 0
    | cs => p10Word w cs

/-! ### Samples, time and flags of a unit -/

def Cap.n (c : Cap) : Nat := c.inputs.length

/-- Samples that every stored input holds. -/
def Cap.have (c : Cap) : Nat :=
  match c.inputs with
  | [] => 0
  | i :: is => is.foldl (fun m j => min m (c.stored.toList.getD j 0)) (c.stored.toList.getD i 0)

/-- The grid index of stored sample s, and the first stored number at or after grid index k, in the present run. -/
def Cap.gridOf (c : Cap) (s : Nat) : Int := c.runGrid + ((s : Int) - c.runStored) * c.runDecim
def Cap.storedOf (c : Cap) (k : Int) : Int := c.runStored - (c.runGrid - k) / c.runDecim

/-- The sum of the timebase's steps that stored sample s precedes (R188). -/
def stepsAfter (d : Dev) (s : Nat) : Int := (d.cap.steps.filter (fun e => s < e.1)).foldl (fun acc e => acc + e.2) 0

/-- The TS of stored sample s, taken before any later step (R112, R188). -/
def storedTS (d : Dev) (s : Nat) : Int := d.sampleTS (d.cap.gridOf s) - stepsAfter d s

/-- A new run begins with stored number s at grid index k: steps that fell into the gap lie before it. -/
def beginRun (d : Dev) (s : Nat) (k : Int) (decim : Nat) : Dev :=
  { d with cap := { d.cap with newRun := false, runGrid := k, runStored := s, runDecim := decim
                               steps := d.cap.steps.map fun e => (min e.1 s, e.2) } }

def orFlags (a b : Nat) : Nat := (BitVec.ofNat 32 a ||| BitVec.ofNat 32 b).toNat

/-- The flags whose condition some stored sample of [a, b) meets (R187). -/
def flagsOver (d : Dev) (a b : Nat) : Nat :=
  (d.cap.marks.filter (fun m => m.1 < b && a ≤ m.2.1)).foldl (fun acc m => orFlags acc m.2.2) 0

/-- Fill in what a unit's samples decide: flags and steps (R187, R188). After a loss of lock only a step that precedes the last
good sample counts (R117). -/
def settleUnit (d : Dev) (u : CapUnit) : CapUnit :=
  let u := { u with flags := orFlags u.flags (if u.samples = 0 then 0 else flagsOver d u.start (u.ringOf (u.samples - 1) + 1)) }
  let stop := if bitsOf u.flags 1 1 = 1 then (match u.lastGood with | some g => g + 1 | none => 0) else u.samples
  let inside := (d.cap.steps.map (fun e => (u.indexOf e.1, e.2))).filter (fun e => 0 < e.1 && e.1 < stop)
  match inside with
  | [] => u
  | e :: _ => { u with flags := orFlags u.flags flTbStep, stepIndex := some e.1, stepSize := e.2, stepCount := min 255 inside.length }

/-- The calibration count at stored sample s (Table 7.5). -/
def calAt (d : Dev) (s : Nat) : Nat :=
  match d.cap.cals.find? (fun e => e.1 ≤ s) with
  | some e => e.2
  | none => (d.rd R.CAL_COUNT).toNat

/-- Stored samples from s on are converted under the present calibration count. -/
def noteCal (d : Dev) (s : Nat) : Dev :=
  let n := (d.rd R.CAL_COUNT).toNat
  if (d.cap.cals.head?.map (·.2)) = some n then d else { d with cap := { d.cap with cals := (s, n) :: d.cap.cals } }

/-! ### Slots of the plan (R181, R182) -/

/-- The entry of the arm's plan that the next slot belongs to (R185). -/
def capEntry (d : Dev) : PlanEntry := d.cap.entries.getD (d.get F.CAP_POS_ENTRY_ENTRY) {}

/-- The plan is exhausted: candidates are not accepted, and EV_PLAN_END is posted (R181). -/
def exhaustPlan (d : Dev) : Dev :=
  let entry := d.get F.CAP_POS_ENTRY_ENTRY
  ((capCode { d with cap := { d.cap with exhausted := true } } 0x0B02).putB F.CAP_STATUS_PLAN_END true).post .c
    evPlanEnd 0 entry

/-- Move to the slot after the one just taken (R181): CAP_POS_SLOT shows the next slot. -/
def nextSlot (d : Dev) : Dev :=
  let s := d.get F.CAP_POS_SLOT_SLOT
  let p := capEntry d
  let d := { d with cap := { d.cap with resumable := true } }
  if s + 1 < p.count then d.put F.CAP_POS_SLOT_SLOT (s + 1)
  else if p.next ≠ 0xFFFF then (d.put F.CAP_POS_ENTRY_ENTRY p.next).put F.CAP_POS_SLOT_SLOT 0
  else if p.wrap then d.put F.CAP_POS_SLOT_SLOT 0
  else exhaustPlan d

/-! ### Headers (Tables 7.5 and 7.7) -/

def tsBytes (t : TS) : List Byte := leBytes 12 t.toNat
def intBytes (n : Nat) (x : Int) : List Byte := leBytes n (encodeSigned (8 * n) x)
def zeros (n : Nat) : List Byte := List.replicate n 0
def optBytes (n : Nat) : Option Nat → List Byte
  | some x => leBytes n x
  | none => leBytes n (allOnes (8 * n))

def inMaskOf (l : List Nat) : Nat := l.foldl (fun acc i => acc + 2 ^ i) 0

def nodeWord (d : Dev) : Nat := (d.ef R.IFL_ADDR).toNat

/-- SEAL of a header: stream and leaf (R477); 0 when unsigned. -/
def sealWord (stream leaf : Nat) : Nat :=
  if leaf = 0 then 0 else 2 ^ 31 + stream % 128 * 2 ^ 24 + (leaf - 1) % 2 ^ 24

def withCrc (bs : List Byte) : List Byte := bs ++ leBytes 4 (crc32 bs).toNat

/-- The 192-byte record header of Table 7.5; `tlist` is what TLIST_ADDR reads. -/
def recordHeader (u : CapUnit) (kind ntrig tlist : Nat) : List Byte :=
  withCrc (leBytes 4 0x52434147 ++ leBytes 2 1 ++ leBytes 2 0xC0 ++ leBytes 1 kind ++ leBytes 1 u.mode ++ leBytes 1 u.arr
    ++ leBytes 1 (inMaskOf u.inputs) ++ leBytes 1 (if u.mode = mFine then 1 else 0) ++ leBytes 1 u.source
    ++ leBytes 2 u.entry ++ leBytes 4 u.flags ++ leBytes 4 u.acq ++ leBytes 8 u.index ++ tsBytes u.tsFirst
    ++ tsBytes u.tsTrig ++ leBytes 8 u.trigIndex ++ leBytes 2 u.trigFrac ++ leBytes 2 ntrig ++ leBytes 4 u.slDiv.toNat
    ++ leBytes 4 u.pre ++ leBytes 4 u.preReq ++ leBytes 8 u.samples ++ leBytes 8 u.lost ++ optBytes 8 u.lastGood
    ++ leBytes 8 u.bodyAddr ++ leBytes 8 u.inStride ++ optBytes 8 u.stepIndex ++ intBytes 8 u.stepSize ++ leBytes 4 u.node
    ++ leBytes 4 u.calCount ++ leBytes 8 tlist ++ leBytes 4 u.decim ++ leBytes 4 u.sealW
    ++ leBytes 1 u.stepCount ++ zeros 3 ++ leBytes 4 u.dropped ++ zeros 20)

/-- The 128-byte segment header of Table 7.7. -/
def segmentHeader (u : CapUnit) : List Byte :=
  withCrc (leBytes 4 u.index ++ leBytes 4 u.flags ++ tsBytes u.tsFirst ++ tsBytes u.tsTrig ++ leBytes 8 u.bodyAddr
    ++ leBytes 4 u.trigIndex ++ leBytes 2 u.trigFrac ++ leBytes 1 u.source ++ leBytes 1 u.stepCount ++ leBytes 4 u.pre
    ++ leBytes 4 u.samples ++ leBytes 4 u.lost ++ optBytes 4 u.lastGood ++ optBytes 4 u.stepIndex ++ leBytes 4 u.acq
    ++ intBytes 8 u.stepSize ++ leBytes 2 u.entry ++ zeros 42)

/-! ### Leaves (R477, R480) -/

/-- Take a leaf number for a unit being closed, while sealing is on: 0 for none, else the number plus 1. -/
def takeLeaf (d : Dev) : Dev × Nat :=
  if d.sealing.on then
    let n := d.get F.HEDGE_LEAF_NEXT_LEAF
    let d := { d with sealing := { d.sealing with wrapped := d.sealing.wrapped || n + 1 == 2 ^ 24 } }
    (d.put F.HEDGE_LEAF_NEXT_LEAF ((n + 1) % 2 ^ 24), n + 1)
  else (d, 0)

/-- Count a leaf that is not hashed; the first since SEAL_SKIP was read posts EV_HEDGE_SEAL_SKIP (R480). -/
def countSkip (d : Dev) (leaf : Nat) : Dev :=
  let d := d.count R.HEDGE_SEAL_SKIP
  if d.sealing.skipNotified then d
  else { d with sealing := { d.sealing with skipNotified := true } }.post .k 0x504 0 leaf

/-- The leaf waits to be hashed. -/
def Leaf.unhashed (l : Leaf) : Bool := l.code == 0 && l.value.isEmpty

def showPend (d : Dev) : Dev := d.put F.HEDGE_SEAL_PEND_UNITS (d.sealing.waiting.filter (·.unhashed)).length

/-- Queue a closed unit's leaf for hashing: with 4,096 already waiting it keeps its number and is skipped (R480). -/
def queueLeaf (d : Dev) (l : Leaf) : Dev :=
  let full := 4096 ≤ (d.sealing.waiting.filter (·.unhashed)).length
  let l := if full then { l with code := 0x1415 } else l
  let d := showPend { d with sealing := { d.sealing with waiting := d.sealing.waiting ++ [l] } }
  if full then countSkip (d.put F.HEDGE_STATUS_LAST_CODE 0x1415) l.num else d

/-- The last unit of an arm has its leaf: once it is hashed, the leaves not yet sealed are (R481). -/
def armEnds (d : Dev) : Dev :=
  { d with sealing := { d.sealing with mark := d.sealing.ready.length + d.sealing.waiting.length } }

/-- A leaf whose header a reset of CAP keeps from being written is lost (R480). -/
def loseLeaf (d : Dev) (l : Leaf) : Dev × Leaf :=
  if l.written || !l.unhashed then (d, l) else (countSkip (d.put F.HEDGE_STATUS_LAST_CODE 0x1416) l.num, { l with code := 0x1416 })

/-- CAP is reset: the leaves of the units it held are lost, and its arm's last unit is the last that has a leaf (R480, R481). -/
def loseLeaves (d : Dev) : Dev :=
  let (d, ls) := d.sealing.waiting.foldl (fun (acc : Dev × List Leaf) l =>
    let (d, l) := loseLeaf acc.1 l
    (d, acc.2 ++ [l])) (d, [])
  armEnds (showPend { d with sealing := { d.sealing with waiting := ls } })

def unitLeaf (d : Dev) (u : CapUnit) (leaf : Nat) : Leaf :=
  { num := leaf - 1, stream := (d.rd R.HEDGE_SEAL_STREAM).toNat, ty := match u.kind with | .record => 1 | .block => 3 | .segment => 4
    hdrAddr := u.hdrAddr, hdrLen := match u.kind with | .segment => 128 | _ => 192
    bodyAddr := u.bodyAddr, inStride := u.inStride, inputs := u.inputs.length, samples := u.samples
    tlistAddr := u.tlistAddr, ntrig := u.tlist.length, hold := u.hold, part := partitionBytes u.inputs.length
    written := false, code := 0 }

/-! ### Level of capture SRAM (R196, Table 7.15) -/

/-- The units whose samples capture SRAM must keep: moving, open, held, being folded. -/
def keptUnits (d : Dev) : List CapUnit :=
  d.cap.moving ++ d.cap.unit.toList ++ d.cap.held.toList ++ d.stk.fold.toList

/-- Samples of a unit, on every input, whose bursts DDR has accepted; STK reads an acquisition from the ring. -/
def movedSamples (u : CapUnit) : Nat :=
  if u.hold || u.mode == mStack then 0 else u.bursts / u.inputs.length * (if u.mode = mFine then 32 else 48)

/-- The stored samples of a unit that capture SRAM must keep: from, to. -/
def keptSpan (d : Dev) (u : CapUnit) : Nat × Nat :=
  let stop := if u.closed then (if u.samples = 0 then u.start else u.ringOf (u.samples - 1) + 1) else max u.start d.cap.have
  (min (u.ringOf (movedSamples u)) stop, stop)

/-- Addresses [a, b) that `len` bytes from offset `off` of a circular partition at `base` occupy. -/
def ringPieces (base size off len : Nat) : List (Nat × Nat) :=
  let o := off % size
  if len = 0 then [] else if size ≤ len then [(base, base + size)]
  else if o + len ≤ size then [(base + o, base + o + len)] else [(base + o, base + size), (base, base + (o + len - size))]

/-- The addresses of stored samples [a, b) of every input: P10 words from the one that holds sample a, or S16. -/
def samplePieces (n : Nat) (fine : Bool) (a b : Nat) : List (Nat × Nat) :=
  let (x, y) := if fine then (2 * a, 2 * b) else (4 * (a / 3), 4 * divUp b 3)
  (List.range n).flatMap fun i => ringPieces (captureBase + i * partitionBytes n) (partitionBytes n) x (y - x)

/-- The addresses that kept units occupy. -/
def keptPieces (d : Dev) : List (Nat × Nat) :=
  (keptUnits d).flatMap fun u =>
    let (a, b) := keptSpan d u
    if b ≤ a then [] else samplePieces u.inputs.length (u.mode == mFine) a b

/-- How many addresses sorted pieces cover; `upTo` is the end of what is counted already. -/
def coverage : Nat → List (Nat × Nat) → Nat
  | _, [] => 0
  | upTo, (a, b) :: ps => (b - max a upTo) + coverage (max b upTo) ps

/-- Bytes of capture SRAM that kept units occupy. -/
def keptBytes (d : Dev) : Nat := coverage 0 ((keptPieces d).mergeSort (fun x y => x.1 ≤ y.1))

/-- `m` more stored samples would overwrite a kept byte (R23). The word that the last sample shares is no overwrite. -/
def wouldOverwrite (d : Dev) (m : Nat) : Bool :=
  let s := d.cap.have
  let new := if d.cap.mode = mFine then samplePieces d.cap.n true s (s + m) else samplePieces d.cap.n false (divUp s 3 * 3) (s + m)
  m != 0 && (keptPieces d).any fun k => new.any fun w => decide (w.1 < k.2) && decide (k.1 < w.2)

/-- Show the level and the high-water mark since the arm. -/
def showLevel (d : Dev) : Dev :=
  let kib := divUp (keptBytes d) 1024
  (d.put F.CAP_SRAM_LEVEL_KIB kib).put F.CAP_SRAM_HWM_KIB (max kib (d.get F.CAP_SRAM_HWM_KIB))

/-! ### Opening and closing units -/

/-- The trigger of an accepted candidate: source, timestamp, position, triggering sample. -/
structure Accept where
  source : Nat
  ts : Nat
  pos : Int
  frac : Nat
  k : Int
deriving DecidableEq, Repr

/-- Pretrigger fill ahead of the triggering sample k (R143). -/
def preFill (d : Dev) (k : Int) : Nat := (d.cap.storedOf k - d.cap.fillFrom).toNat

/-- Open the record or segment of an accepted trigger in the current slot (R174, R178, R182). A position before sample 0 is
written in two's complement: DESIGN CHOICE (log 145). -/
def openUnit (d : Dev) (t : Accept) : Dev :=
  let p := capEntry d
  let c := d.cap
  let n := c.n
  let fill := preFill d t.k
  let st := (c.storedOf t.k).toNat
  let hold := p.hold && c.mode == mSingle
  let pre0 := min p.pre fill
  let start0 := st - pre0
  let start := if hold then max (start0 / 768 * 768) c.fillFrom else start0
  let slot := d.get F.CAP_POS_SLOT_SLOT
  let seg := c.mode == mFrame || c.mode == mStack
  let hdr := p.hdrBase + slot * (if seg then 128 else 192)
  let ringStart := ringAddr n 0 (start / 3 * 4)
  let u : CapUnit :=
    { kind := if seg then .segment else .record
      mode := c.mode, arr := c.arr, inputs := c.inputs
      entry := d.get F.CAP_POS_ENTRY_ENTRY, slot := slot
      index := if seg then c.acq.segments else c.records
      acq := (d.rd R.CAP_ACQ).toNat, source := t.source
      start := start, startK := c.gridOf start, pre := st - start, preReq := p.pre, need := st - start + p.post
      flags := if fill < p.pre then flShortPre else 0
      tsFirst := BitVec.ofInt 96 (storedTS d start), tsTrig := BitVec.ofNat 96 t.ts
      trigIndex := encodeSigned 64 (t.pos - c.gridOf start), trigFrac := t.frac
      bodyAddr := if hold then ringStart else p.bodyBase + slot * p.bodyStride
      inStride := if hold then partitionBytes n else p.inStride
      hdrAddr := hdr, slDiv := d.ef R.STAG_SL_DIV, calCount := calAt d start
      hold := hold, keep := c.mode ≠ mStack || p.keep }
  let d := if p.hold && c.mode ≠ mSingle then capCode d 0x0B05 else d
  nextSlot { d with cap := { d.cap with unit := some u } }

/-- Begin the next stream block at stored sample s (R193, R196). -/
def openBlock (d : Dev) (s : Nat) (decim : Nat) (startK : Int) (ts : Int) : Dev :=
  let c := d.cap
  let p := c.entries.getD c.startEntry {}
  let slot := c.blocks % p.count
  let u : CapUnit :=
    { kind := .block, mode := c.mode, arr := c.arr, inputs := c.inputs, entry := c.startEntry, slot := slot
      index := c.blocks, acq := (d.rd R.CAP_ACQ).toNat, source := 0xFF, start := s, startK := startK, pre := 0, preReq := p.pre
      need := p.post, flags := if c.pendLost = 0 then 0 else flOverflow, lost := c.pendLost, dropped := c.pendDrop
      tsFirst := BitVec.ofInt 96 ts, bodyAddr := p.bodyBase + slot * p.bodyStride, inStride := p.inStride
      hdrAddr := p.hdrBase + slot * 192, tlistAddr := p.tbase + slot * (p.tmax * 16), tlistMax := p.tmax
      slDiv := d.ef R.STAG_SL_DIV, calCount := calAt d s, decim := decim, ringCount := p.count }
  let d := if p.hold then capCode d 0x0B05 else d
  let d := (d.put F.CAP_POS_ENTRY_ENTRY c.startEntry).put F.CAP_POS_SLOT_SLOT ((slot + 1) % p.count)
  { d with cap := { d.cap with unit := some u, blocks := c.blocks + 1, pendLost := 0, pendDrop := 0, needBlock := false,
                               resumable := true } }

/-- The acquisition under way has ended: its header waits for its segments (R191). -/
def endAcq (d : Dev) : Dev :=
  if d.cap.acq.active then
    { d with cap := { d.cap with ended := d.cap.ended ++ [{ d.cap.acq with ending := true }], acq := {} } }
  else d

/-- A stream block that holds no sample is none (R193). -/
def dropBlock (d : Dev) (u : CapUnit) : Dev :=
  ({ d with cap := { d.cap with unit := none, blocks := d.cap.blocks - 1 } }).put F.CAP_POS_SLOT_SLOT u.slot

/-- A closed segment counts in its acquisition (R191). -/
def AcqAcc.addSegment (a : AcqAcc) (u : CapUnit) : AcqAcc :=
  { a with segments := a.segments + 1, flags := orFlags a.flags u.flags, samples := a.samples + u.samples, lost := a.lost + u.lost
           steps := min 255 (a.steps + u.stepCount), first := if a.first.isNone then some u else a.first
           lastHdr := u.hdrAddr, lastSaid := false }

/-- The inputs of an arm that waited for the unit now closed (R170): a new ring begins. -/
def takeInputs (d : Dev) : Dev :=
  match d.cap.nextInputs with
  | none => d
  | some l =>
    let s := 768 * divUp d.cap.have 768
    { d with cap := { d.cap with nextInputs := none, inputs := l, stored := Vector.replicate 4 s, newRun := true, fillFrom := s } }

/-- Close the open unit with so many samples and extra flags: fix its header fields and hand it to the move queue (R176,
R196 to R199). `good` is the index of the last good sample. -/
def closeUnit (d : Dev) (samples : Nat) (extra : Nat) (lost : Nat) (good : Option Nat) : Dev :=
  match d.cap.unit with
  | none => d
  | some u =>
    let u := settleUnit d { u with samples := samples, flags := orFlags u.flags extra, lost := u.lost + lost,
                                   lastGood := good, closed := true }
    let (d, leaf) := if u.keep then takeLeaf d else (d, 0)
    let u := { u with leaf := leaf, node := nodeWord d, sealW := sealWord (d.rd R.HEDGE_SEAL_STREAM).toNat leaf }
    let d := if leaf = 0 then d else queueLeaf d (unitLeaf d u leaf)
    let seg := u.kind == CapKind.segment
    let cap := d.cap
    let cap := if !seg then cap
      else if u.acq = cap.acq.num then { cap with acq := cap.acq.addSegment u }
      else { cap with ended := cap.ended.map (fun a => if a.num = u.acq then a.addSegment u else a) }
    let d := { d with cap := { cap with unit := none, records := if u.kind == CapKind.record then cap.records + 1 else cap.records } }
    let d := d.wr64 R.CAP_LOST_LO (d.rd64 R.CAP_LOST_LO + lost)
    let d := if u.hold then
        ({ d with cap := { d.cap with held := some u, heads := d.cap.heads ++ [u] } }).putB F.CAP_STATUS_HOLDING true
      else if u.keep then { d with cap := { d.cap with moving := d.cap.moving ++ [u] } }
      else d
    let d := takeInputs d
    let own := seg && u.acq = d.cap.acq.num
    if own && (d.cap.acq.segments == 2 ^ 24 || d.cap.exhausted || d.cap.acq.ending) then endAcq d else d

/-- The samples of the open unit that are stored so far. -/
def openSamples (d : Dev) : Nat :=
  match d.cap.unit with
  | none => 0
  | some u => min u.need (u.indexOf d.cap.have)

/-- CAP holds an open record, segment or stream (R108, R110). -/
def capOpen (d : Dev) : Bool :=
  d.cap.unit.isSome || (d.cap.armed && (d.cap.mode == mStream || d.cap.mode == mFine))

/-- Mark the stored samples [a, b] with flag bits. -/
def addMark (d : Dev) (a b f : Nat) : Dev :=
  if f = 0 then d else { d with cap := { d.cap with marks := d.cap.marks ++ [(a, b, f)] } }

end Sys2Proof.Machine
end

