-- ==== Sys2Proof/Machine/Conv.lean ====
section
/-! DEFINITION. CONV and ILV (chapter 3): trim sets, application points, the estimator, slow and failed sub-converters, the
spare. -/
namespace Sys2Proof.Machine

def evOverrange : Nat := 0x081
def evIlvProposal : Nat := 0x0C1
def evTrimApplied : Nat := 0x0C2
def evSubconvFlag : Nat := 0x0C3
def evSpareSwap : Nat := 0x0C4
def evConvDegraded : Nat := 0x0C5

/-! ### Trim sets (R79): the registers of the set of arrangement s are kept under these keys -/

def setKey (s a : Nat) : Nat := a + s * 2 ^ 32
def retireKey (s b : Nat) : Nat := R.ILV_b_SPARE b + (s + 1) * 2 ^ 32

/-- A trim register of CONV. -/
def isTrim (a : Nat) : Bool :=
  let o := a - R.CONV_b_STATUS 0
  R.CONV_b_STATUS 0 ≤ a && o < 0x4000 && (o % 0x1000 == 8 || (0x100 ≤ o % 0x1000 && o % 0x1000 < 0x300))

/-- The key under which a trim register of the addressed set is kept. -/
def trimKey (d : Dev) (a : Nat) : Nat := if isTrim a then setKey d.conv.addressed.val a else a

/-- The retired slot of a bank in set s: committed or written by ILV, and in effect. 63 is none. -/
def retireOf (d : Dev) (s b : Nat) : Nat := (d.rd (retireKey s b)).toNat % 64
def ilvCode (d : Dev) (c : Nat) : Dev := d.put F.ILV_STATUS_LAST_CODE c

/-- Bits of the banks that serve an input (Table 2.2). -/
def banksOf (arr inp : Nat) : List Nat :=
  match arr with
  | 0 => [inp]
  | 1 => [inp, inp + 1]
  | _ => [0, 1, 2, 3]

def inputOfBank (arr b : Nat) : Nat :=
  match arr with
  | 0 => b
  | 1 => b / 2 * 2
  | _ => 0

/-! ### The spare (R75, R90 to R92) -/

/-- The physical sub-converter that serves a slot of a bank, and those in service. -/
def servedBy (d : Dev) (b slot : Nat) : Nat := if d.get (F.ILV_b_SPARE_ACTIVE b) = slot then 32 else slot
def inService (d : Dev) (b : Nat) : List Nat := (List.range 32).map (servedBy d b)

/-- ILV_b_SPARE.USE: the highest of the spare's present uses (R75); in SENTRY it serves no slot (R74). -/
def spareUse (d : Dev) (b : Fin 4) : Nat :=
  if (d.owlSvc.get b).isSome then 2
  else if d.mode = mSentry then 0
  else if d.get (F.ILV_b_SPARE_ACTIVE b) ≠ 63 then 3
  else if (d.conv.shadow.get b).isSome then 1 else 0

/-- Begin to shadow a slot, unless the spare has done so or is at it (R90). DEDUCED (log 140): the shadow that R91 asks for before
a change from one retired slot to another runs while the spare serves the old one. -/
def beginShadow (d : Dev) (b : Fin 4) (slot : Nat) : Dev :=
  if d.get (F.ILV_b_SPARE_SHADOW b) = slot && (d.flag (F.ILV_b_SPARE_SHADOW_READY b) || (d.conv.shadow.get b).isSome) then d
  else
    let d := (d.put (F.ILV_b_SPARE_SHADOW b) slot).putB (F.ILV_b_SPARE_SHADOW_READY b) false
    { d with conv := { d.conv with shadow := d.conv.shadow.set b.val (some (slot, 0)) } }

/-- Ask for a swap in the set in use (R89, R90): the spare shadows the slot first unless it has already done so; the swap waits.
A newer request for the bank replaces the older one. -/
def requestSwap (d : Dev) (b : Fin 4) (slot : Nat) : Dev :=
  let others := d.conv.swaps.filter (fun s => !(s.bank == b && s.set == d.arr))
  let ask (d : Dev) : Dev := { d with conv := { d.conv with swaps := others ++ [⟨b, slot, d.arr⟩] } }
  if slot = d.get (F.ILV_b_SPARE_ACTIVE b) then { d with conv := { d.conv with swaps := others } }
  else if slot ≥ 32 then ask d
  else
    let d := beginShadow (ask d) b slot
    if d.flag (F.ILV_b_SPARE_SHADOW_READY b) then d else ilvCode d 0x0301

/-- RETIRE is committed for the set of an arrangement that is not in use (R79): its swap waits for that arrangement. -/
def requestLater (d : Dev) (b : Fin 4) (slot set : Nat) : Dev :=
  { d with conv := { d.conv with swaps := d.conv.swaps.filter (fun s => !(s.bank == b && s.set == set)) ++ [⟨b, slot, set⟩] } }

/-- Carry out a bank's waiting swap at an application point, when its shadow is ready: the slot map, and the spare's trims that
come into service with it (R82, R90, R91). -/
def doSwap (d : Dev) (s : Swap) : Dev :=
  let b := s.bank.val
  let set := d.arr
  let gone := { d with conv := { d.conv with swaps := d.conv.swaps.filter (fun x => x != s) } }
  let serve (v : Nat) (d : Dev) : Dev :=
    let w := BitVec.ofNat 32 v
    (((d.wr (retireKey set b) w).efw (retireKey set b) w).put (F.ILV_b_SPARE_ACTIVE b) v).post .c evSpareSwap b v
  if s.slot ≥ 32 then
    if d.get (F.ILV_b_SPARE_ACTIVE b) = 63 then gone else serve 63 gone
  else if d.get (F.ILV_b_SPARE_SHADOW b) = s.slot && d.flag (F.ILV_b_SPARE_SHADOW_READY b) then
    let ka := setKey set (R.CONV_b_TRIMA b 32)
    let kb := setKey set (R.CONV_b_TRIMB b 32)
    serve s.slot ((gone.efw ka (d.rd ka)).efw kb (d.rd kb))
  else d

def doSwaps (d : Dev) : List Swap → Dev
  | [] => d
  | s :: ss => doSwaps (doSwap d s) ss

/-- The spare at the entry into an arrangement: shadows of the other arrangement end, and the swaps that wait for this one take
theirs (R79, R90). -/
def arrangeSwaps (d : Dev) : Dev :=
  let d := { d with conv := { d.conv with shadow := Vector.replicate 4 none } }
  let d := ([0, 1, 2, 3] : List (Fin 4)).foldl (fun d b => d.putB (F.ILV_b_SPARE_SHADOW_READY b) false) d
  (d.conv.swaps.filter (fun s => s.set == d.arr)).foldl (fun d s => requestSwap d s.bank s.slot) d

/-! ### Application points (R81, R82) -/

/-- A code moved toward a target by at most `m` codes; the whole way when m is 0 (R86). -/
def stepToward (m : Nat) (x y : Int) : Int := if m = 0 then y else clampInt (x - m) (x + m) y

/-- A trim word with two signed fields moved toward a proposal's. -/
def moveWord (w : Word) (m hi1 lo1 hi0 lo0 : Nat) (y1 y0 : Int) : Word :=
  let v := w.toNat
  let x1 := signedOf (hi1 + 1 - lo1) (bitsOf v hi1 lo1)
  let x0 := signedOf (hi0 + 1 - lo0) (bitsOf v hi0 lo0)
  let v := setBits v hi1 lo1 (encodeSigned (hi1 + 1 - lo1) (stepToward m x1 y1))
  BitVec.ofNat 32 (setBits v hi0 lo0 (encodeSigned (hi0 + 1 - lo0) (stepToward m x0 y0)))

/-- Apply one proposal to the words that no higher source names (R82, R86). -/
def applyProposal (m : Nat) (named : List Nat) (d : Dev) (p : TrimProp) : Dev :=
  let ka := setKey d.arr (R.CONV_b_TRIMA p.bank p.sub)
  let kb := setKey d.arr (R.CONV_b_TRIMB p.bank p.sub)
  let d := if named.contains ka then d else d.efw ka (moveWord (d.ef ka) m 25 16 9 0 p.gain p.offset)
  if named.contains kb then d else d.efw kb (moveWord (d.ef kb) m 24 16 5 0 p.skew p.bw)

/-- The trim words in effect for a bank in a set, for telling whether an application point changed them. -/
def bankTrims (d : Dev) (set b : Nat) : List (Nat × Word) :=
  d.eff.filter fun e =>
    let a := e.1 % 2 ^ 32
    e.1 / 2 ^ 32 == set && isTrim a && (a - R.CONV_b_STATUS 0) / 0x1000 == b

/-! ### The live trim image's stored part (R332) -/

def calSetBase (s : Nat) : Nat := 0x400 + 0x800 * s

def putLive (d : Dev) (a : Nat) : List Byte → Dev
  | [] => d
  | b :: bs => putLive { d with cal := { d.cal with live := Store.set zeroByte d.cal.live a b } } (a + 1) bs

def liveBytes (d : Dev) (a : Nat) : Nat → List Byte
  | 0 => []
  | n + 1 => Store.get zeroByte d.cal.live a :: liveBytes d (a + 1) n

def setValid (s : Nat) (on : Bool) (d : Dev) : Dev :=
  d.put F.CAL_STATUS_SET_VALID (setBits (d.get F.CAL_STATUS_SET_VALID) s s on.toNat)

/-- The slot map of a bank follows its retired slot of the set in use (R79, R93). -/
def followRetire (say : Bool) (d : Dev) (b : Nat) : Dev :=
  let r := (d.ef (retireKey d.arr b)).toNat % 64
  let slot := if r < 32 then r else 63
  if d.get (F.ILV_b_SPARE_ACTIVE b) = slot then d
  else
    let d := d.put (F.ILV_b_SPARE_ACTIVE b) slot
    if say then d.post .c evSpareSwap b slot else d

/-- The restored set in use takes effect with its trims (R335). -/
def takeNextSet (d : Dev) : Dev :=
  match d.cal.nextSet with
  | none => d
  | some (s, bs) =>
    let d := setValid s true (putLive { d with cal := { d.cal with nextSet := none } } (calSetBase s) bs)
    [0, 1, 2, 3].foldl (followRetire true) d

/-- The banks of a set whose trims or slot map differ between two states. -/
def banksChanged (set : Nat) (d e : Dev) : BitVec 4 :=
  ([0, 1, 2, 3] : List (Fin 4)).foldl (fun acc b =>
    let b := b.val
    if bankTrims d set b = bankTrims e set b && d.ef (retireKey set b) = e.ef (retireKey set b) then acc else acc ||| (1#4 <<< b)) 0

/-- Note the banks whose trims changed from `d` to `e` with no vector to say so (R83). -/
def owe (set : Fin 3) (d e : Dev) : Dev :=
  { e with conv := { e.conv with owed := e.conv.owed.set set.val (e.conv.owed.get set ||| banksChanged set.val d e) } }

/-- The estimator window in progress ends without a proposal and a new one starts (R87). -/
def estRestart (d : Dev) : Dev :=
  { d with conv := { d.conv with window := 0, estTail := Vector.replicate 4 none
                                 est := d.conv.est.map fun e => { e with hits := [] } } }

/-- An application point (R81): committed trims, then proposals for the fields no commit names, then swaps whose shadow is ready
take effect together; a CAL result's retired slot stands before a swap of its bank (R82). A change posts EV_TRIM_APPLIED with the
TS of the first vector under the new codes, restarts the estimator (R87), and pretrigger fill counts from here (R143). What
MAXSTEP cuts off a proposal is not kept for the point after: DESIGN CHOICE (log 141). Answers the bitmap of banks that changed. -/
def applyTrims (d : Dev) (ts : Int) : Dev × Nat :=
  let named := (d.cfgc.parts.filter (fun w => w.tgt == .trims)).map CfgWord.addr ++ d.conv.calSet.map (·.1)
  let d1 := if hasPart d .trims then applyUnit d .trims else d
  let d1 := takeNextSet (d1.conv.calSet.foldl (fun d w => (d.wr w.1 w.2).efw w.1 w.2) d1)
  let d2 := d1.conv.proposals.foldl (applyProposal (d.cfg F.ILV_CTRL_MAXSTEP) named) d1
  let swaps := d2.conv.swaps.filter (fun s => !(s.set == d.arr && named.contains (retireKey d.arr s.bank)))
  let d3 := doSwaps { d2 with conv := { d2.conv with proposals := [], calSet := [], swaps := swaps } }
    (swaps.filter (fun s => s.set == d.arr))
  let set := d.conv.owed.toList.getD d.arr 0
  let bits := banksChanged d.arr d d3 ||| set
  if bits = 0 then (d3, 0)
  else
    let owed := d3.conv.owed.zipIdx.map (fun (x, i) => if i = d.arr then 0#4 else x)
    let d4 := estRestart { d3 with conv := { d3.conv with owed := owed }, cap := { d3.cap with fillFrom := d3.cap.have } }
    (d4.post .c evTrimApplied bits.toNat 0 (some (BitVec.ofInt 96 ts)), bits.toNat)

/-- Something waits for a trim application point. -/
def trimsWaiting (d : Dev) : Bool :=
  hasPart d .trims || !d.conv.calSet.isEmpty || !d.conv.proposals.isEmpty || !d.conv.swaps.isEmpty
    || d.conv.owed.toList.getD d.arr 0 ≠ 0

/-- ILV_STATUS.PENDING: the banks that have trims or a swap staged for the next application point. -/
def ilvPending (d : Dev) : BitVec 4 :=
  let bit (acc : BitVec 4) (b : Nat) : BitVec 4 := acc ||| (1#4 <<< b)
  let bankOf (k : Nat) : Nat := k % 2 ^ 32 % 0x100000 / 0x1000
  let acc := (d.cfgc.parts.filter (fun w => w.tgt == .trims)).foldl (fun acc w => bit acc (bankOf w.addr)) 0
  let acc := d.conv.calSet.foldl (fun acc w => if isTrim (w.1 % 2 ^ 32) then bit acc (bankOf w.1) else acc) acc
  let acc := d.conv.proposals.foldl (fun acc p => bit acc p.bank.val) acc
  (d.conv.swaps.filter (fun s => s.set == d.arr)).foldl (fun acc s => bit acc s.bank.val) acc

/-- The trim registers address the set of an arrangement (R79). -/
def addressSet (arr : Nat) (d : Dev) : Dev := { d with conv := { d.conv with addressed := Fin.ofNat 3 arr } }

/-- The arrangement becomes `arr`: its set's slot maps, swaps and trims hold, and the estimator starts a new window (R79, R87). -/
def enterArr (arr : Nat) (d : Dev) : Dev :=
  let e := addressSet arr (d.put F.GLB_MODE_STATUS_CUR_ARR arr)
  if arr = d.arr then e else estRestart (arrangeSwaps ([0, 1, 2, 3].foldl (followRetire false) e))

/-! ### The estimator (R84 to R88) -/

/-- Whether ILV's estimator runs: enabled, in a capture mode (Table 2.3), its unit ON. -/
def estimating (d : Dev) : Bool := d.cfgB F.ILV_CTRL_EST_EN && isCapture d.mode

/-- Conversions that a vector holds of each sub-converter of its input. -/
def perVector (arr : Nat) : Nat := match arr with | 0 => 8 | 1 => 4 | _ => 2

/-- One more conversion of a sub-converter that the estimator counts. -/
def EstSub.take (e : EstSub) (c : Int) : EstSub :=
  { last := some c, run := if e.last = some c then e.run + 1 else 1
    hits := if e.hits.any (·.1 = c) then e.hits.map (fun h => if h.1 = c then (h.1, h.2 + 1) else h) else e.hits ++ [(c, 1)] }
def EstSub.times (e : EstSub) (c : Int) : Nat := ((e.hits.find? (·.1 = c)).map (·.2)).getD 0

/-- The place in `est` of the sub-converter that takes sample m of an input (R72). -/
def estKey (d : Dev) (inp m : Nat) : Fin 132 :=
  let b := sampleBank d.arr inp m
  Fin.ofNat 132 (33 * b + servedBy d b (sampleSlot d.arr m))

/-- Samples of a vector from position m on, but its last, whose later neighbour is not there yet: overranged ones and their
neighbours are left out (R84). -/
def estSamples (key : Nat → Fin 132) : Nat → Bool → List Sample → Vector EstSub 132 → Vector EstSub 132
  | m, before, x :: y :: rest, v =>
    let v := if x.ovr || before || y.ovr then v else v.set (key m).val ((v.get (key m)).take x.code.toInt)
    estSamples key (m + 1) x.ovr (y :: rest) v
  | _, _, _, v => v

/-- The estimator sees an input's vector (R84). -/
def estVector (inp : Fin 4) (xs : List Sample) (d : Dev) : Dev :=
  if !estimating d then d
  else
    let ovrAt (m : Nat) : Bool := (xs[m]?).any (·.ovr)
    let tail := d.conv.estTail.get inp
    let v := match tail with
      | some t => if t.skip || ovrAt 0 then d.conv.est else d.conv.est.set t.key.val ((d.conv.est.get t.key).take t.code)
      | none => d.conv.est
    let v := estSamples (estKey d inp) 0 (tail.any (·.ovr)) xs v
    let t := xs.getLast?.map fun x => (⟨estKey d inp (xs.length - 1), x.code.toInt, x.ovr || ovrAt (xs.length - 2), x.ovr⟩ : EstTail)
    { d with conv := { d.conv with est := v, estTail := d.conv.estTail.set inp.val t } }

/-- A span of vectors counts toward the estimator's window and toward every shadow that no OWL service suspends (R76, R84). -/
def estSpan (d : Dev) : Dev :=
  if !isCapture d.mode then d
  else
    let n := perVector d.arr
    let shadow := d.conv.shadow.zipIdx.map fun (x, b) =>
      if (d.owlSvc.toList.getD b none).isSome then x else x.map fun s => (s.1, s.2 + n)
    { d with conv := { d.conv with shadow := shadow, window := if estimating d then d.conv.window + n else d.conv.window } }

/-- The proposal's codes clamped to Table 3.2, and whether the clamp makes the sub-converter FAILED (R88). -/
def clampProp (p : TrimProp) : TrimProp × Bool :=
  let q := { p with offset := clampInt (-512) 511 p.offset, gain := clampInt (-512) 511 p.gain
                    bw := clampInt (-32) 31 p.bw, skew := clampInt (-200) 200 p.skew }
  (q, p.offset ≠ q.offset || p.gain ≠ q.gain || p.skew ≠ q.skew)

def propWordA (p : TrimProp) : Word := BitVec.ofNat 32 (encodeSigned 10 p.gain * 2 ^ 16 + encodeSigned 10 p.offset)
def propWordB (p : TrimProp) : Word := BitVec.ofNat 32 (encodeSigned 9 p.skew * 2 ^ 16 + encodeSigned 6 p.bw)

/-- Publish one sub-converter's proposal in ILV_b_PROPA(k) and ILV_b_PROPB(k). -/
def publishOne (d : Dev) (p : TrimProp) : Dev :=
  let (q, lim) := clampProp p
  let d := (d.wr (R.ILV_b_PROPA p.bank p.sub) (propWordA q)).wr (R.ILV_b_PROPB p.bank p.sub) (propWordB q)
  if lim then ilvCode d 0x0304 else d

/-- How the estimator classified one physical sub-converter at a window's end (R88). -/
structure SubFlag where
  bank : Fin 4
  sub : Nat
  slow : Bool
  failed : Bool
deriving DecidableEq, Repr

/-- Whether a sub-converter was SLOW, and FAILED, before this window. -/
def wasFlagged (d : Dev) (f : SubFlag) : Bool × Bool :=
  if f.sub < 32 then
    ((d.rd (R.ILV_b_SLOW f.bank)).getLsbD f.sub, (d.rd (R.ILV_b_FAIL f.bank)).getLsbD f.sub)
  else d.conv.spareWas.get f.bank

/-- Respond to a newly flagged sub-converter under ILV_CTRL.SWAP (R89); no swap while the spare serves (R92). A second
sub-converter flagged while its bank's swap waits gets no swap: DESIGN CHOICE (log 141). -/
def respondFlag (d : Dev) (f : SubFlag) : Dev :=
  let b := f.bank
  let want := (f.failed && d.cfg F.ILV_CTRL_SWAP ≥ 1) || (f.slow && d.cfg F.ILV_CTRL_SWAP ≥ 2)
  if d.get (F.ILV_b_SPARE_ACTIVE b) ≠ 63 then
    ((ilvCode d 0x0302).putB (F.ILV_b_SPARE_DEGRADED b) true).post .c evConvDegraded b f.sub
  else if want && f.sub < 32 && !(d.conv.swaps.any (fun s => s.bank == b && s.set == d.arr)) then requestSwap d b f.sub
  else d

/-- Show one classification and post EV_SUBCONV_FLAG when it is new (R88): SLOW and SPARE_FLAG are the latest window's, FAIL
stays until it is cleared. -/
def classify (d : Dev) (f : SubFlag) : Dev :=
  let was := wasFlagged d f
  let isNew := (f.slow && !was.1) || (f.failed && !was.2)
  let b := f.bank.val
  let d := if f.sub < 32 then
      let d := d.wr (R.ILV_b_SLOW b) (if f.slow then d.rd (R.ILV_b_SLOW b) ||| (1#32 <<< f.sub)
                                      else d.rd (R.ILV_b_SLOW b) &&& ~~~(1#32 <<< f.sub))
      if f.failed then d.wr (R.ILV_b_FAIL b) (d.rd (R.ILV_b_FAIL b) ||| (1#32 <<< f.sub)) else d
    else { d with conv := { d.conv with spareWas := d.conv.spareWas.set f.bank.val (f.slow, f.failed) } }.putB (F.ILV_b_SPARE_SPARE_FLAG b)
        (f.slow || f.failed)
  if isNew then
    respondFlag (d.post .c evSubconvFlag b (f.sub + f.slow.toNat * 256 + f.failed.toNat * 512)) f
  else d

/-- The sub-converters of an input in the order of its samples (Table 3.1), as places in `est`. -/
def estOrder (d : Dev) (inp : Nat) : List (Fin 132) :=
  (List.range (32 * (banksOf d.arr inp).length)).map (estKey d inp)

/-- Delivers one code for 65,536 conversions running while another sub-converter of its input varies; `order` is the input's. -/
def stuck (d : Dev) (order : List (Fin 132)) (k : Fin 132) : Bool :=
  65536 ≤ (d.conv.est.get k).run && order.any (fun j => (d.conv.est.get j).run < 65536)

/-- Misses a code that its two neighbours in the input's sample order hit together more than 64 times in the window. DESIGN
CHOICE (log 142): the neighbours, and that their hits add. -/
def missesCode (d : Dev) (order : List (Fin 132)) (p : Nat) (k : Fin 132) : Bool :=
  let n := order.length
  let x := d.conv.est.get (order.getD ((p + n - 1) % n) 0)
  let y := d.conv.est.get (order.getD ((p + 1) % n) 0)
  let e := d.conv.est.get k
  (x.hits ++ y.hits).any fun h => 64 < x.times h.1 + y.times h.1 && e.times h.1 = 0

/-- The class of every sub-converter of an input at a window's end, with each bank's spare where it shadowed (R88). `limit` are
those whose proposal needed a trim beyond its range. -/
def classesOf (d : Dev) (leaks : List SubLeak) (limit : List (Fin 4 × Nat)) (inp : Nat) : List SubFlag :=
  let order := estOrder d inp
  let slow (b : Fin 4) (k : Nat) : Bool :=
    leaks.any (fun l => l.bank == b && l.sub == k && d.cfg F.ILV_CTRL_SLOW_TH * 2 ^ 10 < l.leak)
  let served := order.zipIdx.map fun (k, p) =>
    let b : Fin 4 := Fin.ofNat 4 (k.val / 33)
    let s := k.val % 33
    (⟨b, s, slow b s, stuck d order k || missesCode d order p k || limit.contains (b, s)⟩ : SubFlag)
  let shadowing : List (Fin 4) := ((banksOf d.arr inp).map (Fin.ofNat 4)).filter fun b =>
    d.get (F.ILV_b_SPARE_ACTIVE b) = 63 && (d.conv.shadow.get b).isSome
  served ++ shadowing.map fun b => ⟨b, 32, slow b 32, leaks.any (fun l => l.bank == b && l.sub == 32 && l.failed)⟩

/-- The proposals of one input are a full set: one for every sub-converter in service, and none else (R85). -/
def propsComplete (d : Dev) (banks : List Nat) (mine : List TrimProp) : Bool :=
  mine.length == 32 * banks.length
    && banks.all fun b => (inService d b).all fun k => mine.any (fun p => p.bank.val == b && p.sub == k)

/-- They leave the mean of each trim field unchanged to within one code (R85). -/
def keepsMean (d : Dev) (mine : List TrimProp) : Bool :=
  let wordA (p : TrimProp) : Nat := (d.ef (setKey d.arr (R.CONV_b_TRIMA p.bank p.sub))).toNat
  let wordB (p : TrimProp) : Nat := (d.ef (setKey d.arr (R.CONV_b_TRIMB p.bank p.sub))).toNat
  let now (p : TrimProp) : TrimProp :=
    { p with gain := signedOf 10 (bitsOf (wordA p) 25 16), offset := signedOf 10 (bitsOf (wordA p) 9 0)
             skew := signedOf 9 (bitsOf (wordB p) 24 16), bw := signedOf 6 (bitsOf (wordB p) 5 0) }
  let held (f : TrimProp → Int) : Bool :=
    decide ((mine.foldl (fun acc p => acc + (f (clampProp p).1 - f (now p))) 0).natAbs ≤ mine.length)
  held (·.gain) && held (·.offset) && held (·.skew) && held (·.bw)

/-- QUAL of an input at a window's end, and the proposals that are its own. -/
def qualOf (quals : List Nat) (inp : Nat) : Nat := min 255 (quals.getD inp 0)
def propsOf (d : Dev) (props : List TrimProp) (inp : Nat) : List TrimProp :=
  props.filter (fun p => (banksOf d.arr inp).contains p.bank.val)

/-- What the estimator computed can be: every input that publishes has its full set, which keeps the means (R85). -/
def windowOk (quals : List Nat) (props : List TrimProp) (d : Dev) : Bool :=
  (sampledInputs d.arr).all fun inp =>
    qualOf quals inp < d.cfg F.ILV_CTRL_QUAL_MIN
      || (propsComplete d (banksOf d.arr inp) (propsOf d props inp) && keepsMean d (propsOf d props inp))

/-- One input's part of a window end (R85, R86): a newer proposal replaces a staged one. -/
def windowInput (quals : List Nat) (props : List TrimProp) (d : Dev) (inp : Nat) : Dev :=
  let q := qualOf quals inp
  let banks := banksOf d.arr inp
  let d := banks.foldl (fun d b =>
    (d.put (F.ILV_b_EST_QUAL b) q).put (F.ILV_b_EST_WINDOWS b) ((d.get (F.ILV_b_EST_WINDOWS b) + 1) % 65536)) d
  if q < d.cfg F.ILV_CTRL_QUAL_MIN then ilvCode d 0x0303
  else
    let mine := propsOf d props inp
    let d := mine.foldl publishOne d
    let bits := banks.foldl (fun acc b => acc + 2 ^ b) 0
    let d := d.post .c evIlvProposal bits (d.get (F.ILV_b_EST_WINDOWS (banks.getD 0 0)))
    if d.cfgB F.ILV_CTRL_APPLY then
      let kept := d.conv.proposals.filter (fun p => !banks.contains p.bank.val)
      { d with conv := { d.conv with proposals := kept ++ mine.map (fun p => (clampProp p).1) } }
    else d

/-- EST_WINDOW_END (R84 to R92): 2^WIN conversions are in. `quals` per input, `leaks` per sub-converter measured, `props`
absolute codes before their clamps. -/
def windowEnd (quals : List Nat) (leaks : List SubLeak) (props : List TrimProp) (d : Dev) : Dev :=
  let len := 2 ^ d.cfg F.ILV_CTRL_WIN
  if !(estimating d && len ≤ d.conv.window && windowOk quals props d) then d
  else
    let limit (inp : Nat) : List (Fin 4 × Nat) :=
      if qualOf quals inp < d.cfg F.ILV_CTRL_QUAL_MIN then []
      else ((propsOf d props inp).filter (fun p => (clampProp p).2)).map (fun p => (p.bank, p.sub))
    let flags := (sampledInputs d.arr).flatMap fun inp => classesOf d leaks (limit inp) inp
    let d := flags.foldl classify ((sampledInputs d.arr).foldl (windowInput quals props) d)
    { d with conv := { d.conv with window := d.conv.window - len, est := d.conv.est.map fun e => { e with hits := [] } } }

/-- SHADOW_END (R90): the spare has shadowed its slot for one window; its trims for the slot are written and shown in the
spare's proposal registers, and take effect with the swap (R82). -/
def shadowEnd (b : Fin 4) (trima trimb : Word) (d : Dev) : Dev :=
  match d.conv.shadow.get b with
  | none => d
  | some (_, n) =>
    if n < 2 ^ d.cfg F.ILV_CTRL_WIN || (d.owlSvc.get b).isSome then d
    else
      let d := (d.wr (setKey d.arr (R.CONV_b_TRIMA b 32)) trima).wr (setKey d.arr (R.CONV_b_TRIMB b 32)) trimb
      let d := (d.wr (R.ILV_b_PROPA b 32) trima).wr (R.ILV_b_PROPB b 32) trimb
      { d with conv := { d.conv with shadow := d.conv.shadow.set b.val none } }.putB (F.ILV_b_SPARE_SHADOW_READY b) true

end Sys2Proof.Machine
end

