-- ==== Sys2Proof/Machine/Red.lean ====
section
/-! DEFINITION. RED, the reduction pipes (chapter 8): filters, groups, output rounding, loss statements, output blocks. -/
namespace Sys2Proof.Machine

def evRedDone : Nat := 0x301
def evRedDiscard : Nat := 0x302

/-- The four pipes, and the four inputs or banks. -/
def pipes : List (Fin 4) := [0, 1, 2, 3]

def redCode (p : Fin 4) (c : Nat) (d : Dev) : Dev := d.put (F.RED_p_STATUS_LAST_CODE p) c
def Dev.setRed (d : Dev) (p : Fin 4) (x : RedPipe) : Dev := { d with red := d.red.set p.val x }

/-- num / den rounded to the nearest integer, ties to even. -/
def roundEven (num den : Int) : Int :=
  let q := num / den
  let r := 2 * (num - q * den)
  if r < den then q else if den < r then q + 1 else if q % 2 = 0 then q else q + 1

/-- What a pipe does (R202, R219): the byte offsets of its stages in table SRAM, the built-in filter, factors and taps. -/
structure PipeCfg where
  fir1 : Option Nat
  fir2 : Option Nat
  builtin : Bool
  d1 : Nat
  t1 : Nat
  d2 : Nat
  t2 : Nat
  group : Nat
  m : Nat
  k : Nat
  format : Nat
  blk : Nat
deriving DecidableEq, Repr

/-- The FIR stages that a RED_p_CFG and RED_p_FIR value name. -/
def stagesOf (firEn : Bool) (off1 off2 : Nat) : Option Nat × Option Nat :=
  if firEn then (some (64 * off1), if off2 = 0xFFFF then none else some (64 * off2)) else (none, none)

/-- Pipe p's configuration in effect; in FINE, pipe 0's under R219. -/
def pipeCfg (d : Dev) (p : Fin 4) : PipeCfg :=
  let fine := d.mode == mFine
  let s : Fin 4 := if fine then 0 else p
  let (f1, f2) := stagesOf (d.cfgB (F.RED_p_CFG_FIR_EN s)) (d.cfg (F.RED_p_FIR_OFF1 s)) (d.cfg (F.RED_p_FIR_OFF2 s))
  let d1 := match f1 with | some o => firFactor d o | none => 1
  let d2 := match f2 with | some o => firFactor d o | none => 1
  let builtin := fine && !(f1.isSome && (f1.all (firOk d)) && (f2.all (firOk d)) && 4 ≤ d1 * d2)
  let g := d.cfg (F.RED_p_CFG_GROUP s)
  let g := if fine && g = 2 then 0 else g
  { fir1 := if builtin then none else f1, fir2 := if builtin then none else f2, builtin := builtin
    d1 := if builtin then 16 else d1, d2 := if builtin then 10 else d2
    t1 := if builtin then Config.fineTaps1 else match f1 with | some o => firTaps d o | none => 1
    t2 := if builtin then Config.fineTaps2 else match f2 with | some o => firTaps d o | none => 1
    group := g, m := if g = 0 then 1 else d.cfg (F.RED_p_GROUP_M s)
    k := if fine then 14 else d.cfg (F.RED_p_CFG_K p), format := if fine then 0 else d.cfg (F.RED_p_CFG_FORMAT p)
    blk := 4096 * 4 ^ d.cfg (F.RED_p_CFG_BLK s) }

def PipeCfg.hasFir (c : PipeCfg) : Bool := c.builtin || c.fir1.isSome
def PipeCfg.hasFir2 (c : PipeCfg) : Bool := c.builtin || c.fir2.isSome
def PipeCfg.decim (c : PipeCfg) : Nat := c.d1 * c.d2 * c.m
def PipeCfg.exact (c : PipeCfg) : Bool := !c.hasFir && c.group ≠ 1 && 10 ≤ c.k
/-- The output grid step, in X24 units (R211). -/
def PipeCfg.q (c : PipeCfg) : Nat := 2 ^ (24 - c.k)
/-- Bytes and values of a block's payload (R216). -/
def PipeCfg.payload (c : PipeCfg) : Nat := c.blk - 128
def PipeCfg.capacity (c : PipeCfg) : Nat :=
  match c.format with | 0 => c.payload / 2 | 1 => c.payload / 4 * 3 | _ => c.payload

/-- The pipe's delay G, × 2^−16 native periods (R208). -/
def pipeDelay (d : Dev) (c : PipeCfg) : Nat :=
  if c.builtin then Config.fineDelay
  else (match c.fir1 with | some o => firDelay d o | none => 0) + c.d1 * (match c.fir2 with | some o => firDelay d o | none => 0)

/-! ### The steps -/

/-- Σ H(i) × x[k − i], exact (R207): inputs newest first; the value counts 2^−22. -/
def firSum (d : Dev) (off : Nat) (xs : List Int) : Int :=
  xs.zipIdx.foldl (fun acc (x, i) => acc + firCoef d off i * x) 0

/-- A value before its final rounding: num / den X24 units. -/
structure Frac where
  num : Int
  den : Int
deriving DecidableEq, Repr

/-- One FIR stage's input: the new history, and the output if one is due. -/
def firStep (d : Dev) (off : Option Nat) (builtin : Option (List Int → Int)) (t dec : Nat) (h : List Int) (k : Int)
    (x : Int) (next : Bool) : List Int × Option Frac :=
  match builtin, off with
  | some f, _ =>
    let h := (x :: h).take t
    (h, if k % dec = 0 && h.length = t then some ⟨f h, 1⟩ else none)
  | none, none => (h, some ⟨x, 1⟩)
  | none, some o =>
    let h := (x :: h).take t
    let y := firSum d o h
    (h, if k % dec = 0 && h.length = t then some (if next then ⟨roundEven y (2 ^ 22), 1⟩ else ⟨y, 2 ^ 22⟩) else none)

/-- The group step on one value (index v of the values entering it): what is emitted. -/
def groupStep (c : PipeCfg) (g : List Int) (v : Int) (x : Frac) : List Int × List Frac :=
  if c.group = 0 then (g, [x])
  else
    let g := (x.num :: g).take c.m
    if v % c.m = 0 && g.length = c.m then
      if c.group = 1 then ([], [⟨g.foldl (· + ·) 0, c.m⟩])
      else ([], [⟨g.foldl min x.num, 1⟩, ⟨g.foldl max x.num, 1⟩])
    else (g, [])

/-- Output rounding and saturation (R211): the output in X24 units, and whether it saturated. -/
def outRound (c : PipeCfg) (x : Frac) : Int × Bool :=
  let q : Int := c.q
  let y := q * roundEven x.num (x.den * q)
  -- the largest and smallest values of each format, in X24 units
  let (lo, hi) : Int × Int := match c.format with
    | 0 => (-(2 ^ 23), (2 ^ 15 - 1) * 2 ^ 8)
    | 1 => (-(2 ^ 23), (2 ^ 9 - 1) * 2 ^ 14)
    | _ => (-(2 ^ 23), (2 ^ 7 - 1) * 2 ^ 16)
  let lo := -((-lo) / q * q)
  let hi := hi / q * q
  if y < lo then (lo, true) else if hi < y then (hi, true) else (y, false)

/-- Feed native input x at index k: the pipe, and the values it emits. -/
def feedSteps (d : Dev) (c : PipeCfg) (r : RedPipe) (k x : Int) : RedPipe × List (Int × Bool) :=
  let (h1, y1) := firStep d c.fir1 (if c.builtin then some Config.fineFilter1 else none) c.t1 c.d1 r.h1 k x
    (c.hasFir2 || c.group ≠ 0)
  match y1 with
  | none => ({ r with h1 := h1 }, [])
  | some y1 =>
    let k1 := k / c.d1
    let (h2, y2) := if c.hasFir2 then
        firStep d c.fir2 (if c.builtin then some Config.fineFilter2 else none) c.t2 c.d2 r.h2 k1 y1.num (c.group ≠ 0)
      else (r.h2, some y1)
    match y2 with
    | none => ({ r with h1 := h1, h2 := h2 }, [])
    | some y2 =>
      let (g, outs) := groupStep c r.grp (k1 / c.d2) y2
      ({ r with h1 := h1, h2 := h2, grp := g }, outs.map (outRound c))

/-! ### What an output says of its native inputs (Table 8.5) -/

/-- x / n rounded up. -/
def ceilDiv (x : Int) (n : Nat) : Int := -((-x) / n)

/-- The newest native index of the last FIR output that native input k enters; none when no output uses it. -/
def reachOf (c : PipeCfg) (k : Int) : Option Int :=
  let j0 := ceilDiv k c.d1
  let j1 := (k + c.t1 - 1) / c.d1
  let l0 := ceilDiv j0 c.d2
  let l1 := (j1 + c.t2 - 1) / c.d2
  if j1 < j0 || l1 < l0 then none else some (l1 * c.d2 * c.d1)

/-- The newest native index of the first FIR output of the group that ends at k, and the oldest native input it uses. -/
def groupStart (c : PipeCfg) (k : Int) : Int := k - (((c.m - 1) * c.d1 * c.d2 : Nat) : Int)
def oldestInput (c : PipeCfg) (k : Int) : Int := groupStart c k - (((c.t2 - 1) * c.d1 + (c.t1 - 1) : Nat) : Int)

/-- Note the flags that native input k meets and the calibration count. -/
def noteInput (c : PipeCfg) (k : Int) (fl cal : Nat) (r : RedPipe) : RedPipe :=
  let seen := if fl = 0 then r.seen else
    match reachOf c k with
    | none => r.seen
    | some e => (fl, e) :: r.seen.filter (·.1 ≠ fl)
  let cals := match r.cals with
    | x :: _ => if x.2 = cal then r.cals else (k, cal) :: r.cals
    | [] => [(k, cal)]
  { r with seen := seen, cals := cals }

/-- Pipe p reads memory: its MEM bit, outside FINE (R203, R219). -/
def pipeMem (d : Dev) (p : Fin 4) : Bool := d.cfgB (F.RED_p_CFG_MEM p) && d.mode ≠ mFine

/-- The instant of an output whose newest native input is k (R208): × 2^−32 tick, rounded to the nearest, ties up. Steps of the
timebase after k do not move it (R106). -/
def outInstant (d : Dev) (p : Fin 4) (c : PipeCfg) (k : Int) : Int :=
  let r := d.red.get p
  let mem := pipeMem d p
  let later := (r.steps.filter (fun e => k < e.1)).foldl (fun acc e => acc + e.2) 0
  let (base, div, arr) : Int × Word × Nat :=
    if mem then (r.memTS, r.memDiv, r.memArr) else (d.stag.origin - later, d.ef R.STAG_SL_DIV, d.arr)
  let num : Int := (k * 2 ^ 16 - pipeDelay d c) * 2 ^ 40
  let den : Int := gridMul arr * divN div
  base + (2 * num + den) / (2 * den)

/-- The instant of an output of FINE whose newest native input is k, by the tick count as it is now (R208). -/
def Dev.outTS (d : Dev) (k : Int) : Int :=
  let den : Int := gridMul d.arr * divN (d.ef R.STAG_SL_DIV)
  d.stag.origin + (2 * ((k * 2 ^ 16 - pipeDelay d (pipeCfg d 0)) * 2 ^ 40) + den) / (2 * den)

/-- Native input x at index k, with its flags, enters pipe p: the pipe, and the outputs that it completes. -/
def feedPipe (d : Dev) (p : Fin 4) (c : PipeCfg) (r : RedPipe) (k x : Int) (fl : Nat) : RedPipe × List RedOut :=
  let (r, vs) := feedSteps d c (noteInput c k fl (if pipeMem d p then r.memCal else (d.rd R.CAL_COUNT).toNat) r) k x
  if vs.isEmpty then (r, [])
  else
    let from' := oldestInput c k
    let flags := (r.seen.filter (fun e => groupStart c k ≤ e.2)).foldl (fun acc e => orFlags acc e.1) 0
    let cal := match r.cals.find? (fun e => e.1 ≤ from') with | some e => e.2 | none => (r.cals.getLast?.map (·.2)).getD 0
    (r, vs.map fun v => ⟨v.1, v.2, k, from', outInstant d p c k, flags, cal⟩)

/-! ### Blocks (R216), loss statements (R213, R215) -/

/-- The bytes of output values, oldest first, in a format (R211). -/
def packOut (format : Nat) (vs : List Int) : List Byte :=
  match format with
  | 0 => vs.flatMap (fun v => intBytes 2 (v / 256))
  | 1 => (List.range (divUp vs.length 3)).flatMap fun w =>
      leBytes 4 (p10Word w (((vs.drop (3 * w)).take 3).map fun v => BitVec.ofInt 10 (v / 2 ^ 14)))
  | _ => vs.flatMap (fun v => intBytes 1 (v / 2 ^ 16))

def padTo (n : Nat) (bs : List Byte) : List Byte := bs ++ zeros (n - bs.length)

/-- The bound ERR in X24 units (R215); e is kept × 2^23, S2 × 2^22. The built-in filter's S2 is not given: a free value. -/
def lossErr (d : Dev) (c : PipeCfg) : Nat :=
  if c.exact then 0
  else
    let e1 := if c.hasFir && (c.hasFir2 || c.group ≠ 0) then 2 ^ 22 else 0
    let s2 := if c.builtin then Config.fineS2
      else match c.fir2 with
        | some o => (List.range c.t2).foldl (fun acc i => acc + (firCoef d o i).natAbs) 0
        | none => 0
    let e2 := if c.hasFir2 then e1 * s2 / 2 ^ 22 + (if c.group ≠ 0 then 2 ^ 22 else 0) else e1
    divUp (e2 + c.q * 2 ^ 22) (2 ^ 23)

/-- The 32-byte loss statement of Table 8.3. -/
def lossStatement (d : Dev) (c : PipeCfg) (sat : Nat) : List Byte :=
  let kind := c.hasFir.toNat + 2 * c.hasFir2.toNat + (if c.group = 1 then 4 else if c.group = 2 then 8 else 0)
    + (if c.k < 10 then 16 else 0)
  -- The built-in filter's edges at N = 64: 200 and 250 MHz of 80 GSa/s, in 2^−32 of the native rate
  let p1 := match c.fir1 with | some o => firPass d o | none => 0x8000
  let s1 := match c.fir1 with | some o => firStop d o | none => 0x8000
  let pass := if c.builtin then 200 * 2 ^ 32 / 80000
    else match c.fir1, c.fir2 with
      | none, _ => 0x80000000
      | some _, none => p1 * 2 ^ 16
      | some _, some o => min (p1 * 2 ^ 16) (firPass d o * 2 ^ 16 / c.d1)
  let stop := if c.builtin then 250 * 2 ^ 32 / 80000
    else match c.fir1, c.fir2 with
      | none, _ => 0x80000000
      | some _, none => s1 * 2 ^ 16
      | some _, some o => min (s1 * 2 ^ 16) (firStop d o * 2 ^ 16 / c.d1)
  let ripple := if c.builtin then 10 else
    (match c.fir1 with | some o => firRipple d o | none => 0) + (match c.fir2 with | some o => firRipple d o | none => 0)
  let atten := if c.builtin then 9000 else match c.fir1, c.fir2 with
    | none, _ => 0
    | some o, none => firAtten d o
    | some o, some o2 => min (firAtten d o) (firAtten d o2)
  leBytes 1 kind ++ leBytes 1 c.k ++ zeros 2 ++ leBytes 4 (lossErr d c) ++ leBytes 4 c.m ++ leBytes 4 pass ++ leBytes 4 stop
    ++ leBytes 2 ripple ++ leBytes 2 atten ++ leBytes 4 sat ++ zeros 4

/-- Show a loss statement in RED_p_LS. -/
def showLoss (d : Dev) (p : Fin 4) (bs : List Byte) : Dev :=
  (List.range 8).foldl (fun d j => d.wr (R.RED_p_LS p j) (BitVec.ofNat 32 (leNat ((bs.drop (4 * j)).take 4)))) d

/-- The outputs that the open block can carry, oldest first (R216), and how many of them saturated. -/
def blockOuts (d : Dev) (p : Fin 4) : List RedOut := (d.red.get p).vals.reverse.take (pipeCfg d p).capacity
def satCount (os : List RedOut) : Nat := (os.filter (·.sat)).length

/-- Finish the open block with the values it holds (R216); discard it whole when two are already held (R218). -/
def finishBlock (extraFlags : Nat) (p : Fin 4) (d : Dev) : Dev :=
  let c := pipeCfg d p
  let r := d.red.get p
  let os := blockOuts d p
  match os with
  | [] => d
  | o :: _ =>
    let mem := pipeMem d p
    let last := os.getLast?.getD o
    let covered := os.length / (if c.group = 2 then 2 else 1) * c.decim
    let cleared : RedPipe := { r with vals := (r.vals.reverse.drop c.capacity).reverse }
    let loss := lossStatement d c (satCount os)
    let d := showLoss d p loss
    if 2 ≤ r.ready.length then
      let d := d.setRed p { cleared with lostSince := r.lostSince + covered, saidDiscard := true }
      let d := d.wr64 (R.RED_p_LOST_LO p) (d.rd64 (R.RED_p_LOST_LO p) + covered)
      if r.saidDiscard then d else (redCode p 0x0C06 d).post .c evRedDiscard p.val 0
    else
      let step := r.steps.any fun e => o.first < e.1 && e.1 ≤ last.k
      let flags := os.foldl (fun acc x => orFlags acc x.flags)
        (orFlags extraFlags ((if r.lostSince = 0 then 0 else flOverflow) + (if step && !mem then flTbStep else 0)))
      let src := if mem then d.cf64 (R.RED_p_MEM_ADDR_LO p) + o.first.toNat / 3 * 4 else 0
      let hdr := withCrc (leBytes 4 0x44455242 ++ leBytes 2 1 ++ leBytes 2 0x80 ++ leBytes 1 p.val ++ leBytes 1 c.format
        ++ leBytes 1 (if mem then 0xFF else d.cfg (F.RED_p_CFG_INPUT p)) ++ zeros 1 ++ leBytes 4 (nodeWord d)
        ++ leBytes 8 r.index ++ intBytes 12 o.ts ++ leBytes 4 c.decim ++ leBytes 4 os.length
        ++ leBytes 4 flags ++ leBytes 8 r.lostSince ++ leBytes 8 src ++ loss ++ leBytes 4 o.cal ++ zeros 24)
      let b : RedBlock := ⟨p.val, hdr ++ padTo c.payload (packOut c.format (os.map (·.v))), covered, false⟩
      d.setRed p { cleared with ready := r.ready ++ [b], index := r.index + 1, lostSince := 0 }

def blockFull (d : Dev) (p : Fin 4) : Bool := (pipeCfg d p).capacity ≤ (d.red.get p).vals.length

/-- Put emitted values into the open block; saturated ones are counted. -/
def emitVals (p : Fin 4) (d : Dev) (os : List RedOut) : Dev :=
  if os.isEmpty then d
  else
    let d := if blockFull d p then finishBlock 0 p d else d
    let r := d.red.get p
    let d := d.setRed p { r with vals := os.reverse ++ r.vals }
    if satCount os = 0 then d else d.count (R.RED_p_SAT p) (satCount os)

/-- One native input, with its flags, into a pipe whose history is open. -/
def pipeInput (p : Fin 4) (d : Dev) (k x : Int) (fl : Nat) : Dev :=
  let (r, os) := feedPipe d p (pipeCfg d p) (d.red.get p) k x fl
  emitVals p (d.setRed p r) os

/-- A live pipe's history restarts (R217): the open block closes with the values it has completed, up to native index `cut`. -/
def restartPipe (extraFlags : Nat) (cut : Option Int) (p : Fin 4) (d : Dev) : Dev :=
  let r := d.red.get p
  let d := match cut with
    | none => d
    | some k => d.setRed p { r with vals := r.vals.filter (fun o => o.k ≤ k) }
  let d := finishBlock extraFlags p (if blockFull d p then finishBlock 0 p d else d)
  d.setRed p { d.red.get p with h1 := [], h2 := [], grp := [], seen := [], cals := [] }

/-- Pipe p is live and running in this mode, on that input (R203, R219). -/
def liveInput (d : Dev) (p : Fin 4) : Option Nat :=
  if d.mode = mFine then some p.val
  else if d.cfgB (F.RED_p_CFG_EN p) && !d.cfgB (F.RED_p_CFG_MEM p) && d.flag (F.RED_p_STATUS_ADMITTED p)
    then some (d.cfg (F.RED_p_CFG_INPUT p)) else none

/-- The live pipes whose input one of the banks serves restart. -/
def restartLive (banks : Nat) (extraFlags : Nat) (cut : Option Int) (d : Dev) : Dev :=
  pipes.foldl (fun d p =>
    match liveInput d p with
    | some i => if (d.red.get p).running && (banksOf d.arr i).any (fun b => bitsOf banks b b == 1)
        then restartPipe extraFlags cut p d else d
    | none => d) d

/-- The cost of a pipe × 2^32, rounded up: T1 / D1 + T2 / (D1 × D2) (R209). -/
def pipeCost (c : PipeCfg) : Nat × Nat :=
  let t1 := if c.hasFir then c.t1 else 0
  let t2 := if c.hasFir2 then c.t2 else 0
  (t1 * c.d2 + t2, c.d1 * c.d2)

/-- Admit the live pipes at an arm, in ascending order, within the MAC budget (R209); a pipe that is not admitted, or whose input
is not sampled, produces nothing and stays OFF. Used is the budget taken, as a fraction. r is 1/4, 1/2 or 1: 4 × r is 2^arr. -/
def admitPipe (s : Dev × (Nat × Nat)) (p : Fin 4) : Dev × (Nat × Nat) :=
  let (d, (un, ud)) := s
  let live := d.mode = mFine || (d.cfgB (F.RED_p_CFG_EN p) && !d.cfgB (F.RED_p_CFG_MEM p))
  if !live then (d.putB (F.RED_p_STATUS_ADMITTED p) false, (un, ud))
  else
    let input := if d.mode = mFine then p.val else d.cfg (F.RED_p_CFG_INPUT p)
    let fresh (d : Dev) := d.setRed p { (d.red.get p) with running := true, h1 := [], h2 := [], grp := [], vals := []
                                                           seen := [], cals := [], steps := [], fineSat := []
                                                           index := 0, lostSince := 0, saidDiscard := false }
    let zero (d : Dev) := (d.wr64 (R.RED_p_BLOCKS_LO p) 0).wr64 (R.RED_p_LOST_LO p) 0
    let d := zero d
    if !(sampledInputs d.arr).contains input then
      (redCode p 0x0C04 (d.putB (F.RED_p_STATUS_ADMITTED p) false), (un, ud))
    else
      let (cn, cd) := pipeCost (pipeCfg d p)
      let (n, e) := (un * (4 * cd) + cn * 2 ^ d.arr * ud, ud * (4 * cd))
      if n ≤ 32 * e then
        let d := if d.mode = mFine && (pipeCfg d p).builtin then redCode p 0x0C03 d else d
        ((fresh (d.putB (F.RED_p_STATUS_ADMITTED p) true)).setUnit (.red p) stOn, (n, e))
      else (redCode p 0x0C02 (d.putB (F.RED_p_STATUS_ADMITTED p) false), (un, ud))

/-- RED at an arm (R205, R209). -/
def redArm (d : Dev) : Dev :=
  let d := pipes.foldl (fun d p =>
    if d.cfgB (F.RED_p_CFG_MEM p) && d.unitState (.red p) ≠ stOff then d else takeLatched d (.red p)) (takeLatched d .redFine)
  (pipes.foldl admitPipe (d, (0, 1))).1

/-- RED at a disarm (R217). -/
def redDisarm (d : Dev) : Dev :=
  pipes.foldl (fun d p =>
    if (liveInput d p).isSome && (d.red.get p).running then
      let d := restartPipe 0 none p d
      (d.setRed p { d.red.get p with running := false }).setUnit (.red p) stOff
    else d) d

/-- The samples of an input's vector reach the live pipes that take it, each with the flags it meets (R203). -/
def redVector (inp : Nat) (k0 : Int) (xs : List (Int × Nat)) (d : Dev) : Dev :=
  pipes.foldl (fun d p =>
    if liveInput d p == some inp && (d.red.get p).running && d.mode ≠ mFine && isCapture d.mode then
      xs.zipIdx.foldl (fun d (x, i) => pipeInput p d (k0 + (i : Int)) (x.1 * 2 ^ 14) x.2) d
    else d) d

/-- FINE: the outputs that an input's vector completes in its pipe (R195, R219). -/
def fineVector (inp : Fin 4) (k0 : Int) (xs : List (Int × Nat)) (d : Dev) : Dev × List RedOut :=
  if !(d.red.get inp).running then (d, [])
  else
    let c := pipeCfg d inp
    let (r, outs) := xs.zipIdx.foldl (fun (s : RedPipe × List RedOut) (x, i) =>
        let (r, os) := feedPipe d inp c s.1 (k0 + (i : Int)) (x.1 * 2 ^ 14) x.2
        (r, s.2 ++ os)) (d.red.get inp, [])
    (d.setRed inp r, outs)

/-- A step of the timebase by `size` before native index k reaches the live pipes (R106). -/
def redStep (k size : Int) (d : Dev) : Dev :=
  pipes.foldl (fun d p =>
    if (d.red.get p).running && !pipeMem d p then d.setRed p { d.red.get p with steps := (d.red.get p).steps ++ [(k, size)] }
    else d) d

/-! ### The rows -/

/-- Word w of a P10 body at an address gives its samples (R95). -/
def memSample (d : Dev) (a j : Nat) : Int := signedOf 10 (d.load (a + j / 3 * 4) 4 / 2 ^ (10 * (j % 3)))

/-- A MEM pipe reads on until its block is full or its source ends. -/
def memRead (p : Fin 4) : Nat → Dev → Dev
  | 0, d => d
  | fuel + 1, d =>
    let r := d.red.get p
    if blockFull d p || d.cf64 (R.RED_p_MEM_COUNT_LO p) ≤ r.memK then d
    else
      let x := memSample d (d.cf64 (R.RED_p_MEM_ADDR_LO p)) r.memK
      memRead p fuel (pipeInput p (d.setRed p { r with memK := r.memK + 1 }) r.memK (x * 2 ^ 14) r.memFlags)

/-- RED_BLOCK_DONE (R216): the block that is full, or a MEM job's next block, is finished. -/
def redBlockDone (p : Fin 4) (d : Dev) : Dev :=
  if pipeMem d p && (d.red.get p).running then
    let d := memRead p (d.cf64 (R.RED_p_MEM_COUNT_LO p)) d
    if blockFull d p || d.cf64 (R.RED_p_MEM_COUNT_LO p) ≤ (d.red.get p).memK then finishBlock 0 p d else d
  else if blockFull d p then finishBlock 0 p d
  else d

/-- What RED_p_MEM_TS names (R208, R216): TS_FIRST, SL_DIV, arrangement, flags and calibration count of a record or segment
header. -/
def memSource (d : Dev) (a : Nat) : Nat × Word × Nat × Nat × Nat :=
  let cal := (d.rd R.CAL_COUNT).toNat
  if a = 0 then (0, d.ef R.STAG_SL_DIV, d.arr, 0, cal)
  else if d.load a 4 = 0x52434147 then
    (d.load (a + 0x20) 12, BitVec.ofNat 32 (d.load (a + 0x44) 4), d.load (a + 0x0A) 1, d.load (a + 0x10) 4, d.load (a + 0x8C) 4)
  else (d.load (a + 0x08) 12, d.ef R.STAG_SL_DIV, d.arr, d.load (a + 4) 4, cal)

/-- RED_START (R203, R205, R209): a START acts on a MEM pipe; a live pipe has no job to start. -/
def redStart (p : Fin 4) (d : Dev) : Dev :=
  if d.unitState (.red p) ≠ stOff then redCode p 0x0C07 d
  else
    let d := takeLatched d (.red p)
    if !(pipeMem d p && d.cfgB (F.RED_p_CFG_EN p)) || !isCapture d.mode then d
    else
      let c := pipeCfg d p
      let (cn, cd) := pipeCost c
      let a := d.cf64 (R.RED_p_MEM_ADDR_LO p)
      let n := d.cf64 (R.RED_p_MEM_COUNT_LO p)
      if 32 * cd < cn then redCode p 0x0C02 d
      else if (rangeRegion d a (max 1 (4 * divUp n 3))).isNone then redCode p 0x0C05 d
      else
        let (ts, div, arr, fl, cal) := memSource d (d.cf64 (R.RED_p_MEM_TS_LO p))
        let d := ((d.wr64 (R.RED_p_BLOCKS_LO p) 0).wr64 (R.RED_p_LOST_LO p) 0).setUnit (.red p) stOn
        d.setRed p { running := true, ready := (d.red.get p).ready, memTS := ts, memDiv := div, memArr := arr, memFlags := fl,
                      memCal := cal }

/-- RED_ABORT (R62): the partial block is discarded and counted as lost (R24). -/
def redAbort (p : Fin 4) (d : Dev) : Dev :=
  if d.unitState (.red p) = stOff then d
  else
    let r := d.red.get p
    let c := pipeCfg d p
    let gone := r.vals.length / (if c.group = 2 then 2 else 1) * c.decim
    let d := d.setRed p { r with running := false, h1 := [], h2 := [], grp := [], vals := [], seen := [], cals := []
                                 lostSince := r.lostSince + gone }
    (d.wr64 (R.RED_p_LOST_LO p) (d.rd64 (R.RED_p_LOST_LO p) + gone)).setUnit (.red p) stAborting

/-- RED_MEM_DONE (R203): every sample read, every block handed on. -/
def redMemDone (p : Fin 4) (d : Dev) : Dev :=
  let r := d.red.get p
  if pipeMem d p && r.running && d.cf64 (R.RED_p_MEM_COUNT_LO p) ≤ r.memK && r.vals.isEmpty && r.ready.isEmpty
  then ((d.setRed p { r with running := false }).setUnit (.red p) stOff).post .c evRedDone p.val
    (d.rd64 (R.RED_p_BLOCKS_LO p))
  else d

end Sys2Proof.Machine
end

