-- ==== Sys2Proof/Machine/Stk.lean ====
section
/-! DEFINITION. STK, the accumulator (R221 to R227). -/
namespace Sys2Proof.Machine

def evStkDone : Nat := 0x341
def evStkReject : Nat := 0x342

def stkCode (c : Nat) (d : Dev) : Dev := d.put F.STK_STATUS_LAST_CODE c
def stkCount (d : Dev) : Nat := (d.rd R.STK_COUNT).toNat

/-- Write bytes into DRAM or AQS data SRAM; a write elsewhere is discarded (R40). -/
def storeResult (d : Dev) (a : Nat) (bs : List Byte) : Dev := if inDramOrData d a bs.length then d.writeOut a bs else d

/-! ### Regions (R225) -/

/-- A region: where it starts, the bytes of one input's block, whether it lies in DRAM. -/
structure StkRegion where
  base : Nat
  perInput : Nat
  spilled : Bool
deriving DecidableEq, Repr

/-- Place a region of so many bytes: in STK SRAM when it fits in what remains, else in DRAM from STK_SPILL. -/
def placeRegion (used : Nat × Nat) (spill perInput n : Nat) : StkRegion × (Nat × Nat) :=
  let size := perInput * n
  if used.1 + size ≤ 0x1000000 then (⟨stkBase + used.1, perInput, false⟩, (used.1 + size, used.2))
  else (⟨spill + used.2, perInput, true⟩, (used.1, used.2 + size))

/-- The SUM, ENV and HIST regions in use for L samples of n inputs, and the bytes spilled. -/
def stkRegions (d : Dev) (len n cols : Nat) : Option StkRegion × Option StkRegion × Option StkRegion × Nat :=
  let spill := d.cf64 R.STK_SPILL_LO / 64 * 64
  let u0 := (0, 0)
  let (s, u1) := if d.cfgB F.STK_CTRL_SUM then (fun x => (some x.1, x.2)) (placeRegion u0 spill (4 * len) n) else (none, u0)
  let (e, u2) := if d.cfgB F.STK_CTRL_ENV then (fun x => (some x.1, x.2)) (placeRegion u1 spill (4 * len) n) else (none, u1)
  let (h, u3) := if d.cfgB F.STK_CTRL_HIST then
      (fun x => (some x.1, x.2)) (placeRegion u2 spill (2 * cols * 2 ^ d.cfg F.STK_HIST_BINS_LOG) n) else (none, u2)
  (s, e, h, u3.2)

/-- Clear a region: ENV to minimum 0x7FFF and maximum 0x8000, the others to 0 (R221, R227). -/
def clearRegion (n : Nat) (env : Bool) (d : Dev) (r : StkRegion) : Dev :=
  d.storeBytes r.base (if env then (List.replicate (r.perInput * n / 4) (leBytes 4 0x80007FFF)).flatten else zeros (r.perInput * n))

def clearRegions (d : Dev) (len n cols : Nat) : Dev :=
  let (s, e, h, _) := stkRegions d len n cols
  let d := s.elim d (clearRegion n false d)
  let d := e.elim d (clearRegion n true d)
  h.elim d (clearRegion n false d)

/-! ### The fold (R221, R222) -/

/-- Fold the code at index j of the i-th stored input. -/
def foldSample (regs : Option StkRegion × Option StkRegion × Option StkRegion × Nat) (len cols bins : Nat) (i : Nat)
    (d : Dev) (jc : Nat × Int) : Dev :=
  let (j, c) := jc
  let (s, e, h, _) := regs
  let d := match s with
    | none => d
    | some r =>
      let a := r.base + i * r.perInput + 4 * j
      let x := signedOf 32 (d.load a 4) + c
      let y := clampInt (-(2 ^ 31)) (2 ^ 31 - 1) x
      let d := d.storeBytes a (intBytes 4 y)
      if x = y then d
      else { d with stk := { d.stk with sumSat := min (d.stk.sumSat + 1) 0xFFFFFFFF
                                        satFirst := some (d.stk.satFirst.getD j) } }
  let d := match e with
    | none => d
    | some r =>
      let a := r.base + i * r.perInput + 4 * j
      let lo := min (signedOf 16 (d.load a 2)) (c * 64)
      let hi := max (signedOf 16 (d.load (a + 2) 2)) (c * 64)
      d.storeBytes a (intBytes 2 lo ++ intBytes 2 hi)
  match h with
  | none => d
  | some r =>
    let a := r.base + i * r.perInput + 2 * (j * cols / len * 2 ^ bins + ((c + 512) / 2 ^ (10 - bins)).toNat)
    let x := d.load a 2
    if x = 65535 then { d with stk := { d.stk with histSat := min (d.stk.histSat + 1) 0xFFFFFFFF } } else d.store a 2 (x + 1)

/-- Fold an acquisition's body: every stored input, every index. -/
def foldUnit (d : Dev) (u : CapUnit) (cols : Nat) : Dev :=
  let n := u.inputs.length
  let regs := stkRegions d u.samples n cols
  (List.range n).foldl (fun d i =>
    ((List.range u.samples).map fun j => (j, (getSample d n i (u.start + j)).toInt)).foldl
      (foldSample regs u.samples cols (d.cfg F.STK_HIST_BINS_LOG) i) d) d

/-- READY (R226). -/
def stkReady (d : Dev) : Bool :=
  d.mode == mStack && d.unitState .stk == stOn && d.stk.fold.isNone && stkCount d < d.cfg F.STK_TARGET_TARGET
    && !d.stk.clearing && !d.stk.clearReq && !d.stk.spillInvalid

def showReady (d : Dev) : Dev := d.putB F.STK_STATUS_READY (stkReady d)

/-- The 128-byte result header of Table 8.6. -/
def stkHeader (d : Dev) : List Byte :=
  let k := d.stk
  let len := k.len.getD 0
  let n := ([0, 1, 2, 3].filter (fun i => bitsOf k.inmask i i == 1)).length
  let (s, e, h, _) := stkRegions d len n k.cols
  let addr (r : Option StkRegion) : Nat := match r with | some r => r.base | none => 0
  withCrc (leBytes 4 0x4B545342 ++ leBytes 2 1 ++ leBytes 2 0x80 ++ leBytes 4 (stkCount d)
    ++ leBytes 4 (d.rd R.STK_REJECT).toNat ++ leBytes 4 k.flags ++ leBytes 1 k.inmask ++ leBytes 1 k.arr
    ++ leBytes 1 (d.cfg F.STK_CTRL_SUM + 2 * d.cfg F.STK_CTRL_ENV + 4 * d.cfg F.STK_CTRL_HIST)
    ++ leBytes 1 (d.cfg F.STK_HIST_BINS_LOG) ++ leBytes 4 len ++ leBytes 4 k.pre ++ tsBytes k.tsTrig
    ++ leBytes 4 (d.ef R.STAG_SL_DIV).toNat ++ leBytes 8 (addr s) ++ leBytes 8 (addr e) ++ leBytes 8 (addr h)
    ++ leBytes 2 k.cols ++ zeros 2 ++ leBytes 4 k.sumSat ++ leBytes 4 k.histSat ++ optBytes 4 k.satFirst
    ++ leBytes 4 (d.rd R.CAL_COUNT).toNat ++ leBytes 4 k.acq ++ zeros 28)

def writeStkHeader (d : Dev) : Dev := storeResult d (d.cf64 R.STK_HDR_LO / 64 * 64) (stkHeader d)

/-! ### Acquisitions reach STK (R223, R224) -/

/-- Reject an acquisition. -/
def stkRejectUnit (c : Nat) (d : Dev) : Dev :=
  let d := stkCode c (d.wr R.STK_REJECT (d.rd R.STK_REJECT + 1))
  if d.stk.saidReject then d else { d with stk := { d.stk with saidReject := true } }.post .c evStkReject 0 c

/-- A closed STACK segment reaches STK: rejected for its flags or shape, or its fold begins. -/
def stkTake (d : Dev) (u : CapUnit) : Dev :=
  let bad := flShortPre + flClockLost + flOverflow + flAborted
  if (BitVec.ofNat 32 u.flags &&& BitVec.ofNat 32 bad) ≠ 0 then showReady (stkRejectUnit 0x0D02 d)
  else if partitionBlocks u.inputs.length * 768 < u.samples then showReady (stkRejectUnit 0x0D01 d)
  else
    match d.stk.len with
    | some l =>
      if l = u.samples && d.stk.pre = u.pre && d.stk.inmask = inMaskOf u.inputs && d.stk.arr = u.arr then
        showReady { d with stk := { d.stk with fold := some u } }
      else showReady (stkRejectUnit 0x0D01 d)
    | none =>
      let cols0 := d.cfg F.STK_HIST_COLS
      let cols := min cols0 u.samples
      let d := if cols < cols0 then stkCode 0x0D03 d else d
      let n := u.inputs.length
      let (_, _, _, spilled) := stkRegions d u.samples n cols
      let d := d.putB F.STK_STATUS_SPILL (spilled ≠ 0)
      if spilled ≠ 0 && !inDram d (d.cf64 R.STK_SPILL_LO / 64 * 64) spilled then
        showReady (stkCode 0x0D04 { d with stk := { d.stk with spillInvalid := true } })
      else
        let d := clearRegions d u.samples n cols
        showReady { d with stk := { d.stk with len := some u.samples, pre := u.pre, cols := cols, inmask := inMaskOf u.inputs
                                               arr := u.arr, tsTrig := u.tsTrig, fold := some u } }

/-- A waiting CLEAR begins at an acquisition boundary (R227). -/
def stkBoundary (d : Dev) : Dev :=
  if d.stk.clearReq && d.stk.fold.isNone && !(d.mode == mStack && d.cap.unit.isSome) then
    showReady { d with stk := { d.stk with clearReq := false, clearing := true } }
  else showReady d

/-- STK_FOLD_FINAL (R226, R227). -/
def stkFoldFinal (d : Dev) : Dev :=
  match d.stk.fold with
  | none => d
  | some u =>
    let d := foldUnit d u d.stk.cols
    let d := { d with stk := { d.stk with fold := none, flags := orFlags d.stk.flags u.flags, acq := u.acq } }
    let n := stkCount d + 1
    let d := writeStkHeader (d.wr R.STK_COUNT (BitVec.ofNat 32 n))
    let d := if n = d.cfg F.STK_TARGET_TARGET then (d.putB F.STK_STATUS_DONE true).post .c evStkDone 0 n else d
    let d := if d.unitState .stk = stDraining then d.setUnit .stk stOff else d
    stkBoundary d

/-- STK_CLEAR (R227): the clear is requested; it begins at the next acquisition boundary. -/
def stkClear (d : Dev) : Dev := stkBoundary { d with stk := { d.stk with clearReq := true } }

/-- STK_CLEAR_DONE (R227): regions, counts and flags are cleared, the committed configuration takes effect, the result
header is written. -/
def stkClearDone (d : Dev) : Dev :=
  if !d.stk.clearing then d
  else
    let d := match d.stk.len with
      | none => d
      | some l => clearRegions d l ([0, 1, 2, 3].filter (fun i => bitsOf d.stk.inmask i i == 1)).length d.stk.cols
    let d := { d with stk := {} }
    let d := takeLatched (((d.wr R.STK_COUNT 0).wr R.STK_REJECT 0).putB F.STK_STATUS_DONE false) .stk
    showReady (writeStkHeader (d.putB F.STK_STATUS_SPILL false))

/-- STK_ABORT (R62): the acquisition being folded is discarded. A first one leaves L and PRE open again (R223). -/
def stkAbort (d : Dev) : Dev :=
  if d.unitState .stk = stOff then d
  else showReady ({ d with stk := { d.stk with fold := none, len := if stkCount d = 0 then none else d.stk.len } }.setUnit .stk stAborting)

end Sys2Proof.Machine
end

