-- ==== Sys2Proof/Machine/Fox.lean ====
section
/-! DEFINITION. FOX, the trigger engine (chapter 5): crossings, event units, interpolation, the sequence, the qualifier. -/
namespace Sys2Proof.Machine

def evTrig : Nat := 0x1C1
def evTrigEarly : Nat := 0x1C2
def evTrigMissed : Nat := 0x1C3
def evSchedLate : Nat := 0x1C4
def foxCode (c : Nat) (d : Dev) : Dev := d.put F.FOX_STATUS_LAST_CODE c

def srcMain : Nat := 0
def srcExt : Nat := 1
def srcSerial : Nat := 2
def srcRing : Nat := 3
def srcSw : Nat := 4

/-- An event unit's settings in effect (Table 5.12, 5.13); limits in 2^−32 tick (R122). -/
structure UnitCfg where
  ty : Nat
  src : Nat
  pol : Nat
  rel : Nat
  hyst : Int
  upper : Int
  lower : Int
  lim1 : Nat
  lim2 : Nat
deriving DecidableEq, Repr

def unitCfg (d : Dev) (x : Nat) : UnitCfg :=
  { ty := d.cfg (F.FOX_x_CFG_TYPE x), src := d.cfg (F.FOX_x_CFG_SRC x), pol := d.cfg (F.FOX_x_CFG_POL x)
    rel := d.cfg (F.FOX_x_CFG_REL x), hyst := d.cfg (F.FOX_x_CFG_HYST x), upper := d.cfgS (F.FOX_x_LEVEL_UPPER x)
    lower := d.cfgS (F.FOX_x_LEVEL_LOWER x), lim1 := d.cf64 (R.FOX_x_LIM1_LO x) % 2 ^ 48 * 2 ^ 16
    lim2 := d.cf64 (R.FOX_x_LIM2_LO x) % 2 ^ 48 * 2 ^ 16 }

/-- Table 5.3: whether a type on a source is accepted in a mode. -/
def typeInMode (mode ty : Nat) (owl : Bool) : Bool :=
  let edgeLike := ty == 1 || ty == 7
  let widthLike := ty == 3 || ty == 6
  if isCapture mode then (1 ≤ ty && ty ≤ 8) && (!owl || edgeLike || widthLike || ty == 8)
  else if mode = mSentry then !(owl && ty ≠ 8) && (edgeLike || ty == 2 || ty == 8)
  else if mode = mCount then owl && (edgeLike || widthLike)
  else false

def UnitCfg.owl (c : UnitCfg) : Bool := 4 ≤ c.src
def UnitCfg.usable (c : UnitCfg) (mode : Nat) : Bool := typeInMode mode c.ty c.owl

/-! ### Samples of the latest vectors -/

def foxStride (d : Dev) : Int := if d.mode = mSentry then 32 else 1
def foxIndex (d : Dev) (i : Nat) : Int := d.fox.vecK + foxStride d * i
def tsNat (x : Int) : Nat := x.toNat

/-- Sample i of an input's latest vector in S16 units (R96); i from −4 to 259. -/
def foxAt (d : Dev) (inp : Nat) (i : Int) : Int := (d.fox.vec.toList.getD inp []).getD (i + 4).toNat 0 * 64

def foxSampled (d : Dev) : List Nat := if d.mode = mSentry then [0, 1, 2, 3] else sampledInputs d.arr

/-! ### Interpolation (R133 to R136) -/

/-- The Catmull-Rom curve through p0 … p3 at m / n between p1 and p2, × 2 n³. -/
def cubicAt (p0 p1 p2 p3 m n : Int) : Int :=
  2 * p1 * n ^ 3 + (p2 - p0) * m * n ^ 2 + (2 * p0 - 5 * p1 + 4 * p2 - p3) * m ^ 2 * n
    + (3 * p1 - p0 - 3 * p2 + p3) * m ^ 3

/-- Bisect for the last point of (lo, hi) that lies on lo's side. -/
def bisect (side : Nat → Bool) : Nat → Nat → Nat → Nat
  | 0, lo, _ => lo
  | fuel + 1, lo, hi =>
    let m := (lo + hi) / 2
    if hi ≤ lo + 1 then lo else if side m then bisect side fuel lo m else bisect side fuel m hi

/-- Where a level is crossed between samples i − 1 and i, × 2^−16 of the period after i − 1, ties to even (R133). -/
def crossFrac (d : Dev) (inp : Nat) (i : Int) (level : Int) : Nat :=
  let x0 := foxAt d inp (i - 1)
  let x1 := foxAt d inp i
  let rising := x0 < level
  let ksel := d.cfg F.FOX_KERNEL_KSEL
  if ksel = 0 then (clampInt 0 65536 (roundEven ((level - x0) * 65536 * (x1 - x0)) ((x1 - x0) * (x1 - x0)))).toNat
  else if ksel = 2 && !d.fox.cubic then
    let off := 16 * d.cfg F.FOX_KERNEL_OFFSET
    let t := kernelTaps d off
    let v (p : Nat) : Int := (List.range t).foldl
      (fun acc (j : Nat) => acc + kernelWeight d off p j * foxAt d inp (i - (t / 2 : Nat) + (j : Int))) 0
    let lv := level * 2 ^ 14
    let p := bisect (fun m => if rising then decide (lv ≤ v m) else decide (v m < lv)) 10 0 256
    let (a, b) := (v p, v (p + 1))
    if a = b then 256 * p
    else (clampInt 0 65536 (roundEven ((256 * p * (b - a) + 256 * (lv - a)) * (b - a)) ((b - a) * (b - a)))).toNat
  else
    let p0 := foxAt d inp (i - 2)
    let p3 := foxAt d inp (i + 1)
    let above (m n : Int) : Bool := decide (2 * level * n ^ 3 ≤ cubicAt p0 x0 x1 p3 m n)
    let m := bisect (fun m => above m 65536 == rising) 18 0 65536
    let h := cubicAt p0 x0 x1 p3 (2 * m + 1) 131072
    let lv := 2 * level * 131072 ^ 3
    if h = lv then (if m % 2 = 0 then m else m + 1)
    else if decide (lv < h) == rising then m else m + 1

/-- The instant at fraction f (× 2^−16) after sample k − 1, triggering sample k (R134). -/
def crossInstant (d : Dev) (k : Int) (f : Nat) : Instant :=
  if d.mode = mSentry then ⟨k, tsNat (d.sampleTS k), k, 0⟩
  else
    let pos := k - 1 + (f / 65536 : Nat)
    let fr := f % 65536
    let den : Nat := gridMul d.arr * divN (d.ef R.STAG_SL_DIV)
    ⟨k, tsNat (d.sampleTS pos + ((2 * (fr * 2 ^ 40) + den) / (2 * den) : Nat)), pos, fr⟩

/-- The instant of a timestamp: position rounded down, and the first sample at or after it (R134, R137, R174). -/
def tsInstant (d : Dev) (ts : Nat) : Instant :=
  let (p, f) := d.gridAt ts
  let k := if d.sampleTS p = (ts : Int) then p else p + 1
  ⟨-(-k / foxStride d) * foxStride d, ts, p, f⟩

/-- The instant of a crossing plus a limit (R134); in SENTRY its position is the triggering sample (R136). -/
def limInstant (d : Dev) (ts : Nat) : Instant :=
  let t := tsInstant d ts
  if d.mode = mSentry then { t with pos := t.k, frac := 0 } else t

def sampleInstant (d : Dev) (k : Int) : Instant := ⟨k, tsNat (d.sampleTS k), k, 0⟩

/-! ### Crossings (R120, R121) -/

structure Cross where
  hist : LevelHist
  rise : Option Instant
  fall : Option Instant
deriving DecidableEq, Repr

/-- Counted crossings of one level at sample i, and the new history; the first sample examined has none before it. -/
def crossLevel (d : Dev) (inp : Nat) (i : Nat) (first : Bool) (level hyst : Int) (h : LevelHist) : Cross :=
  let x0 := foxAt d inp ((i : Int) - 1)
  let x1 := foxAt d inp i
  let k := foxIndex d i
  let rising := !first && x0 < level && level ≤ x1 && h.rise
  let falling := !first && level ≤ x0 && x1 < level && h.fall
  let at' : Option Instant := some (crossInstant d k (if d.mode = mSentry then 0 else crossFrac d inp i level))
  { hist := { rise := (h.rise && !rising) || decide (x1 ≤ level - hyst)
              fall := (h.fall && !falling) || decide (level + hyst ≤ x1) }
    rise := if rising then at' else none, fall := if falling then at' else none }

/-! ### Event units (Table 5.1) -/

/-- An event of a unit: its trigger instant, and the index from which DURING tests the qualifier (R129). -/
structure UnitEvent where
  at' : Instant
  from' : Option Int
deriving DecidableEq, Repr

/-- Width against the limits (REL of PULSE_WIDTH and TRANSITION; RUNT's own codes). -/
def relHolds (c : UnitCfg) (w : Nat) : Bool :=
  match c.ty, c.rel with
  | 4, 0 => true
  | 4, 1 => w < c.lim1
  | 4, 2 => c.lim1 < w
  | 4, _ => c.lim1 ≤ w && w ≤ c.lim2
  | 6, _ => w < c.lim1
  | _, 0 => w < c.lim1
  | _, 1 => c.lim1 < w
  | _, 2 => c.lim1 ≤ w && w ≤ c.lim2
  | _, _ => w < c.lim1 || c.lim2 < w

def polPos (c : UnitCfg) : Bool := c.pol ≠ 1
def polNeg (c : UnitCfg) : Bool := c.pol ≠ 0

/-- A duration event from a beginning to an ending crossing. -/
def spanEvent (c : UnitCfg) (on : Bool) (start? stop? : Option Instant) : List UnitEvent :=
  match start?, stop? with
  | some b, some e => if on && relHolds c (e.ts - b.ts) then [⟨e, some b.k⟩] else []
  | _, _ => []

/-- A deadline `lim` after `since` that falls at or before sample i and before what ends the state, if it ends there. With `strict`
the state must outlast it (PATTERN's 'longer than LIM1'). -/
def deadlineEvent (d : Dev) (i : Nat) (strict : Bool) (since : Option Instant) (lim : Nat) (ended : Option Instant) : Option Instant :=
  match since with
  | none => none
  | some s =>
    let t := s.ts + lim
    let stop : Int := match ended with | some e => e.ts | none => d.sampleTS (foxIndex d i)
    if (t : Int) < stop || (!strict && (t : Int) = stop) then some (limInstant d t) else none

def firstOf (a b : Option Instant) : Option Instant :=
  match a, b with
  | some x, some y => if y.ts < x.ts then some y else some x
  | some x, none => some x
  | none, y => y

def lastOf (a b : Option Instant) : Option Instant :=
  match a, b with
  | some x, some y => if x.ts < y.ts then some y else some x
  | some x, none => some x
  | none, y => y

/-- One sample of a unit on a sampled input, types EDGE to TIMEOUT. -/
def unitLevel (d : Dev) (c : UnitCfg) (u : EventUnit) (i : Nat) : EventUnit × List UnitEvent :=
  let first := !u.started
  let up := crossLevel d c.src i first c.upper c.hyst u.upper
  let lo := crossLevel d c.src i first c.lower c.hyst u.lower
  let k := foxIndex d i
  let x0 := foxAt d c.src ((i : Int) - 1)
  let x1 := foxAt d c.src i
  let inside (x : Int) : Bool := decide (c.lower ≤ x) && decide (x < c.upper)
  let u1 := { u with started := true, upper := up.hist, lower := lo.hist }
  let ev (o : Option Instant) : List UnitEvent := o.toList.map fun t => ⟨t, none⟩
  match c.ty with
  | 1 => (u1, (if polPos c then ev up.rise else []) ++ (if polNeg c then ev up.fall else []))
  | 2 =>
    let enter := if inside x1 && !inside x0 then lastOf lo.rise up.fall else none
    let leave := if inside x0 && !inside x1 then firstOf up.rise lo.fall else none
    let change := if enter.isSome then enter else leave
    let want (s : Bool) : Bool := if s then polPos c else polNeg c
    if c.rel = 0 then (u1, (if polPos c then ev enter else []) ++ (if polNeg c then ev leave else []))
    else
      -- a duration in progress at a restart counts from the first sample, if the input is still on its side (R125)
      let u2 := if first then
          { u1 with since := if u.since.isSome && inside x1 == u.state then some (sampleInstant d k) else none, fired := false } else u1
      let due (u : EventUnit) (ended : Option Instant) : Option Instant :=
        if u.fired || !want u.state then none else deadlineEvent d i false u.since c.lim1 ended
      let due1 := due u2 change
      let u3 := if due1.isSome then { u2 with fired := true } else u2
      match change with
      | none => (u3, ev due1)
      | some t =>
        let u4 := { u3 with since := some t, state := enter.isSome, fired := false }
        let due2 := due u4 none
        ({ u4 with fired := due2.isSome }, ev due1 ++ ev due2)
  | 4 =>
    let evs := spanEvent c (polPos c) u1.loRise lo.fall ++ spanEvent c (polNeg c) u1.upFall up.rise
    let loRise := if lo.rise.isSome then lo.rise else if lo.fall.isSome then none else u1.loRise
    let upFall := if up.fall.isSome then up.fall else if up.rise.isSome then none else u1.upFall
    ({ u1 with loRise := if up.rise.isSome then none else loRise, upFall := if lo.fall.isSome then none else upFall }, evs)
  | 5 =>
    let loRise := if lo.rise.isSome then lo.rise else u1.loRise
    let upFall := if up.fall.isSome then up.fall else u1.upFall
    let evs := spanEvent c (polPos c) loRise up.rise ++ spanEvent c (polNeg c) upFall lo.fall
    ({ u1 with loRise := if x1 < c.lower || up.rise.isSome then none else loRise
               upFall := if c.upper ≤ x1 || lo.fall.isSome then none else upFall }, evs)
  | 7 =>
    let u2 := if first then { u1 with ref := some (sampleInstant d k), fired := false } else u1
    let crossing := firstOf up.rise up.fall
    let due (u : EventUnit) (x : Int) (ended : Option Instant) : Option Instant :=
      if u.fired || !(if c.upper ≤ x then polPos c else polNeg c) then none else deadlineEvent d i false u.ref c.lim1 ended
    let due1 := due u2 (if first then x1 else x0) crossing
    let u3 := if due1.isSome then { u2 with fired := true } else u2
    match crossing with
    | none => (u3, ev due1)
    | some t =>
      let u4 := { u3 with ref := some t, fired := false }
      let due2 := due u4 x1 none
      ({ u4 with fired := due2.isSome }, ev due1 ++ ev due2)
  | 3 | 6 =>
    let evs := spanEvent c (polPos c) u1.upRise up.fall ++ spanEvent c (polNeg c) u1.upFall up.rise
    ({ u1 with upRise := if up.rise.isSome then up.rise else if up.fall.isSome then none else u1.upRise
               upFall := if up.fall.isSome then up.fall else if up.rise.isSome then none else u1.upFall }, evs)
  | _ => (u1, [])

/-- One sample index of a PATTERN unit (R123): the latches follow every sampled input. A rising or falling state lapses at the sample
after its crossing, with no crossing to name the instant: that sample's TS is taken, a DESIGN CHOICE (log 145). -/
def unitPattern (d : Dev) (c : UnitCfg) (u : EventUnit) (i : Nat) : EventUnit × List UnitEvent :=
  let first := !u.started
  let st (n : Nat) : Nat := if (foxSampled d).contains n then bitsOf (d.cfg F.FOX_PATTERN_STATE) (3 * n + 2) (3 * n) else 0
  let lv (n : Nat) : Int := d.cfgS (F.FOX_PAT_LEVEL_LEVEL n)
  let cross (n : Fin 4) : Cross := crossLevel d n i first (lv n) (d.cfg (F.FOX_PAT_LEVEL_HYST n)) (u.pat.get n)
  let latch (n : Fin 4) : Bool :=
    let x := cross n
    if first then decide (lv n ≤ foxAt d n i) else if x.rise.isSome then true else if x.fall.isSome then false else u.latch.get n
  let holds (n : Fin 4) : Bool :=
    match st n with
    | 0 => true | 1 => !latch n | 2 => latch n | 3 => (cross n).rise.isSome | _ => (cross n).fall.isSome
  let now := pipes.all holds
  let named : List (Fin 4) := pipes.filter (fun (n : Fin 4) => st n.val ≠ 0)
  let instants (l : List (Fin 4)) := l.map (fun n => lastOf (cross n).rise (cross n).fall)
  let k := foxIndex d i
  let hereOr (o : Option Instant) : Option Instant := if o.isSome then o else some (sampleInstant d k)
  let u1 := { u with started := true, pat := Vector.ofFn (fun n => (cross n).hist), latch := Vector.ofFn latch }
  if first then
    ({ u1 with state := now, sinceFirst := now, fired := false, since := if now then some (sampleInstant d k) else none }, [])
  else
    let becameTrue := now && !u.state
    let becameFalse := !now && u.state
    let rise := if becameTrue then hereOr ((instants named).foldl lastOf none) else none
    let fall := if becameFalse then hereOr ((instants (named.filter (fun n => !holds n))).foldl firstOf none) else none
    let since := if becameTrue then rise else u.since
    let due := if c.rel = 2 && (now || u.state) && (becameTrue || !u.fired) then deadlineEvent d i true since c.lim1 fall else none
    let from' := since.map (fun s => s.k)
    let evs : List UnitEvent := match c.rel with
      | 0 => rise.toList.map fun t => ⟨t, none⟩
      | 1 => fall.toList.map fun t => ⟨t, none⟩
      | 2 => due.toList.map fun t => ⟨t, from'⟩
      | _ => match u.since, fall with
        | some s, some e => if !u.sinceFirst && e.ts - s.ts < c.lim1 then [⟨e, some s.k⟩] else []
        | _, _ => []
    let u2 := if becameTrue then { u1 with state := true, since := rise, sinceFirst := false, fired := due.isSome }
      else if becameFalse then { u1 with state := false, since := none, fired := false }
      else { u1 with fired := u.fired || due.isSome }
    (u2, evs)

def unitStep (d : Dev) (c : UnitCfg) (u : EventUnit) (i : Nat) : EventUnit × List UnitEvent :=
  if !c.usable d.mode then ({ u with started := true }, [])
  else if c.ty = 8 then unitPattern d c u i
  else if c.owl || !(foxSampled d).contains c.src then (u, [])
  else unitLevel d c u i

/-! ### The qualifier (R129, R130) -/

/-- The requirements on OWL states as latched in C. -/
def qualOwl (d : Dev) : Bool :=
  (List.range 8).all fun n =>
    match bitsOf (d.cfg F.FOX_QUAL_REQ) (2 * (n + 4) + 1) (2 * (n + 4)) with
    | 1 => !d.fox.owl.getLsbD n | 2 => d.fox.owl.getLsbD n | _ => true

/-- The requirements at sample i of the latest vectors; an input not sampled is don't care. -/
def qualAt (d : Dev) (i : Int) : Bool :=
  qualOwl d && (List.range 4).all fun n =>
    let high := decide (d.cfgS (F.FOX_QUAL_LEVEL_LEVEL n) ≤ foxAt d n i)
    if (foxSampled d).contains n && d.mode ≠ mCount then
      match bitsOf (d.cfg F.FOX_QUAL_REQ) (2 * n + 1) (2 * n) with | 1 => !high | 2 => high | _ => true
    else true

/-- The place of a grid index in the latest vectors. -/
def vecPlace (d : Dev) (k : Int) : Int := (k - d.fox.vecK) / foxStride d

/-- Whether an event's qualifier holds: AT its triggering sample, or DURING from its first crossing to its instant. -/
def eventQualified (d : Dev) (e : UnitEvent) : Bool :=
  let here := qualAt d (vecPlace d e.at'.k)
  match e.from' with
  | some k0 =>
    if d.cfg F.FOX_QUAL_MODE = 1 then
      (match d.fox.lastBad with | some b => decide (b < k0) | none => true) && (e.at'.pos < e.at'.k || here)
    else here
  | none => here

/-! ### MAIN (R127, R131) -/

def Dev.setFox (d : Dev) (f : Fox) : Dev := { d with fox := f }

def queueCand (d : Dev) (c : Cand) : Dev := d.setFox { d.fox with cands := d.fox.cands ++ [c] }

/-- The triggering candidate of an instant from no sampled crossing (R126, R129, R137, R139). -/
def plainCand (d : Dev) (source ts : Nat) : Cand := ⟨source, tsInstant d ts, false, false, 4⟩

/-- MAIN's candidate from a qualified event of unit A or B. -/
def mainCand (d : Dev) (b : Bool) (t : Instant) : Cand :=
  let c := unitCfg d b.toNat
  let owl := c.owl && c.ty ≠ 8
  ⟨srcMain, t, true, !owl, if owl then 4 else 0⟩

def closeSeq (d : Dev) : Dev :=
  (d.setFox { d.fox with seqAt := none, seqCount := 0 }).putB F.FOX_STATUS_SEQ_OPEN false

/-- The sequence closes when its window has passed before an instant. -/
def seqExpire (d : Dev) (ts : Nat) : Dev :=
  let win := d.cf64 R.FOX_SEQ_WIN_LO % 2 ^ 48
  match d.fox.seqAt with
  | some t => if win ≠ 0 && t + win * 2 ^ 32 < ts then closeSeq d else d
  | none => d

/-- An A event of the sequence. -/
def seqA (d : Dev) (t : Instant) : Dev :=
  let d := seqExpire d t.ts
  if d.fox.seqAt.isNone || d.cfgB F.FOX_SEQ_RESTART then
    (d.setFox { d.fox with seqAt := some t.ts, seqCount := 0 }).putB F.FOX_STATUS_SEQ_OPEN true
  else d

/-- A B event of the sequence: the one that completes it is the candidate when it qualifies, and leaves it open when it does not. -/
def seqB (d : Dev) (e : UnitEvent) : Dev :=
  let d := seqExpire d e.at'.ts
  match d.fox.seqAt with
  | none => d
  | some t =>
    if e.at'.ts ≤ t then d
    else if d.fox.seqCount + 1 = (d.ef R.FOX_SEQ_COUNT).toNat then
      if eventQualified d e then queueCand (closeSeq d) (mainCand d true e.at') else d
    else d.setFox { d.fox with seqCount := d.fox.seqCount + 1 }

/-- An event of unit A, or with `b` of unit B. -/
def mainEvent (d : Dev) (b : Bool) (e : UnitEvent) : Dev :=
  if d.cfgB F.FOX_SEQ_EN then (if !isCapture d.mode then d else if b then seqB d e else seqA d e.at')
  else if b || !eventQualified d e then d else queueCand d (mainCand d false e.at')

/-- Events in the order of their instants, of equal ones A's first. -/
def insertEvent (e : Bool × UnitEvent) : List (Bool × UnitEvent) → List (Bool × UnitEvent)
  | [] => [e]
  | x :: xs => if x.2.at'.ts ≤ e.2.at'.ts then x :: insertEvent e xs else e :: x :: xs

def sortEvents (l : List (Bool × UnitEvent)) : List (Bool × UnitEvent) := l.foldl (fun acc e => insertEvent e acc) []

/-- One sample index through both event units, with what OWL sources gave up to it. -/
def mainSample (ca cb : UnitCfg) (d : Dev) (i : Nat) : Dev :=
  let (ua, ea) := unitStep d ca d.fox.a i
  let (ub, eb) := unitStep d cb d.fox.b i
  let due (e : Bool × Instant) : Bool := decide (e.2.k ≤ foxIndex d i)
  let owl := (d.fox.owlEvs.filter due).map fun e => (e.1, (⟨e.2, none⟩ : UnitEvent))
  let evs := sortEvents (ea.map (fun e => (false, e)) ++ owl ++ eb.map (fun e => (true, e)))
  let d := d.setFox { d.fox with a := ua, b := ub, owlEvs := d.fox.owlEvs.filter (fun e => !due e) }
  let d := evs.foldl (fun d e => mainEvent d e.1 e.2) d
  if qualAt d i then d else d.setFox { d.fox with lastBad := some (foxIndex d i) }

/-- MAIN over the 256 sample indices of a span. -/
def mainScan (d : Dev) : Dev := (List.range 256).foldl (mainSample (unitCfg d 0) (unitCfg d 1)) d

/-- The C cycle of a timestamp: with the sample loop, one per vector of any sampled input, counted on the grid; on BYCLK and in
COUNT 800 MHz, counted from the timebase's origin (DESIGN CHOICE, log 145). -/
def cycleOf (d : Dev) (ts : Nat) : Int :=
  if d.mode = mCount || d.flag F.STAG_STATUS_ON_BYCLK then (ts : Int) * 64 / (25 * 2 ^ 32)
  else
    let arr := if d.mode = mSentry then 0 else d.arr
    ((ts : Int) - d.stag.origin) * (gridMul arr * divN (d.ef R.STAG_SL_DIV) * (foxSampled d).length : Nat) / (2 ^ 64 * foxStride d)

/-- The vector of the watched input, or the C cycle, that a candidate belongs to (R127, R164). -/
def candGroup (d : Dev) (c : Cand) : Nat × Nat × Int :=
  (c.source, c.watch, if c.watch < 4 then c.at'.k / (256 * foxStride d) else cycleOf d c.at'.ts)

/-- The order in which candidates are taken (R128). -/
def candBefore (a b : Cand) : Bool := a.at'.ts < b.at'.ts || (a.at'.ts == b.at'.ts && a.source ≤ b.source)

def insertCand (c : Cand) : List Cand → List Cand
  | [] => [c]
  | x :: xs => if candBefore x c then x :: insertCand c xs else c :: x :: xs

def sortCands (l : List Cand) : List Cand := l.foldl (fun acc c => insertCand c acc) []

/-! ### OWL states as event-unit sources (R125, R126) -/

/-- A unit on an OWL source sees the state change at a C cycle's TS. -/
def unitOwl (c : UnitCfg) (u : EventUnit) (t : Instant) (high : Bool) : EventUnit × List Instant :=
  match c.ty with
  | 1 => (u, if (if high then polPos c else polNeg c) then [t] else [])
  | 3 | 6 =>
    let evs := if high then spanEvent c (polNeg c) u.upFall (some t) else spanEvent c (polPos c) u.upRise (some t)
    ((if high then { u with upRise := some t, upFall := none } else { u with upFall := some t, upRise := none }), evs.map (·.at'))
  | 7 => ({ u with ref := some t, fired := false, state := high, started := true }, [])
  | _ => (u, [])

/-- A TIMEOUT unit on an OWL source at a time: it fires LIM1 after its reference instant. -/
def unitOwlTimeout (d : Dev) (c : UnitCfg) (u : EventUnit) (now : Nat) : EventUnit × List Instant :=
  if c.ty ≠ 7 || !c.owl then (u, [])
  else
    let high := d.fox.owl.getLsbD (c.src - 4)
    let u := if u.started then u else { u with started := true, ref := some (tsInstant d now), fired := false, state := high }
    match u.ref with
    | some r =>
      if !u.fired && r.ts + c.lim1 ≤ now && (if high then polPos c else polNeg c) then
        ({ u with fired := true }, [tsInstant d (r.ts + c.lim1)])
      else (u, [])
    | none => (u, [])

end Sys2Proof.Machine
end

