-- ==== Sys2Proof/Machine/Capture.lean ====
section
/-! DEFINITION. CAP's rows (chapter 7): arm and disarm, storing vectors, overflow, bursts, headers, stream blocks. -/
namespace Sys2Proof.Machine

/-! ### Arm and disarm -/

/-- The current seal stream has its last leaf: the seal that covers it is FINAL (R478, Table 19.7). -/
def streamEnds (d : Dev) : Dev :=
  let s := d.sealing
  match s.waiting.getLast?, s.ready.getLast? with
  | some l, _ => { d with sealing := { s with waiting := s.waiting.dropLast ++ [{ l with final := true }] } }
  | none, some v => { d with sealing := { s with ready := s.ready.dropLast ++ [{ v with final := true }] } }
  | none, none => d

/-- Sealing takes its settings at each arm (R477, R478, R481); the leaves of the arms before it wait for no more of them. -/
def sealArm (d : Dev) : Dev :=
  let en := d.flag F.HEDGE_SEAL_CTRL_EN
  let ends := d.sealing.on && (!en || d.sealing.wrapped)
  let d := armEnds (if ends then streamEnds d else d)
  let s := d.sealing
  let leafLog := max 17 (d.get F.HEDGE_SEAL_CTRL_LEAF_LOG)
  let s' := { s with on := en, leafLog := leafLog, ringLog := d.get F.HEDGE_SEAL_CTRL_RING_LOG
                     batch := min (d.get F.HEDGE_SEAL_CTRL_BATCH) (2 ^ (leafLog - 1)) }
  if en && (!s.on || s.wrapped) then
    let d := { d with sealing := { s' with streams := (s.streams + 1) % 2 ^ 32, wrapped := false } }
    (d.wr R.HEDGE_SEAL_STREAM (BitVec.ofNat 32 s.streams)).put F.HEDGE_LEAF_NEXT_LEAF 0
  else { d with sealing := s' }

/-- The next arm, a mode change or an arrangement change releases a held record (R178). -/
def releaseHeld (d : Dev) : Dev :=
  ({ d with cap := { d.cap with held := none } }).putB F.CAP_STATUS_HOLDING false

/-- The further checks of an arm in FRAME and FINE (R191, R220). -/
def armExtraOk (d : Dev) (off start : Nat) : Bool :=
  if d.mode = mFrame then inDramOrData d (d.cf64 R.CAP_ACQ_HDR_LO / 64 * 64) 192
  else if d.mode = mFine then
    let a := d.cf64 R.RED_FINE_LS_LO
    a % 64 == 0 && inDram d a (128 * (readEntry d off start).count)
  else true

/-- One plan checked at an arm (R183): in use, with its entries as they stand, when it passes. -/
def tryPlan (d : Dev) (n : Nat) (plan : Nat × Nat) : Dev × Bool :=
  let (off, start) := plan
  let (d, reports, ok) := checkPlan 0 d n d.mode start off
  let d := if reports = 0 then d else d.post .q evClamp 0 (reports * 2 ^ 32)
  let entries := (List.range (d.load (tableBase + off + 0x0C) 4)).map (readEntry d off)
  if ok && armExtraOk d off start then
    (useTable 0 tyPlan off { d with cap := { d.cap with planOff := off, startEntry := start, entries := entries, planOk := true } }, true)
  else ({ d with cap := { d.cap with entries := [], planOk := false } }, false)

/-- Check the plan at an arm (R183): the committed plan, else the one committed before it, else none. -/
def armPlan (d : Dev) (n : Nat) : Dev :=
  match d.cap.plan with
  | none => { d with cap := { d.cap with entries := [], planOk := false } }
  | some p =>
    let (d, ok) := tryPlan d n p
    if ok then d
    else
      let d := capCode d 0x0B01
      match d.cap.lastPlan with
      | none => d
      | some q => (tryPlan d n q).1

/-- The slot an arm starts at (R181). -/
def armSlot (d : Dev) (planCommitted : Bool) : Dev :=
  let stream := d.mode = mStream || d.mode = mFine
  let fromStart (d : Dev) : Dev := (d.put F.CAP_POS_ENTRY_ENTRY d.cap.startEntry).put F.CAP_POS_SLOT_SLOT 0
  let d := d.putB F.CAP_STATUS_PLAN_END false
  if !d.cap.planOk then exhaustPlan { d with cap := { d.cap with resumable := d.cap.resumable && !planCommitted } }
  else
    let goOn := d.cfgB F.CAP_CTRL_CONTINUE && !stream
    let resume := goOn && d.cap.resumable && !planCommitted
    if resume then (if d.cap.exhausted then exhaustPlan d else d)
    else
      let d := if goOn then capCode d 0x0B06 else d
      fromStart { d with cap := { d.cap with exhausted := false, resumable := false, records := 0 } }

/-- The ring of an arm (R170, R171): a fresh P10 block begins with its first vector. A unit of an earlier arm that is still open
goes on in the same ring, past the numbers left out; with other inputs the arm's ring waits for its close. -/
def armRing (inputs : List Nat) (d : Dev) : Dev :=
  let c := d.cap
  let have' := c.have
  match c.unit with
  | none =>
    let fresh := (keptUnits d).isEmpty
    let s := if fresh then 0 else 768 * divUp have' 768
    { d with cap := { c with inputs := inputs, nextInputs := none, stored := Vector.replicate 4 s, newRun := true, fillFrom := s
                             marks := if fresh then [] else c.marks, steps := if fresh then [] else c.steps
                             cals := if fresh then [] else c.cals } }
  | some u =>
    if u.inputs ≠ inputs then { d with cap := { c with nextInputs := some inputs, fillFrom := have' } }
    else
      let s := 768 * divUp have' 768
      { d with cap := { c with nextInputs := none, stored := c.stored.map (· + (s - have')), fillFrom := s
                               runGrid := c.gridOf have', runStored := s
                               unit := some (if s = have' then u else { u with skips := u.skips ++ [(have', s)] }) } }

/-- CAP at an arm (R170, R173, R181 to R185). -/
def capArm (d : Dev) : Dev :=
  let planCommitted := d.cfgc.latched.any (fun w => w.tgt == .cap && w.addr == R.CAP_PLAN)
  let d := takeLatched d .cap
  let d := endAcq (releaseHeld d)
  let sampled := sampledInputs d.arr
  let picked := sampled.filter (fun i => bitsOf (d.cfg F.CAP_CTRL_INMASK) i i == 1)
  let d := if picked.isEmpty then capCode d 0x0B04 else d
  let inputs := if picked.isEmpty then sampled else picked
  let d := armSlot (armPlan d inputs.length) planCommitted
  let d := d.wr R.CAP_ACQ (d.rd R.CAP_ACQ + 1)
  let acq := (d.rd R.CAP_ACQ).toNat
  let d := ((d.wr64 R.CAP_LOST_LO 0).wr64 R.CAP_STREAM_WR_LO 0).wr64 R.CAP_STREAM_RD_LO 0
  let d := (d.put F.CAP_SRAM_HWM_KIB 0).putB F.CAP_STATUS_RING_BLOCKED false
  let d := armRing inputs d
  let frame := d.mode = mFrame
  let hdr := d.cf64 R.CAP_ACQ_HDR_LO / 64 * 64
  let d := { d with cap := { d.cap with
      armed := true, mode := d.mode, arr := d.arr, full := false, gap := 0, pendLost := 0, pendDrop := 0
      blocks := 0, trigSeq := 0, resume := false, justFull := false, tail := none, blkSaid := true
      needBlock := (d.mode = mStream || d.mode = mFine) && d.cfgB F.CAP_CTRL_RING_EN && d.cap.planOk
      acq := if frame || d.mode = mStack then
          { active := frame, num := acq, arr := d.arr, inputs := inputs, entry := d.get F.CAP_POS_ENTRY_ENTRY
            slDiv := d.ef R.STAG_SL_DIV, calCount := (d.rd R.CAL_COUNT).toNat, hdrAddr := hdr, hdrOk := inDramOrData d hdr 192 }
        else {} } }
  if frame && d.cap.exhausted then endAcq d else d

/-- The loss statements of a FINE block that closes with so many samples (R220). -/
def fineLoss (d : Dev) (u : CapUnit) (m : Nat) : Dev :=
  if u.mode ≠ mFine || u.kind ≠ CapKind.block then d
  else
    u.inputs.zipIdx.foldl (fun d (inp, i) =>
      let p : Fin 4 := Fin.ofNat 4 inp
      let r := d.red.get p
      let bs := lossStatement d (pipeCfg d p) (r.fineSat.filter (fun s => u.start ≤ s && u.indexOf s < m)).length
      let d := d.setRed p { r with fineSat := r.fineSat.filter (fun s => m ≤ u.indexOf s) }
      storeResult (showLoss d p bs) (d.cf64 R.RED_FINE_LS_LO + u.slot * 128 + i * 32) bs) d

/-- The stream ended without an open block: its last block posts EV_BLOCK_DONE whatever its INDEX (R192). -/
def sayLastBlock (d : Dev) : Dev :=
  if d.cap.moving.any (fun u => u.kind == CapKind.block && u.acq == (d.rd R.CAP_ACQ).toNat) then
    let n := (d.cap.moving.filter (fun u => u.kind == CapKind.block)).length
    let mark (l : List CapUnit) : List CapUnit :=
      (l.foldl (fun (s : List CapUnit × Nat) u =>
        let i := if u.kind == CapKind.block then s.2 + 1 else s.2
        (s.1 ++ [if u.kind == CapKind.block && i = n then { u with final := true } else u], i)) ([], 0)).1
    { d with cap := { d.cap with moving := mark d.cap.moving } }
  else if d.cap.blkSaid then d
  else { d with cap := { d.cap with blkSaid := true } }.post .c evBlockDone 0 d.cap.blkHdr

/-- CAP at a disarm (R191, R194): the acquisition ends with its open segment; the open stream block closes. -/
def capDisarm (d : Dev) : Dev :=
  let stream := d.cap.mode == mStream || d.cap.mode == mFine
  let wasArmed := d.cap.armed
  let d := { d with cap := { d.cap with armed := false, acq := { d.cap.acq with ending := true } } }
  match d.cap.unit with
  | none => endAcq (if stream && wasArmed then sayLastBlock d else d)
  | some u =>
    if u.kind == CapKind.block then
      let m := openSamples d
      if m = 0 then sayLastBlock (dropBlock d u)
      else
        let d := { d with cap := { d.cap with unit := some { u with final := true } } }
        closeUnit (fineLoss d u m) m 0 0 (some (m - 1))
    else d

/-! ### The vector stream -/

/-- FOX's native index and TS of stored sample s: S16 outputs in FINE stand DECIM apart (R195). -/
def unitStartK (d : Dev) (s : Nat) : Int × Int :=
  let k := d.cap.gridOf s
  if d.cap.mode = mFine then (k, d.outTS k - stepsAfter d s) else (k, storedTS d s)

/-- Open a stream block at stored sample s. -/
def startBlock (s : Nat) (d : Dev) : Dev :=
  let (k, ts) := unitStartK d s
  openBlock d s (if d.cap.mode = mFine then (pipeCfg d 0).decim % 2 ^ 32 else 1) k ts

/-- Trims changed at a block boundary in FINE reach a stored input: the pipes restart together, since one block holds the outputs
of all its inputs, and the next block begins once the filters have refilled (R193, R198, R217). -/
def fineRestart (d : Dev) : Dev :=
  let d := pipes.foldl (fun d p => if (d.red.get p).running then restartPipe 0 none p d else d) d
  { d with cap := { d.cap with newRun := true, needBlock := true } }

/-- Trims, proposals and swaps take effect at the boundary of a unit of capture (R19, R81); in a mode transition they wait for the
target mode (R64). Answers the banks that changed. -/
def boundaryTrims (d : Dev) : Dev × Nat :=
  let next := (d.conv.next.toList.filterMap id).headD 0
  if d.phase = 0 then applyTrims d (d.sampleTS next) else (d, 0)

/-- STREAM_BLOCK_CLOSE (R193): a full block closes, staged trims take effect, the next block begins. -/
def streamBlockClose (d : Dev) : Dev :=
  match d.cap.unit with
  | some u =>
    if u.kind == CapKind.block && u.start + u.need ≤ d.cap.have then
      let d := closeUnit (fineLoss d u u.need) u.need 0 0 (some (u.need - 1))
      let (d, banks) := boundaryTrims d
      let stored := u.inputs.any (fun i => (banksOf u.arr i).any (fun b => bitsOf banks b b == 1))
      showLevel (if u.mode = mFine && stored then fineRestart d
        else restartLive banks 0 none (startBlock (u.start + u.need) d))
    else d
  | none => d

/-- The flags that every sample of a vector of an input meets at this moment (Table 7.6). -/
def vectorFlags (d : Dev) (inp : Nat) : Nat :=
  let stale := d.get F.CAL_STATUS_STALE ≠ 0 || bitsOf (d.get F.CAL_STATUS_SET_VALID) d.arr d.arr = 0
  let spare := (banksOf d.arr inp).any fun b => d.get (F.ILV_b_SPARE_ACTIVE b) ≠ 63
  (if stale then flCalStale else 0) + (if d.get F.STAG_STATUS_TB_SRC = 3 then flUnreferenced else 0)
    + (if spare then flSpare else 0)

/-- The codes of a vector, each with the flags its sample meets (Table 7.6). -/
def flagged (d : Dev) (inp : Nat) (xs : List Sample) : List (Int × Nat) :=
  let fl := vectorFlags d inp
  xs.map fun x => (x.code.toInt, orFlags fl (if x.ovr then flOverrange else 0))

/-- FINE: store RED's outputs as S16 from stored number s on (R195); saturated ones count (R211). -/
def storeFine (inp : Fin 4) (n i s : Nat) (outs : List RedOut) (d : Dev) : Dev :=
  let d := outs.zipIdx.foldl (fun d (o, j) => addMark (putS16 d n i (s + j) (o.v / 256)) (s + j) (s + j) o.flags) d
  let sats := (outs.zipIdx.filter (fun x => x.1.sat)).map (fun x => s + x.2)
  let d := d.setRed inp { d.red.get inp with fineSat := (d.red.get inp).fineSat ++ sats }
  if sats.isEmpty then d else d.count (R.RED_p_SAT inp) sats.length

/-- Store one input's vector: P10 codes, or RED's S16 outputs in FINE. -/
def storeVector (inp : Fin 4) (k0 : Int) (xs : List Sample) (d : Dev) : Dev :=
  match d.cap.inputs.idxOf? inp.val with
  | none => if d.cap.mode = mFine then (fineVector inp k0 (flagged d inp xs) d).1 else d
  | some i =>
    let s := d.cap.stored.get inp
    let n := d.cap.n
    if d.cap.mode = mFine then
      let (d, outs) := fineVector inp k0 (flagged d inp xs) d
      let d := match outs with
        | o :: _ => if d.cap.newRun && i = 0 then beginRun d s o.k (pipeCfg d inp).decim else d
        | [] => d
      let d := if i = 0 then noteCal d s else d
      let d := storeFine inp n i s outs d
      { d with cap := { d.cap with stored := d.cap.stored.set inp.val (s + outs.length) } }
    else
      let fl := vectorFlags d inp
      let d := if d.cap.newRun && i = 0 then beginRun d s k0 1 else d
      let d := if i = 0 then noteCal d s else d
      let d := putSamples d n i s xs
      let d := { d with cap := { d.cap with stored := d.cap.stored.set inp.val (s + xs.length) } }
      let d := addMark d s (s + xs.length - 1) fl
      (xs.zipIdx.filter (fun x => x.1.ovr)).foldl (fun d x => addMark d (s + x.2) (s + x.2) flOverrange) d

/-- Samples that the next vector adds to a stored input: 256, or the outputs that fall into it in FINE. -/
def nextStored (k0 : Int) (d : Dev) : Nat :=
  if d.cap.mode = mFine then
    (fineVector (Fin.ofNat 4 (d.cap.inputs.headD 0)) k0 (List.replicate 256 (0, 0)) d).2.length
  else 256

/-- CAP takes samples: an arm runs, or a record of one still fills; not while a held record freezes the ring. -/
def capTakes (d : Dev) : Bool :=
  (d.cap.armed || d.cap.unit.isSome) && d.cap.held.isNone && isCapture d.mode

/-- The next vectors would overwrite a kept byte: CAP becomes full and closes the open unit (R196, R197). A drain goes on until the
unit's post-trigger count would have ended (R66). -/
def overflowStart (k0 : Int) (d : Dev) : Dev :=
  let d := ({ d with cap := { d.cap with full := true, gap := 0, justFull := d.cap.unit.isSome } }).putB F.CAP_STATUS_OVF true
  let d := d.post .c evOverflow 0 0 (some (BitVec.ofInt 96 (d.sampleTS k0)))
  match d.cap.unit with
  | none => d
  | some u =>
    let m := openSamples d
    let last := if m = 0 then none else some (m - 1)
    if u.kind == CapKind.block then
      (if m = 0 then
         let d := dropBlock d u
         { d with cap := { d.cap with pendLost := u.lost, pendDrop := u.dropped } }
       else closeUnit (fineLoss d u m) m 0 0 last)
    else
      let stop := u.startK + u.need
      let d := { d with fox := { d.fox with busyEnd := some (k0 + samplesIn (d.ef R.STAG_SL_DIV) d.arr 3) } }
      let d := closeUnit d m flOverflow (u.need - m) last
      let d := { d with cap := { d.cap with tail := some stop } }
      if u.mode = mStack then stkBoundary (stkRejectUnit 0x0D02 d)
      else if u.mode = mSingle then armEnds d else d

/-- An overflow closed a unit in the same cycle as a loss of lock or an ABORT: it carries every flag (R197). -/
def addFlags (fl : Nat) (good : Option Nat) (d : Dev) : Dev :=
  if !d.cap.justFull then d
  else match d.cap.moving.getLast? with
    | none => d
    | some u =>
      let g := match good, u.lastGood with | some a, some b => some (min a b) | _, _ => none
      let u' := settleUnit d { u with flags := orFlags u.flags fl, lastGood := if fl = flClockLost then g else u.lastGood }
      let acq (a : AcqAcc) : AcqAcc := if u.kind == CapKind.segment && a.num = u.acq then { a with flags := orFlags a.flags fl } else a
      { d with cap := { d.cap with moving := d.cap.moving.dropLast ++ [u'], acq := acq d.cap.acq, ended := d.cap.ended.map acq
                                   justFull := false } }

/-- So many samples per input are dropped (R196, R197). -/
def dropSamples (m : Nat) (d : Dev) : Dev :=
  let d := { d with cap := { d.cap with gap := d.cap.gap + m } }
  if d.cap.mode = mStream || d.cap.mode = mFine then d.wr64 R.CAP_LOST_LO (d.rd64 R.CAP_LOST_LO + m) else d

/-- RECORD_CLOSE (R176): the post-trigger count is reached; trims and swaps take effect; STACK hands the acquisition to STK. -/
def recordClose (d : Dev) : Dev :=
  match d.cap.unit with
  | some u =>
    if u.kind ≠ CapKind.block && u.need ≤ u.indexOf d.cap.have then
      let d := closeUnit d u.need 0 0 (some (u.need - 1))
      let full := settleUnit d { u with samples := u.need, closed := true }
      let (d, banks) := boundaryTrims d
      let d := restartLive banks 0 none d
      let d := if u.mode = mStack then stkBoundary (stkTake d full) else d
      let d := if u.mode = mSingle then armEnds d else d
      showLevel d
    else d
  | none => d

/-- What happens at a vector boundary before the span's first input (R522): a unit that has all its samples closes, then resumption,
overflow, block starts. -/
def capBoundary (k0 : Int) (d : Dev) : Dev :=
  if !capTakes d then d
  else
    let d := streamBlockClose (recordClose { d with cap := { d.cap with justFull := false } })
    let d := if d.cap.full && d.cap.resume then
        let c := d.cap
        { d with cap := { c with full := false, resume := false, newRun := true, fillFrom := c.have
                                 pendLost := c.pendLost + c.gap, gap := 0
                                 needBlock := (c.mode = mStream || c.mode = mFine) && d.cfgB F.CAP_CTRL_RING_EN && c.planOk } }
      else d
    let d := if d.cap.full then d else if wouldOverwrite d (nextStored k0 d) then overflowStart k0 d else d
    if d.cap.full then dropSamples (nextStored k0 d) d else d

/-- One input's vector reaches CAP; while CAP is full it is dropped, and RED's filters go on in FINE. -/
def capVector (inp : Fin 4) (k0 : Int) (xs : List Sample) (d : Dev) : Dev :=
  if !capTakes d then d
  else if d.cap.full then (if d.cap.mode = mFine then (fineVector inp k0 (flagged d inp xs) d).1 else d)
  else
    let start := d.cap.have
    let d := storeVector inp k0 xs d
    -- a block opens at the first stored sample of its run
    if d.cap.needBlock && start < d.cap.have && !d.cap.newRun then showLevel (startBlock start d) else showLevel d

/-! ### Moving units to DRAM (R175 to R177, R194) -/

/-- STOP holds a block of the present stream back while the ring is full (R194). -/
def ringHolds (d : Dev) (u : CapUnit) : Bool :=
  u.kind == CapKind.block && !d.cfgB F.CAP_CTRL_RING_POLICY && u.acq == (d.rd R.CAP_ACQ).toNat &&
    u.ringCount ≤ u.index - min (d.rd64 R.CAP_STREAM_RD_LO) (d.rd64 R.CAP_STREAM_WR_LO)

/-- Bursts of a unit that can be written: all of a closed one, the complete ones of one that still fills (R175). -/
def burstsReady (d : Dev) (u : CapUnit) : Nat :=
  u.inputs.length * (if u.closed then bodyBursts u.mode u.samples else openSamples d / (if u.mode = mFine then 32 else 48))

/-- The next unit with a burst to write: the oldest that moves, then the open one; a held one stays (R178). -/
def burstUnit (d : Dev) : Option CapUnit :=
  match d.cap.moving.find? (fun u => u.bursts < burstsReady d u) with
  | some u => some u
  | none => d.cap.unit.filter (fun u => u.keep && !u.hold && u.bursts < burstsReady d u)

/-- A body burst waits at the read port of capture SRAM (R22). -/
def captureBusy (d : Dev) : Bool := (burstUnit d).any (fun u => !ringHolds d u)

/-- Invalidate the slot's old header before its first burst (R177). -/
def invalidateHeader (d : Dev) (u : CapUnit) : Dev :=
  if !d.cap.written.contains u.hdrAddr then d
  else if u.kind == CapKind.segment then d.store u.hdrAddr 4 0xFFFFFFFF
  else d.writeOut u.hdrAddr (zeros 64)

/-- BODY_BURST (R175): the next 64-byte burst of a unit, in rotation over the inputs. A unit moves while it still fills. -/
def bodyBurst (d : Dev) : Dev :=
  match burstUnit d with
  | none => d
  | some u =>
    if ringHolds d u then capCode (d.putB F.CAP_STATUS_RING_BLOCKED true) 0x0B03
    else
      let d := d.putB F.CAP_STATUS_RING_BLOCKED false
      let n := u.inputs.length
      let d := if u.bursts = 0 then invalidateHeader d u else d
      let i := u.bursts % n
      let b := u.bursts / n
      let full := { u with samples := if u.closed then u.samples else openSamples d }
      let bytes := (List.range 16).flatMap fun w => leBytes 4 (bodyWord d full i (16 * b + w))
      let d := d.writeOut (u.bodyAddr + i * u.inStride + 64 * b) bytes
      let on (x : CapUnit) : CapUnit := { x with bursts := x.bursts + 1 }
      showLevel (if u.closed then { d with cap := { d.cap with moving := d.cap.moving.replace u (on u) } }
        else { d with cap := { d.cap with unit := some (on u) } })

/-- The trigger list of a block as bytes (Table 7.8). -/
def tlistBytes (l : List TrigEntry) : List Byte :=
  l.flatMap fun e => leBytes 8 e.index ++ leBytes 2 e.frac ++ leBytes 1 e.source ++ zeros 1 ++ leBytes 4 e.seq

/-- A leaf whose header stands may be hashed (R479). -/
def leafWritten (d : Dev) (leaf : Nat) : Dev :=
  if leaf = 0 then d
  else { d with sealing := { d.sealing with waiting := d.sealing.waiting.map fun l => if l.num + 1 = leaf then { l with written := true } else l } }

def onCadence (d : Dev) (index : Nat) : Bool := index % 2 ^ d.cfg F.CAP_CTRL_EV_SHIFT == 0

/-- Write a unit's header and post its completion event (R176, R192). -/
def writeHeader (u : CapUnit) (d : Dev) : Dev :=
  let d := leafWritten { d with cap := { d.cap with written := u.hdrAddr :: d.cap.written.filter (· ≠ u.hdrAddr) } } u.leaf
  match u.kind with
  | .record => (d.writeOut u.hdrAddr (recordHeader u 1 1 0)).post .c evRecDone 0 u.hdrAddr
  | .segment =>
    let d := d.writeOut u.hdrAddr (segmentHeader u)
    let last := (d.cap.ended.any (fun a => a.num == u.acq && a.segments == u.index + 1))
    if onCadence d u.index || last then
      let said (a : AcqAcc) : AcqAcc := if a.num = u.acq && a.lastHdr = u.hdrAddr then { a with lastSaid := true } else a
      ({ d with cap := { d.cap with acq := said d.cap.acq, ended := d.cap.ended.map said } }).post .c evSegDone 0 u.hdrAddr
    else d
  | .block =>
    let d := d.writeOut u.tlistAddr (tlistBytes u.tlist)
    let d := d.writeOut u.hdrAddr (recordHeader u 3 u.tlist.length u.tlistAddr)
    let own := u.acq = (d.rd R.CAP_ACQ).toNat
    let said := onCadence d u.index || u.final
    let d := if own then
        { d with cap := { d.cap with blkHdr := u.hdrAddr, blkSaid := said } }.wr64 R.CAP_STREAM_WR_LO (d.rd64 R.CAP_STREAM_WR_LO + 1)
      else d
    if said then d.post .c evBlockDone 0 u.hdrAddr else d

/-- FOX's decision stage has passed a unit's last sample (R193). -/
def decided (d : Dev) (u : CapUnit) : Bool :=
  u.kind != CapKind.block || !d.armed || d.stag.lost
    || decide (u.startK + ((u.samples * u.decim : Nat) : Int) ≤ d.fox.vecK + 256)

/-- HEADER_WRITE (R176): the oldest unit all of whose bursts are accepted; a held record has none (R178). -/
def headerWrite (d : Dev) : Dev :=
  match d.cap.moving with
  | u :: us =>
    if burstsReady d u ≤ u.bursts && decided d u then
      showLevel (writeHeader u { d with cap := { d.cap with moving := us } })
    else d
  | [] =>
    match d.cap.heads with
    | u :: us => writeHeader u { d with cap := { d.cap with heads := us } }
    | [] => d

/-- The acquisition's own header as a unit of Table 7.5 (R191). -/
def acqUnit (a : AcqAcc) : CapUnit :=
  match a.first with
  | some u =>
    { u with kind := .record, index := a.segments, flags := a.flags, samples := a.samples, lost := a.lost, lastGood := none
             stepIndex := none, stepSize := 0, stepCount := a.steps, hdrAddr := a.hdrAddr, decim := 1, dropped := 0, leaf := 0
             skips := [] }
  | none =>
    { kind := .record, mode := mFrame, arr := a.arr, inputs := a.inputs, entry := a.entry, slot := 0, index := 0, acq := a.num
      source := 0xFF, start := 0, startK := 0, pre := 0, preReq := 0, need := 0, tsFirst := 0, bodyAddr := 0, inStride := 0
      hdrAddr := a.hdrAddr, slDiv := a.slDiv, calCount := a.calCount }

/-- ACQ_HEADER_WRITE (R191): the oldest ended acquisition whose last segment header stands. -/
def acqHeaderWrite (d : Dev) : Dev :=
  match d.cap.ended with
  | [] => d
  | a :: rest =>
    if (d.cap.moving ++ d.cap.unit.toList).any (fun u => u.acq == a.num && u.kind == CapKind.segment) then d
    else
      let d := { d with cap := { d.cap with ended := rest } }
      let d := if a.segments ≠ 0 && !a.lastSaid then d.post .c evSegDone 0 a.lastHdr else d
      if !a.hdrOk then armEnds d
      else
        let (d, leaf) := takeLeaf d
        let u := { acqUnit a with leaf := leaf, node := nodeWord d, sealW := sealWord (d.rd R.HEDGE_SEAL_STREAM).toNat leaf }
        let tlist := match a.first with | some f => f.hdrAddr | none => 0
        let d := if leaf = 0 then d else queueLeaf d { unitLeaf d u leaf with ty := 2, inputs := 0, written := true }
        (armEnds (d.writeOut a.hdrAddr (recordHeader u 2 1 tlist))).post .c evAcqDone 0 a.hdrAddr

/-- CAP_STREAM_RD (R194): host software has finished with that many blocks. -/
def capStreamRd (v : Nat) (d : Dev) : Dev :=
  let d := d.wr64 R.CAP_STREAM_RD_LO v
  d.putB F.CAP_STATUS_RING_BLOCKED (d.flag F.CAP_STATUS_RING_BLOCKED && (burstUnit d).any (ringHolds d))

/-- OVERFLOW_RESUME (R196): with 4 MiB free again, CAP resumes at the next span of vectors. -/
def overflowResume (d : Dev) : Dev :=
  if d.cap.full && keptBytes d + 0x400000 ≤ 0x4000000 then { d with cap := { d.cap with resume := true } } else d

end Sys2Proof.Machine
end

