-- ==== Sys2Proof/Machine/Lines.lean ====
section
/-! DEFINITION. Bit recovery and framing of the serial decoders (R154 to R161, R163, R165): what a decoder finds on its lines,
sample by sample. Nothing here reads a register: a decoder's settings come as an `RxCfg`. -/
namespace Sys2Proof.Machine

/-- A decoder's settings as read (Table 6.10, 6.11, 6.13), each value already the nearest valid one. -/
structure RxCfg where
  proto : Nat
  ui : Nat
  ui2 : Nat
  dataBits : Nat
  parity : Nat
  stops : Nat
  spiMode : Nat
  lsbFirst : Bool
  wordBits : Nat
  csUsed : Bool
  data1Used : Bool
  addr10 : Bool
  fdEn : Bool
  spNom : Nat
  spData : Nat
  sjw : Nat
  commaAny : Bool
  descr : Bool
deriving DecidableEq, Repr

/-- A change of a line: its instant (× 2^−32 tick), the TS of the sample that shows it, and the new state. -/
structure LineEdge where
  line : Nat
  ts : Nat
  seen : Nat
  level : Bool
deriving DecidableEq, Repr

/-- Edges in the order of their instants, of equal ones the lower line first. -/
def insertEdge (e : LineEdge) : List LineEdge → List LineEdge
  | [] => [e]
  | x :: xs => if x.ts ≤ e.ts then x :: insertEdge e xs else e :: x :: xs

def sortEdges (l : List LineEdge) : List LineEdge := l.foldl (fun acc e => insertEdge e acc) []

/-- The state of a line at the last of its samples at or before an instant (R158). -/
def SdecLine.before (l : SdecLine) (ts : Nat) : Bool := if l.seen ≤ ts then l.level else l.prev

/-! ### UART (R157, Table 6.4) -/

/-- The decision of the character's next bit: start, data, parity, stop. -/
def uartBit (c : RxCfg) (b : Bool) (u : UartRx) : UartRx × List SdecItem :=
  let p := if c.parity = 0 then 0 else 1
  let ended (ready : Bool) : UartRx := { since := u.since, ready }
  let next : UartRx := { u with bit := u.bit + 1 }
  if u.bit = 0 then (if b then (ended false, []) else (next, []))
  else if u.bit ≤ c.dataBits then
    let v := u.data + b.toNat * 2 ^ (u.bit - 1)
    ({ next with data := v, ones := u.ones + b.toNat }, if u.bit = c.dataBits then [.char v] else [])
  else if u.bit ≤ c.dataBits + p then
    let ones := u.ones + b.toNat
    let bad := decide (ones % 2 ≠ (c.parity + 1) % 2)
    ({ next with ones := ones, perr := bad }, if bad then [.error 1] else [])
  else if !b then (ended false, [.error (if u.ones = 0 then 6 else 2)])
  else if u.bit < c.dataBits + p + c.stops then ({ next with ones := u.ones + 1 }, [])
  else (ended (!u.perr), if u.perr then [] else [.frameEnd])

/-- The decisions that fall before an instant, with the line at `b`: bit i at (i + 0.5) × UI. -/
def uartRun (c : RxCfg) (until_ : Nat) (b : Bool) : Nat → UartRx → UartRx × List SdecItem
  | 0, u => (u, [])
  | fuel + 1, u =>
    match u.start with
    | none => (u, [])
    | some t =>
      if t + (2 * u.bit + 1) * c.ui / 2 < until_ then
        let (u, o) := uartBit c b u
        let (u, o') := uartRun c until_ b fuel u
        (u, o ++ o')
      else (u, [])

/-- An edge of the line: after one UI of idle, or good stop bits, a falling one begins a character. -/
def uartEdge (c : RxCfg) (e : LineEdge) (u : UartRx) : UartRx × List SdecItem :=
  if e.level then ({ u with since := e.ts }, [])
  else if u.start.isNone && (u.ready || u.since + c.ui ≤ e.ts) then
    ({ since := u.since, start := some e.ts }, [.align true])
  else (u, [])

def uartStep (c : RxCfg) (now : Nat) (was : Bool) (es : List LineEdge) (u : UartRx) : UartRx × List SdecItem :=
  match es with
  | [] => uartRun c (now + 1) was 4 u
  | e :: _ =>
    let (u, o1) := uartRun c e.ts was 4 u
    let (u, o2) := uartEdge c e u
    let (u, o3) := uartRun c (now + 1) e.level 4 u
    (u, o1 ++ o2 ++ o3)

/-! ### SPI (R158, R160) -/

def spiBit (c : RxCfg) (v : Nat) (b : Bool) (count : Nat) : Nat := if c.lsbFirst then v + b.toNat * 2 ^ count else 2 * v + b.toNat

/-- Two like edges of a clock lie closer than `n` / `m` tick. -/
def tooClose (n m : Nat) (last : Option Nat) (ts : Nat) : Bool := last.any fun t => decide ((ts - t) * m < n * 2 ^ 32)

/-- A sampling edge of SCLK: one more bit of the words. -/
def spiSample (c : RxCfg) (a b : Bool) (y : SpiRx) : SpiRx × List SdecItem :=
  let va := spiBit c y.a a y.count
  let vb := spiBit c y.b b y.count
  if y.count + 1 = c.wordBits then
    ({ y with count := 0, a := 0, b := 0 }, [.word va (if c.data1Used then some vb else none), .frameEnd])
  else ({ y with count := y.count + 1, a := va, b := vb }, [])

/-- The lines are those of the sample that shows the edge. -/
def spiEdge (c : RxCfg) (ls : Vector SdecLine 4) (e : LineEdge) (y : SpiRx) : SpiRx × List SdecItem :=
  if e.line = 1 then
    if !c.csUsed then (y, [])
    else if e.level then
      ({ idleAt := y.idleAt, clk := y.clk }, if y.framed && y.count ≠ 0 then [.error 1] else [])
    else ({ framed := true, idleAt := y.idleAt, clk := y.clk }, [.align true])
  else if e.line = 0 then
    let idle : Bool := 2 ≤ c.spiMode
    let rested := match y.idleAt with | some t => decide (t + c.ui ≤ e.ts) | none => false
    let (y, o1) : SpiRx × List SdecItem :=
      if !c.csUsed && e.level != idle && rested then ({ framed := true, clk := y.clk }, [.align true]) else (y, [])
    let y := { y with idleAt := if e.level = idle then some e.ts else none }
    let rising : Bool := c.spiMode = 0 || c.spiMode = 3
    if e.level != rising then (y, o1)
    else if tooClose 5 8 y.clk e.ts then (y, [.tooFast])
    else
      let y := { y with clk := some e.ts }
      if y.framed then
        let (y, o2) := spiSample c ((ls.get 2).before e.ts) ((ls.get 3).before e.ts) y
        (y, o1 ++ o2)
      else (y, o1)
  else (y, [])

def spiStep (c : RxCfg) (ls : Vector SdecLine 4) (es : List LineEdge) (y : SpiRx) : SpiRx × List SdecItem :=
  es.foldl (fun s e => let (y, o) := spiEdge c ls e s.1; (y, s.2 ++ o)) (y, [])

/-! ### I²C (R158, R161) -/

/-- 50 ns, and 10 ns after a master code. -/
def i2cFilter (y : I2cRx) : Nat := if y.short then 13421772800 else 67108864000

/-- The eighth bit of a byte. -/
def i2cByte (c : RxCfg) (v : Nat) (y : I2cRx) : I2cRx × List SdecItem :=
  match y.kind with
  | 0 =>
    let y := { y with isAddr := true, kind := 2, short := y.short || v / 8 == 1 }
    if c.addr10 && v / 8 = 30 then
      if v % 2 = 0 then ({ y with kind := 1, high := v / 2 % 4, saved := none }, [])
      else match y.saved with
        | some a => if y.again then (y, [.addr (2 * a + 1)]) else ({ y with saved := none }, [])
        | none => (y, [])
    else ({ y with saved := none }, [.addr v])
  | 1 =>
    let a := y.high * 256 + v
    ({ y with isAddr := true, kind := 2, saved := some a }, [.addr (2 * a)])
  | _ => ({ y with isAddr := false }, [.data v])

/-- A rising SCL samples SDA: eight bits of a byte, then its acknowledge. -/
def i2cRise (c : RxCfg) (b : Bool) (y : I2cRx) : I2cRx × List SdecItem :=
  if !y.within then (y, [])
  else
    let y := { y with tent := true, bits := y.bits + 1 }
    if y.bits ≤ 8 then
      let y := { y with acc := 2 * y.acc + b.toNat }
      if y.bits = 8 then i2cByte c y.acc y else (y, [])
    else if b then ({ y with within := false }, [.error (if y.isAddr then 1 else 2)])
    else (y, [.frameEnd])

/-- A START or STOP, with SDA changing while SCL is high: inside a byte it is misplaced. -/
def i2cCond (stop : Bool) (y : I2cRx) : I2cRx × List SdecItem :=
  let inside := y.within && y.bits ≠ y.tent.toNat
  let y := { y with busy := !stop, short := y.short && !stop, again := y.busy }
  if inside then ({ y with within := false }, [.error 4])
  else if stop then ({ y with within := false }, if y.within then [.cond 2] else [])
  else
    ({ y with within := true, bits := 0, tent := false, acc := 0, kind := 0, isAddr := false },
      [.align true, .cond (if y.again then 1 else 0)])

/-- A change that the filter passes. -/
def i2cEdge (c : RxCfg) (line : Nat) (p : I2cPend) (y : I2cRx) : I2cRx × List SdecItem :=
  if line = 1 then
    let y := { y with sdaPrev := y.sda, sda := p.level, sdaSeen := p.seen }
    if y.scl then i2cCond p.level y else (y, [])
  else
    let y := { y with scl := p.level }
    if p.level then
      if tooClose 3125 34 y.clk p.ts then (y, [.tooFast])
      else i2cRise c (if y.sdaSeen ≤ p.ts then y.sda else y.sdaPrev) { y with clk := some p.ts }
    else
      let y := { y with tent := false }
      (if y.bits = 9 then { y with bits := 0, acc := 0 } else y, [])

/-- The changes that have lasted long enough at an instant, in order. -/
def i2cDue (c : RxCfg) (ts : Nat) : Nat → I2cRx → I2cRx × List (Instant × SdecItem)
  | 0, y => (y, [])
  | fuel + 1, y =>
    let ripe (o : Option I2cPend) : Bool := match o with | some p => decide (p.ts + i2cFilter y ≤ ts) | none => false
    let first0 : Bool := match y.pend0, y.pend1 with
      | some p, some q => decide (p.ts ≤ q.ts)
      | some _, none => true
      | none, _ => false
    let pass (line : Nat) (p : I2cPend) (y : I2cRx) : I2cRx × List (Instant × SdecItem) :=
      let (y, o) := i2cEdge c line p y
      let (y, o') := i2cDue c ts fuel y
      (y, o.map (fun x => (p.at', x)) ++ o')
    match first0, y.pend0, y.pend1 with
    | true, some p, _ => if ripe y.pend0 then pass 0 p { y with pend0 := none } else (y, [])
    | false, _, some q => if ripe y.pend1 then pass 1 q { y with pend1 := none } else (y, [])
    | _, _, _ => (y, [])

/-- A change of a line enters the filter, or ends a pulse that is too short. -/
def i2cRaw (c : RxCfg) (at' : Instant) (e : LineEdge) (y : I2cRx) : I2cRx × List (Instant × SdecItem) :=
  let (y, o) := i2cDue c e.ts 2 y
  let p : I2cPend := ⟨e.ts, e.seen, at', e.level⟩
  let y := match e.line with
    | 0 => { y with pend0 := if e.level = y.scl then none else some p }
    | 1 => { y with pend1 := if e.level = y.sda then none else some p }
    | _ => y
  (y, o)

def i2cStep (c : RxCfg) (at' : Instant) (now : Nat) (es : List LineEdge) (y : I2cRx) : I2cRx × List (Instant × SdecItem) :=
  let (y, o) := es.foldl (fun s e => let (y, o) := i2cRaw c at' e s.1; (y, s.2 ++ o)) (y, [])
  let (y, o') := i2cDue c now 2 y
  (y, o ++ o')

/-! ### CAN and CAN FD (R157, R160, Table 6.4; ISO 11898-1:2015) -/

/-- Data bytes of a frame, from its ID_CTRL: DLC, FDF and RTR. -/
def canBytes (ctl : Nat) : Nat :=
  let dlc := ctl / 2 ^ 32 % 16
  if ctl / 2 ^ 30 % 2 = 1 then [0, 1, 2, 3, 4, 5, 6, 7, 8, 12, 16, 20, 24, 32, 48, 64].getD dlc 0
  else if ctl / 2 ^ 31 % 2 = 1 then 0 else min 8 dlc

/-- One bit through a CRC register of width n. -/
def crcBit {n : Nat} (poly : BitVec n) (b : Bool) (r : BitVec n) : BitVec n :=
  if r.msb == b then r <<< 1 else (r <<< 1) ^^^ poly

def CanRx.crcAll (b : Bool) (r : CanRx) : CanRx :=
  { r with crc17 := crcBit 0x1685B#17 b r.crc17, crc21 := crcBit 0x102899#21 b r.crc21 }
def CanRx.crcData (b : Bool) (r : CanRx) : CanRx := { r.crcAll b with crc15 := crcBit 0x4599#15 b r.crc15 }

def CanRx.go (r : CanRx) (s : CanStage) : CanRx := { r with stage := s, n := 0, acc := 0 }
def CanRx.fd (r : CanRx) : Bool := r.ctl / 2 ^ 30 % 2 == 1
def CanRx.ide (r : CanRx) : Bool := r.ctl / 2 ^ 29 % 2 == 1

/-- An error: the decoder waits for eleven recessive bits (Table 6.6). -/
def canFail (r : CanRx) (bits : Nat) : CanRx × List SdecItem := ({ r.go .integrate with fast := false }, [.error bits])

/-- The SOF bit. -/
def canSof (r : CanRx) : CanRx :=
  { start := r.start, last := r.last, used := r.used, stage := .ident, run := 1, crc17 := 0x10000#17, crc21 := 0x100000#21 : CanRx }.crcData false

/-- From the last bit of DLC or data to the CRC. -/
def canToCrc (r : CanRx) : CanRx := if r.fd then { r.go .crcFd with run := 0 } else r.go .crc

/-- Gray code of the stuff bits modulo 8, and its parity. -/
def stuffCode (stuffs : Nat) : Nat :=
  [0b0000, 0b0011, 0b0110, 0b0101, 0b1100, 0b1111, 0b1010, 0b1001].getD (stuffs % 8) 0

/-- A bit of a stuffed field that is no stuff bit. -/
def canField (c : RxCfg) (b : Bool) (r : CanRx) : CanRx × List SdecItem :=
  let acc := 2 * r.acc + b.toNat
  let more := { r with n := r.n + 1, acc }
  let put (bit : Nat) : CanRx := { r with ctl := r.ctl + b.toNat * 2 ^ bit }
  match r.stage with
  | .ident => (if r.n = 10 then { r with ctl := acc * 2 ^ 18 }.go .srr else more, [])
  | .srr => ({ r.go .ide with acc := b.toNat }, [])
  | .ide => (if b then (put 29).go .ext else { r with ctl := r.ctl + r.acc * 2 ^ 31 }.go .fdf, [])
  | .ext => (if r.n = 17 then { r with ctl := r.ctl + acc }.go .rtr else more, [])
  | .rtr => ((put 31).go .fdf, [])
  | .fdf =>
    if b then (if c.fdEn then ((put 30).go .res, []) else (r.go .integrate, []))
    else (if r.ide then r.go .r0 else r.go .dlc, [])
  | .r0 => (r.go .dlc, [])
  | .res => if b then canFail r 2 else (r.go .brs, [])
  | .brs => ({ (put 36).go .esi with fast := b }, [])
  | .esi => ((put 37).go .dlc, [])
  | .dlc =>
    if r.n = 3 then
      let r := { r with ctl := r.ctl + acc * 2 ^ 32 }
      (if canBytes r.ctl = 0 then canToCrc r else r.go .data, [.canId r.ctl])
    else (more, [])
  | .data =>
    if r.n % 8 = 7 then
      (if r.n + 1 = 8 * canBytes r.ctl then canToCrc r else { more with acc := 0 }, [.canByte acc])
    else (more, [])
  | _ => (r, [])

/-- A bit of the classical CRC sequence. -/
def canCrc (b : Bool) (r : CanRx) : CanRx × List SdecItem :=
  let acc := 2 * r.acc + b.toNat
  if r.n = 14 then (if acc = r.crc15.toNat then (r.go .delim, []) else canFail r 4) else ({ r with n := r.n + 1, acc }, [])

/-- A bit of the FD CRC field: a fixed stuff bit before every four; the stuff count, then the CRC. `n` counts all of them. -/
def canCrcFd (b : Bool) (r : CanRx) : CanRx × List SdecItem :=
  let wide := 16 < canBytes r.ctl
  let acc := 2 * r.acc + b.toNat
  if r.n % 5 = 0 then (if b = r.last then canFail r 2 else ({ r with n := r.n + 1 }, []))
  else if r.n < 4 then ({ r.crcAll b with n := r.n + 1, acc }, [])
  else if r.n = 4 then (if acc = stuffCode r.stuffs then ({ r.crcAll b with n := 5, acc := 0 }, []) else canFail r 16)
  else if r.n = (if wide then 31 else 26) then
    (if acc = (if wide then r.crc21.toNat else r.crc17.toNat) then (r.go .delim, []) else canFail r 4)
  else ({ r with n := r.n + 1, acc }, [])

/-- A bit at its sample point. -/
def canBit (c : RxCfg) (b : Bool) (r : CanRx) : CanRx × List SdecItem :=
  let run := if b = r.last then r.run + 1 else 1
  let stuffed (r : CanRx) : CanRx := { r.crcAll b with run := 1, stuffs := r.stuffs + 1 }
  match r.stage with
  | .integrate => if !b then (r.go .integrate, []) else if r.n = 10 then (r.go .idle, [.align true]) else ({ r with n := r.n + 1 }, [])
  | .idle => (r, [])
  | .sof => (if b then r.go .idle else canSof r, [])
  | .crc =>
    if r.run = 5 then (if b = r.last then canFail r 1 else (stuffed r, [])) else canCrc b { r with run }
  | .crcFd => canCrcFd b r
  | .delim =>
    let r := { r with fast := false }
    if r.run = 5 && !r.fd then (if b = r.last then canFail r 1 else ({ r with run := 0 }, []))
    else if b then (r.go .ack, []) else canFail r 2
  | .ack =>
    if !b then ({ r.go .ackDelim with acc := 1 }, [])
    else if r.fd && r.acc = 0 then ({ r with acc := 1 }, []) else canFail r 8
  | .ackDelim => if b then (r.go .eof, []) else if r.fd && r.acc = 1 then ({ r with acc := 2 }, []) else canFail r 2
  | .eof =>
    if r.n = 6 then (if b then r.go .space else r.go .integrate, [.frameEnd])
    else if b then ({ r with n := r.n + 1 }, []) else canFail r 2
  | .space =>
    if r.n = 2 then (if b then r.go .idle else canSof r, [])
    else if b then ({ r with n := r.n + 1 }, []) else (r.go .integrate, [])
  | .ident | .srr | .ide | .ext | .rtr | .fdf | .r0 | .res | .brs | .esi | .dlc | .data =>
    if r.run = 5 then (if b = r.last then canFail r 1 else (stuffed r, [])) else canField c b ({ r with run }.crcData b)

def canUi (c : RxCfg) (r : CanRx) : Nat := if r.fast then c.ui2 else c.ui
def canSp (c : RxCfg) (r : CanRx) : Nat := if r.fast then c.spData else c.spNom

/-- The sample points that fall before an instant, with the bus at `b`. Where a bit changes the phase, the rest of it has the new
bit time. -/
def canRun (c : RxCfg) (until_ : Nat) (b : Bool) : Nat → CanRx → CanRx × List SdecItem
  | 0, r => (r, [])
  | fuel + 1, r =>
    let at' := r.start + canSp c r * canUi c r / 128
    if r.stage = .idle || until_ ≤ at' then (r, [])
    else
      let (r', o) := canBit c b r
      let next := if r'.fast = r.fast then r.start + canUi c r else at' + (128 - canSp c r') * canUi c r' / 128
      let (r', o') := canRun c until_ b fuel { r' with start := next, last := b, used := false }
      (r', o ++ o')

/-- A recessive-to-dominant edge: it begins a frame, or shifts the bit by at most SJW. -/
def canEdge (c : RxCfg) (e : LineEdge) (r : CanRx) : CanRx :=
  if e.level then r
  else match r.stage with
    | .idle => { r.go .sof with start := e.ts, last := true, used := true }
    | .integrate => { r with start := e.ts, used := true }
    | _ =>
      if r.stage = .space && r.n = 2 then { r.go .sof with start := e.ts, used := true }
      else if r.last && !r.used then
        let lim : Int := c.sjw * c.ui / 128
        let x : Int := (e.ts : Int) - r.start
        { r with start := ((r.start : Int) + max (-lim) (min lim x)).toNat, used := true }
      else r

def canStep (c : RxCfg) (now : Nat) (was : Bool) (es : List LineEdge) (r : CanRx) : CanRx × List SdecItem :=
  match es with
  | [] => canRun c (now + 1) was 4 r
  | e :: _ =>
    let (r, o1) := canRun c e.ts was 4 r
    let (r, o2) := canRun c (now + 1) e.level 4 (canEdge c e r)
    (r, o1 ++ o2)

/-! ### 8b/10b (R160, R161; IEEE 802.3 Clause 36) -/

/-- The 6-bit code of a data character's low five bits at negative disparity, bit a highest. -/
def code6 : List Nat :=
  [0b100111, 0b011101, 0b101101, 0b110001, 0b110101, 0b101001, 0b011001, 0b111000, 0b111001, 0b100101, 0b010101, 0b110100, 0b001101,
   0b101100, 0b011100, 0b010111, 0b011011, 0b100011, 0b010011, 0b110010, 0b001011, 0b101010, 0b011010, 0b111010, 0b110011, 0b100110,
   0b010110, 0b110110, 0b001110, 0b101110, 0b011110, 0b101011]

/-- The 4-bit code of the high three bits at negative disparity, bit f highest. -/
def code4 : List Nat := [0b1011, 0b1001, 0b0101, 0b1100, 0b1101, 0b1010, 0b0110, 0b1110]

/-- The twelve K characters: byte and 10-bit code at negative disparity. -/
def kCodes : List (Nat × Nat) :=
  [(0x1C, 0b0011110100), (0x3C, 0b0011111001), (0x5C, 0b0011110101), (0x7C, 0b0011110011), (0x9C, 0b0011110010), (0xBC, 0b0011111010),
   (0xDC, 0b0011110110), (0xFC, 0b0011111000), (0xF7, 0b1110101000), (0xFB, 0b1101101000), (0xFD, 0b1011101000), (0xFE, 0b0111101000)]

def onesIn (w v : Nat) : Nat := (List.range w).foldl (fun acc i => acc + v / 2 ^ i % 2) 0

/-- A sub-block of w bits at a disparity: unbalanced codes and the two alternating ones complement at positive disparity. -/
def subCode (w code : Nat) (rd : Bool) : Nat :=
  if rd && (2 * onesIn w code ≠ w || code = 0b111000 || (w = 4 && code = 0b1100)) then 2 ^ w - 1 - code else code

/-- Running disparity after a sub-block. -/
def subRd (w v : Nat) (rd : Bool) : Bool :=
  let o := 2 * onesIn w v
  if w < o then true else if o < w then false
  else if (w = 6 && v = 0b000111) || (w = 4 && v = 0b0011) then true
  else if (w = 6 && v = 0b111000) || (w = 4 && v = 0b1100) then false else rd

def groupRd (g : Nat) (rd : Bool) : Bool := subRd 4 (g % 16) (subRd 6 (g / 16) rd)

/-- The 10-bit group of a data byte at a disparity, with the alternate x.7 where its rule asks for it. -/
def dataGroup (v : Nat) (rd : Bool) : Nat :=
  let x := v % 32
  let six := subCode 6 (code6.getD x 0) rd
  let rd' := subRd 6 six rd
  let alt := v / 32 = 7 && (if rd' then x = 11 || x = 13 || x = 14 else x = 17 || x = 18 || x = 20)
  six * 16 + (if alt then (if rd' then 0b1000 else 0b0111) else subCode 4 (code4.getD (v / 32) 0) rd')

/-- The symbol of a group in one disparity's column, with K in bit 8. -/
def decodeGroup (g : Nat) (rd : Bool) : Option Nat :=
  match kCodes.find? (fun p => (if rd then 1023 - p.2 else p.2) = g) with
  | some p => some (256 + p.1)
  | none =>
    match (List.range 32).find? (fun x => subCode 6 (code6.getD x 0) rd = g / 16) with
    | none => none
    | some x => ((List.range 8).find? (fun y => dataGroup (x + 32 * y) rd = g)).map (fun y => x + 32 * y)

/-- A group that carries a comma: of K28.5, or of K28.1, K28.5 or K28.7. -/
def isComma (c : RxCfg) (g : Nat) : Bool :=
  g == 0x0FA || g == 0x305 || (c.commaAny && (g == 0x0F9 || g == 0x306 || g == 0x0F8 || g == 0x307))

/-- A whole group: the symbol, or CODE or DISPARITY; four CODE errors in sixteen symbols lose alignment. -/
def symGroup (y : SymRx) : SymRx × List SdecItem :=
  let g := y.sh
  let good := decodeGroup g y.rd
  let other := decodeGroup g (!y.rd)
  let code := good.isNone && other.isNone
  let bad := (code :: y.bad).take 16
  let y := { y with cnt := 0, rd := groupRd g y.rd, bad }
  let o : List SdecItem := match good with
    | some v => [.symbol (some v) g]
    | none => [.error (if code then 1 else 2), .symbol none g]
  if code && 4 ≤ (bad.filter id).length then ({ y with aligned := false, bad := [] }, o ++ [.align false]) else (y, o)

/-- One recovered bit. An aligning comma sets the disparity that its own column has. -/
def symBit (c : RxCfg) (b : Bool) (y : SymRx) : SymRx × List SdecItem :=
  let y := { y with sh := (2 * y.sh + b.toNat) % 1024, got := min 10 (y.got + 1), cnt := y.cnt + 1 }
  let comma := y.got = 10 && isComma c y.sh
  let onComma : SymRx := { y with aligned := true, rd := 0x200 ≤ y.sh }
  if !y.aligned then
    if comma then let (y, o) := symGroup { onComma with bad := [] }; (y, .align true :: o) else ({ y with cnt := 0 }, [])
  else if y.cnt = 10 then symGroup y
  else if comma then let (y, o) := symGroup onComma; (y, .error 4 :: o)
  else (y, [])

/-! ### 64b/66b (R160, R161; IEEE 802.3 Clause 49) -/

/-- The block types of Clause 49. -/
def blockTypes : List Nat :=
  [0x1E, 0x2D, 0x33, 0x66, 0x55, 0x78, 0x4B, 0x87, 0x99, 0xAA, 0xB4, 0xCC, 0xD2, 0xE1, 0xFF]

/-- The second header bit: an invalid header slips while searching, and the sixteenth of 64 blocks loses lock. -/
def blkHeader (y : BlkRx) : BlkRx × List SdecItem :=
  if y.h0 != y.h1 then (y, [])
  else if !y.locked then ({ y with good := 0, slip := true }, [])
  else if y.winv + 1 = 16 then
    ({ y with locked := false, good := 0, slip := true }, [.error 5, .align false])
  else ({ y with winv := y.winv + 1 }, [.error 1])

/-- The last bit of a block. -/
def blkEnd (y : BlkRx) : BlkRx × List SdecItem :=
  let valid := y.h0 != y.h1
  if y.locked then
    let y' := if y.wn + 1 = 64 then { y with wn := 0, winv := 0 } else { y with wn := y.wn + 1 }
    (y', [.block (if valid && !y.badType then some (y.h0.toNat + 2 * y.h1.toNat, y.pay) else none)])
  else if valid then
    if y.good + 1 = 64 then ({ y with locked := true, good := 0, wn := 0, winv := 0 }, [.align true])
    else ({ y with good := y.good + 1 }, [])
  else (y, [])

/-- One recovered bit: x^58 + x^39 + 1 descrambles the payload. -/
def blkBit (c : RxCfg) (b : Bool) (y : BlkRx) : BlkRx × List SdecItem :=
  if y.n = 0 then
    if y.slip then ({ y with slip := false }, []) else ({ y with n := 1, h0 := b, pay := 0, badType := false }, [])
  else if y.n = 1 then blkHeader { y with n := 2, h1 := b }
  else
    let i := y.n - 2
    let x := if c.descr then (b != y.hist.getLsbD 38) != y.hist.getLsbD 57 else b
    let y := { y with hist := y.hist <<< 1 ||| BitVec.ofNat 58 b.toNat, pay := y.pay + x.toNat * 2 ^ i, n := if i = 63 then 0 else y.n + 1 }
    if i = 63 then blkEnd y
    else if i = 7 && y.locked && y.h0 && !y.h1 && !blockTypes.contains y.pay then ({ y with badType := true }, [.error 2])
    else (y, [])

/-! ### One sample of a decoder -/

/-- The first sample examined: the decoder is idle with the lines as they stand. -/
def sdecFirst (now : Nat) (ls : Vector SdecLine 4) (spiIdle : Bool) : Sdec :=
  { started := true, lines := ls, uart := { since := now }
    spi := { idleAt := if (ls.get 0).level = spiIdle then some now else none }
    i2c := { scl := (ls.get 0).level, sda := (ls.get 1).level, sdaPrev := (ls.get 1).level, busy := false }
    can := { start := now, last := (ls.get 0).level } }

/-- A later sample: `ls` are the lines at it, `es` their changes since the one before. -/
def sdecSample (c : RxCfg) (at' : Instant) (now : Nat) (ls : Vector SdecLine 4) (es : List LineEdge) (s : Sdec) :
    Sdec × List (Instant × SdecItem) :=
  let was := (s.lines.get 0).level
  let s := { s with lines := ls }
  let es := sortEdges es
  let here (o : List SdecItem) : List (Instant × SdecItem) := o.map fun x => (at', x)
  match c.proto with
  | 0 => let (u, o) := uartStep c now was (es.filter (fun e => e.line = 0)) s.uart; ({ s with uart := u }, here o)
  | 1 => let (y, o) := spiStep c ls es s.spi; ({ s with spi := y }, here o)
  | 2 => let (y, o) := i2cStep c at' now es s.i2c; ({ s with i2c := y }, o)
  | 3 => let (r, o) := canStep c now was (es.filter (fun e => e.line = 0)) s.can; ({ s with can := r }, here o)
  | _ => (s, [])

/-- One bit that clock recovery decided. -/
def sdecBit (c : RxCfg) (b : Bool) (s : Sdec) : Sdec × List SdecItem :=
  match c.proto with
  | 4 => let (y, o) := symBit c b s.sym; ({ s with sym := y }, o)
  | 5 => let (y, o) := blkBit c b s.blk; ({ s with blk := y }, o)
  | _ => (s, [])

end Sys2Proof.Machine
end

