-- ==== Sys2Proof/Machine/Sdec.lean ====
section
/-! DEFINITION. SDEC, the serial decoders (chapter 6): lines, fields, matching, errors, synchronisation. -/
namespace Sys2Proof.Machine

def evSdecSync : Nat := 0x201
def evSdecErr : Nat := 0x202
def sdecCode (n : Fin 4) (c : Nat) (d : Dev) : Dev := d.put (F.SDEC_d_STATUS_LAST_CODE n) c
def Dev.setSdec (d : Dev) (n : Fin 4) (x : Sdec) : Dev := { d with sdec := d.sdec.set n.val x }
def sdecProto (d : Dev) (n : Fin 4) : Nat := d.cfg (F.SDEC_d_CFG_PROTO n)
def sdecClass (d : Dev) (n : Fin 4) : Nat := d.cfg (F.SDEC_d_CFG_CLASS n)

/-- The lines a decoder is given, LINE0 first; 0xF is unused. -/
def sdecLines (d : Dev) (n : Fin 4) : List Nat :=
  [d.cfg (F.SDEC_d_CFG_LINE0 n), d.cfg (F.SDEC_d_CFG_LINE1 n), d.cfg (F.SDEC_d_CFG_LINE2 n), d.cfg (F.SDEC_d_CFG_LINE3 n)]

/-- The roles Table 6.1 gives a protocol, and those it requires. -/
def protoRoles : Nat → List Nat
  | 1 => [0, 1, 2, 3] | 2 => [0, 1] | _ => [0]
def protoRequired : Nat → List Nat
  | 1 => [0, 2] | 2 => [0, 1] | _ => [0]

/-- The unit interval's limits of Table 6.2, × 2^−32 tick. -/
def uiLimits (proto : Nat) (sdi : Bool) : Option (Nat × Nat) :=
  match proto with
  | 0 => some (3125 * 2 ^ 32 / 1000, 3125000 * 2 ^ 32 / 3)
  | 3 => some (3125 * 2 ^ 32 / 10, 31250 * 2 ^ 32)
  | 4 => if sdi then some (0x40000000, 0x50000000) else some (0x05000000, 0x50000000)
  | 5 => some (0x02800000, 0x50000000)
  | _ => none

/-- The rate check of R160: the UI that the protocol uses, SPI's only as the idle gap. -/
def rateOk (d : Dev) (n : Fin 4) : Bool :=
  let proto := sdecProto d n
  let sdi := sdecClass d n = 1
  let ui := d.cf64 (R.SDEC_d_UI_LO n)
  let ui2 := d.cf64 (R.SDEC_d_UI2_LO n)
  let fd := proto = 3 && d.cfgB (F.SDEC_d_OPT_FD_EN n)
  let spans (u : Nat) : Bool := if sdi then 2 ^ 30 ≤ u else decide (5 * 2 ^ 56 ≤ 2 * u * (gridMul d.arr * divN (d.ef R.STAG_SL_DIV)))
  match uiLimits proto sdi with
  | none => !(proto = 1 && d.cfg (F.SDEC_d_CFG_LINE1 n) = 0xF) || spans ui
  | some (lo, hi) =>
    !(proto = 5 && sdi) && lo ≤ ui && ui ≤ hi && spans ui
      && (!fd || (decide (390625 * 2 ^ 32 / 10000 ≤ ui2) && spans ui2))

/-- The largest LEN of a field; none when the protocol does not define the field (Table 6.3). -/
def fieldLen (proto field : Nat) : Option Nat :=
  if field = 0xF then some 255
  else match proto, field with
    | 0, 0 => some 255 | 0, 1 => some 14
    | 1, 0 => some 255 | 1, 1 => some 255 | 1, 2 => some 255
    | 2, 0 => some 255 | 2, 1 => some 14 | 2, 2 => some 255
    | 3, 0 => some 255 | 3, 1 => some 12
    | 4, 0 => some 14 | 4, 1 => some 12
    | 5, 0 => some 255 | 5, 1 => some 255
    | _, _ => none

def sdecLen (d : Dev) (n : Fin 4) : Nat :=
  clampNat 1 ((fieldLen (sdecProto d n) (d.cfg (F.SDEC_d_MATCH_FIELD n))).getD 255) (d.cfg (F.SDEC_d_MATCH_LEN n))
def sdecOffset (d : Dev) (n : Fin 4) : Nat := min 63 (d.cfg (F.SDEC_d_MATCH_OFFSET n))

/-- An option value outside its protocol's range is read as the nearest valid one (Table 6.11). -/
def optCoerced (d : Dev) (n : Fin 4) : Bool :=
  match sdecProto d n with
  | 0 => d.cfg (F.SDEC_d_OPT_DATA_BITS n) < 5 || 9 < d.cfg (F.SDEC_d_OPT_DATA_BITS n) || d.cfg (F.SDEC_d_OPT_STOP n) = 3
      || d.cfg (F.SDEC_d_OPT_PARITY n) = 3
  | 1 => d.cfg (F.SDEC_d_OPT_WLEN n) < 3
  | 3 => d.cfg (F.SDEC_d_OPT_SP_NOM n) < 64 || 120 < d.cfg (F.SDEC_d_OPT_SP_NOM n) || d.cfg (F.SDEC_d_OPT_SP_DATA n) < 64
      || 120 < d.cfg (F.SDEC_d_OPT_SP_DATA n) || d.cfg (F.SDEC_d_OPT_SJW n) < 1 || 32 < d.cfg (F.SDEC_d_OPT_SJW n)
  | _ => false

/-- Why a decoder decodes nothing: the code it shows (R154, R156, R160). -/
def sdecIdle (d : Dev) (n : Fin 4) : Option Nat :=
  let lines := sdecLines d n
  let proto := sdecProto d n
  if (protoRequired proto).any (fun i => lines.getD i 0xF = 0xF) then some 0x0802
  else if sdecClass d n = 0 && !isCapture d.mode then some 0x0807
  else if sdecClass d n = 0 && (protoRoles proto).any (fun i => lines.getD i 0xF ≠ 0xF && !(sampledInputs d.arr).contains (lines.getD i 0xF))
    then some 0x0801
  else if !rateOk d n || (d.sdec.get n).fast then some 0x0803
  else none

/-- The decoder decodes now: ON or finishing its frame, not idle for a code, and not stopped by a loss of lock (R156). -/
def sdecDecodes (d : Dev) (n : Fin 4) : Bool :=
  (d.unitState (.sdec n) == stOn || d.unitState (.sdec n) == stDraining) && (sdecIdle d n).isNone
    && !d.stag.lost

/-- A change of SYNC posts EV_SDEC_SYNC (R166); losing it forgets what was received. -/
def setSync (n : Fin 4) (on : Bool) (d : Dev) : Dev :=
  let d := if on then d else d.setSdec n { d.sdec.get n with recent := [] }
  if d.flag (F.SDEC_d_STATUS_SYNC n) = on then d
  else (d.putB (F.SDEC_d_STATUS_SYNC n) on).post .c evSdecSync n.val on.toNat

/-- Start from idle: CDR_LOCK and SYNC clear (R156, R166). -/
def sdecRestart (n : Fin 4) (d : Dev) : Dev :=
  setSync n false ((d.putB (F.SDEC_d_STATUS_CDR_LOCK n) false).setSdec n {})

/-- The codes that a configuration, mode, arrangement or N gives a decoder (R154, R156, R160, R161). -/
def sdecCheck (n : Fin 4) (d : Dev) : Dev :=
  if !d.cfgB (F.SDEC_d_CFG_EN n) then d
  else
    let d := d.setSdec n { d.sdec.get n with fast := false }
    let maxLen := fieldLen (sdecProto d n) (d.cfg (F.SDEC_d_MATCH_FIELD n))
    let len := d.cfg (F.SDEC_d_MATCH_LEN n)
    let d := if optCoerced d n || len = 0 || maxLen.getD 255 < len || 63 < d.cfg (F.SDEC_d_MATCH_OFFSET n)
      then sdecCode n 0x0805 d else d
    let d := if maxLen.isNone then sdecCode n 0x0806 d else d
    match sdecIdle d n with
    | some c => setSync n false ((sdecCode n c d).setSdec n {})
    | none => d

/-! ### Matching (R162 to R164) -/

def words128 (d : Dev) (a : Nat) : Nat :=
  (d.ef a).toNat + 2 ^ 32 * (d.ef (a + 4)).toNat + 2 ^ 64 * (d.ef (a + 8)).toNat + 2 ^ 96 * (d.ef (a + 12)).toNat

/-- Table 6.5, after the mask. -/
def sdecMatches (d : Dev) (n : Fin 4) (x : Nat) : Bool :=
  let m : BitVec 128 := BitVec.ofNat 128 (words128 d (R.SDEC_d_MASK n 0))
  let mx := (BitVec.ofNat 128 x &&& m).toNat
  let a := (BitVec.ofNat 128 (words128 d (R.SDEC_d_VAL_A n 0)) &&& m).toNat
  let b := (BitVec.ofNat 128 (words128 d (R.SDEC_d_VAL_B n 0)) &&& m).toNat
  match d.cfg (F.SDEC_d_MATCH_REL n) with
  | 0 => true | 1 => mx == a | 2 => mx != a | 3 => mx < a | 4 => a < mx | _ => a ≤ mx && mx ≤ b

/-- A field completes at an instant: shown, compared, and a match becomes a SERIAL candidate (R161 to R164, R167). -/
def fieldComplete (n : Fin 4) (at' : Instant) (x : Nat) (d : Dev) : Dev :=
  let d := (List.range 4).foldl (fun d j => d.wr (R.SDEC_d_LAST_FIELD n j) (BitVec.ofNat 32 (x / 2 ^ (32 * j)))) d
  if (fieldLen (sdecProto d n) (d.cfg (F.SDEC_d_MATCH_FIELD n))).isNone || !sdecMatches d n x then d
  else
    let d := d.count (R.SDEC_d_MATCH_CNT n)
    if bitsOf (d.cfg F.FOX_SER_MATCH) n n = 1 && bitsOf (d.cfg F.FOX_CTRL_SRC_EN) 2 2 = 1 then
      let line := d.cfg (F.SDEC_d_CFG_LINE0 n)
      queueCand d ⟨srcSerial, at', false, sdecClass d n = 0, if sdecClass d n = 0 then line else 4⟩
    else d

def sdecField (d : Dev) (n : Fin 4) : Nat := d.cfg (F.SDEC_d_MATCH_FIELD n)

/-- The value of `len` slots of `w` bits, newest lowest. -/
def slots (w len : Nat) (l : List Nat) : Nat :=
  ((l.take len).zipIdx).foldl (fun acc (v, i) => acc + v * 2 ^ (w * i)) 0

/-- Complete a sliding field once LEN have passed since synchronisation, none of them in error. -/
def sliding (n : Fin 4) (at' : Instant) (raw : Bool) (w len : Nat) (d : Dev) : Dev :=
  let l := (((d.sdec.get n).recent.take len).filterMap id).map fun x => if raw then x.2 else x.1
  if l.length = len then fieldComplete n at' (slots w len l) d else d

/-- ERR goes sticky; its rise posts EV_SDEC_ERR (R165). UART, SPI, I²C and CAN then synchronise anew (Table 6.6). -/
def sdecError (n : Fin 4) (at' : Instant) (bits : Nat) (d : Dev) : Dev :=
  let d := d.count (R.SDEC_d_ERR_CNT n)
  let d := if d.flag (F.SDEC_d_STATUS_ERR n) then d
    else (d.putB (F.SDEC_d_STATUS_ERR n) true).post .c evSdecErr n.val bits
  let d := if sdecField d n = 0xF then fieldComplete n at' bits d else d
  if 4 ≤ sdecProto d n then d
  else setSync n false (d.setSdec n { d.sdec.get n with addr := none, bytes := [] })

/-- What a decoder found on its lines: a field may complete (R161, R165). -/
def sdecItem (n : Fin 4) (at' : Instant) (it : SdecItem) (d : Dev) : Dev :=
  let s := d.sdec.get n
  let field := sdecField d n
  let len := sdecLen d n
  match it with
  | .char v =>
    let d := d.setSdec n { s with recent := (some (v, v) :: s.recent).take 14 }
    if field = 0 then fieldComplete n at' v d else if field = 1 then sliding n at' false 9 len d else d
  | .word a b =>
    let (b, d) := match b with
      | some b => (b, d)
      | none => (d.free.toNat, if field = 1 || field = 2 then d.nextFree else d)
    match field with
    | 0 => fieldComplete n at' a d
    | 1 => fieldComplete n at' b d
    | 2 => fieldComplete n at' (a * 2 ^ 64 + b) d
    | _ => d
  | .cond c =>
    let d := d.setSdec n { s with addr := none, bytes := [] }
    if field = 2 then fieldComplete n at' c d else d
  | .addr v =>
    let d := d.setSdec n { s with addr := some v, bytes := [] }
    if field = 0 then fieldComplete n at' v d else d
  | .data b =>
    let bytes := s.bytes ++ [b]
    let d := d.setSdec n { s with bytes := bytes }
    match s.addr with
    | some a => if field = 1 && bytes.length = len then
        fieldComplete n at' (bytes.foldl (fun acc x => acc * 256 + x) a) d else d
    | none => d
  | .canId v =>
    let d := d.setSdec n { s with addr := some v, bytes := [] }
    if field = 0 then fieldComplete n at' v d else d
  | .canByte b =>
    let bytes := s.bytes ++ [b]
    let d := d.setSdec n { s with bytes := bytes }
    match s.addr with
    | some c =>
      let last := min (sdecOffset d n + len) (canBytes c)
      if field = 1 && sdecOffset d n < bytes.length && bytes.length = last then
        let took := (bytes.drop (sdecOffset d n)).take len
        fieldComplete n at' (c % 2 ^ 32 * 2 ^ 96 + (took.zipIdx.foldl (fun acc (x, i) => acc + x * 2 ^ (88 - 8 * i)) 0)) d
      else d
    | none => d
  | .symbol v raw =>
    let d := d.setSdec n { s with recent := (v.map (fun v => (v, raw)) :: s.recent).take 14 }
    if v.isNone then d
    else
      let d := d.count (R.SDEC_d_FRAME_CNT n)
      if field = 0 then sliding n at' false 9 len d else if field = 1 then sliding n at' true 10 len d else d
  | .block v =>
    let d := d.setSdec n { s with recent := (v.map (fun x => (x.2, x.2)) :: s.recent).take 2 }
    match v with
    | none => d
    | some (hdr, payload) =>
      let d := d.count (R.SDEC_d_FRAME_CNT n)
      match field, s.recent with
      | 0, _ => fieldComplete n at' (payload + hdr * 2 ^ 64) d
      | 1, some (prev, _) :: _ => fieldComplete n at' (payload * 2 ^ 64 + prev) d
      | _, _ => d
  | .tooFast => setSync n false ((sdecCode n 0x0803 d).setSdec n { fast := true })
  | .frameEnd => d.count (R.SDEC_d_FRAME_CNT n)
  | .error bits => sdecError n at' bits d
  | .align on => setSync n on d

/-! ### Lines (R153 to R155) -/

/-- The settings as read: a value outside its field's range is the nearest valid one (R161, Table 6.11). -/
def rxCfg (d : Dev) (n : Fin 4) : RxCfg :=
  { proto := sdecProto d n, ui := d.cf64 (R.SDEC_d_UI_LO n), ui2 := d.cf64 (R.SDEC_d_UI2_LO n)
    dataBits := clampNat 5 9 (d.cfg (F.SDEC_d_OPT_DATA_BITS n))
    parity := if d.cfg (F.SDEC_d_OPT_PARITY n) = 3 then 0 else d.cfg (F.SDEC_d_OPT_PARITY n)
    stops := if d.cfg (F.SDEC_d_OPT_STOP n) < 2 then 1 else 2
    spiMode := d.cfg (F.SDEC_d_OPT_MODE n), lsbFirst := d.cfgB (F.SDEC_d_OPT_LSB_FIRST n)
    wordBits := max 3 (d.cfg (F.SDEC_d_OPT_WLEN n)) + 1
    csUsed := d.cfg (F.SDEC_d_CFG_LINE1 n) ≠ 0xF, data1Used := d.cfg (F.SDEC_d_CFG_LINE3 n) ≠ 0xF
    addr10 := d.cfgB (F.SDEC_d_OPT_FD_EN n), fdEn := d.cfgB (F.SDEC_d_OPT_FD_EN n)
    spNom := clampNat 64 120 (d.cfg (F.SDEC_d_OPT_SP_NOM n)), spData := clampNat 64 120 (d.cfg (F.SDEC_d_OPT_SP_DATA n))
    sjw := clampNat 1 32 (d.cfg (F.SDEC_d_OPT_SJW n))
    commaAny := d.cfgB (F.SDEC_d_OPT_FD_EN n), descr := d.cfgB (F.SDEC_d_OPT_FD_EN n) }

def lineInv (d : Dev) (n : Fin 4) (role : Nat) : Bool := bitsOf (d.cfg (F.SDEC_d_CFG_INV n)) role role == 1
def lineLevel (d : Dev) (n : Fin 4) (role : Nat) : Int := d.cfgS (F.SDEC_d_LEVEL_LEVEL n role)

/-- A line on a sampled input at sample i of the latest vectors: its state follows the counted crossings of R120 and R121, and an
edge lies where the straight line between the two samples crosses the level, to 2^−8 of a sample period (R154). -/
def lineSampled (d : Dev) (n : Fin 4) (first : Bool) (i : Nat) (role : Fin 4) (l : SdecLine) : SdecLine × Option LineEdge :=
  let inp := (sdecLines d n).getD role 0xF
  if !(sampledInputs d.arr).contains inp then (l, none)
  else
    let level := lineLevel d n role
    let hyst : Int := d.cfg (F.SDEC_d_LEVEL_HYST n role)
    let inv := lineInv d n role
    let x0 := foxAt d inp ((i : Int) - 1)
    let x1 := foxAt d inp i
    let now := tsNat (d.sampleTS (foxIndex d i))
    if first then
      ({ level := decide (level ≤ x1) != inv, prev := decide (level ≤ x1) != inv, seen := now
         hist := { rise := true, fall := true } }, none)
    else
      let rising := x0 < level && level ≤ x1 && l.hist.rise
      let falling := level ≤ x0 && x1 < level && l.hist.fall
      let hist : LevelHist :=
        { rise := (l.hist.rise && !rising) || decide (x1 ≤ level - hyst)
          fall := (l.hist.fall && !falling) || decide (level + hyst ≤ x1) }
      let v := rising != inv
      if !(rising || falling) || v = l.level then ({ l with hist }, none)
      else
        let f := (clampInt 0 256 (roundEven ((level - x0) * 256 * (x1 - x0)) ((x1 - x0) * (x1 - x0)))).toNat
        let ts := tsNat (d.sampleTS (foxIndex d i - 1)) + f * 2 ^ 48 / (gridMul d.arr * divN (d.ef R.STAG_SL_DIV))
        ({ level := v, prev := l.level, seen := now, hist }, some ⟨role, min now ts, now, v⟩)

/-- A line on SDI at sample s of the latest tick (R155). -/
def lineSdi (d : Dev) (n : Fin 4) (now : Nat) (first : Bool) (s : Nat) (role : Fin 4) (l : SdecLine) : SdecLine × Option LineEdge :=
  let line := (sdecLines d n).getD role 0xF
  if 8 ≤ line then (l, none)
  else
    let v := (d.sdi.get (Fin.ofNat 8 line)).getLsbD s != lineInv d n role
    if first then ({ level := v, prev := v, seen := now }, none)
    else if v = l.level then (l, none)
    else ({ l with level := v, prev := l.level, seen := now }, some ⟨role, now, now, v⟩)

/-- One sample of all lines of a decoder. -/
def sdecAt (c : RxCfg) (at' : Instant) (now : Nat) (line : Bool → Fin 4 → SdecLine → SdecLine × Option LineEdge)
    (s : Sdec × List (Instant × SdecItem)) : Sdec × List (Instant × SdecItem) :=
  let rs := Vector.ofFn (fun r : Fin 4 => line (!s.1.started) r (s.1.lines.get r))
  let ls := rs.map (·.1)
  if !s.1.started then ({ sdecFirst now ls (2 ≤ c.spiMode) with recent := s.1.recent, sym := s.1.sym, blk := s.1.blk }, s.2)
  else
    let (x, o) := sdecSample c at' now ls (rs.toList.filterMap (·.2)) s.1
    (x, s.2 ++ o)

/-! ### Commits (R166) -/

/-- A committed register of a decoder other than MATCH, MASK, VAL_A and VAL_B changes (R166). -/
def sdecRetuned (d : Dev) (n : Fin 4) : Bool :=
  d.cfgc.parts.any fun w =>
    w.tgt == .sdec n && decide (w.addr < R.SDEC_d_MATCH n) && w.val != d.ef w.addr
      && (w.addr != R.SDEC_d_CFG n || (w.val ^^^ d.ef w.addr) &&& 0x7FFFFFFF#32 != 0)

/-- A frame is being decoded: a character, word, byte transfer, CAN frame, symbol or block (R165). -/
def sdecInFrame (d : Dev) (n : Fin 4) : Bool :=
  let s := d.sdec.get n
  d.flag (F.SDEC_d_STATUS_SYNC n) && (match sdecProto d n with
    | 0 => s.uart.start.isSome
    | 1 => s.spi.count ≠ 0
    | 2 => s.i2c.within && s.i2c.bits ≠ s.i2c.tent.toNat
    | 3 => s.can.stage ≠ .idle && s.can.stage ≠ .integrate
    | 4 => s.sym.cnt ≠ 0
    | _ => s.blk.n ≠ 0)

/-- A decoder takes what was committed, at its boundary (R166). FOX_TRIGOUT_MIN follows within 1 µs. -/
def sdecTake (n : Fin 4) (d : Dev) : Dev :=
  let retuned := sdecRetuned d n
  let d := applyUnit d (.sdec n)
  let en := d.cfgB (F.SDEC_d_CFG_EN n) && d.mode ≠ mCalibrate
  sdecCheck n
    (if en && d.unitState (.sdec n) = stOff then sdecRestart n (d.setUnit (.sdec n) stOn)
    else if retuned then sdecRestart n d else d)

/-- A disable that was committed to a decoder drains it: the frame in progress is finished first (Table 2.8). -/
def sdecDisabling (d : Dev) (n : Fin 4) : Bool :=
  d.cfgc.parts.any fun w => w.tgt == .sdec n && w.addr == R.SDEC_d_CFG n && !w.val.getLsbD 31

/-- The end of a frame, for a commit that waits for it. -/
def SdecItem.ends : SdecItem → Bool
  | .frameEnd | .symbol _ _ | .block _ | .error _ => true
  | .char _ | .word _ _ | .cond _ | .addr _ | .data _ | .canId _ | .canByte _ | .align _ | .tooFast => false

/-- What a decoder found, in order. A commit that waits takes effect at the end of a frame; what the old settings found in the rest
of the vector or tick is dropped, and the decoder goes on from the next (R166; DEDUCED, log 139). -/
def sdecItems (n : Fin 4) : List (Instant × SdecItem) → Dev → Dev
  | [], d => d
  | x :: xs, d =>
    let d := sdecItem n x.1 x.2 d
    if (d.sdec.get n).fast then d
    else if x.2.ends && hasPart d (.sdec n) && d.unitState (.sdec n) = stOn && !sdecDisabling d n then
      if sdecRetuned d n then sdecTake n d else sdecItems n xs (sdecTake n d)
    else sdecItems n xs d

/-- The new state of a decoder's lines and what it found, in order. -/
def sdecTakes (n : Fin 4) (r : Sdec × List (Instant × SdecItem)) (d : Dev) : Dev :=
  sdecItems n r.2 (d.setSdec n { r.1 with recent := (d.sdec.get n).recent, addr := (d.sdec.get n).addr, bytes := (d.sdec.get n).bytes })

/-- The decoders on sampled inputs over the 256 sample indices of a span, once all its vectors are there; a field's end lies at the
first sample at or after it (R167). -/
def sdecSpan (d : Dev) : Dev :=
  pipes.foldl (fun d n =>
    if sdecClass d n = 0 && sdecProto d n < 4 && sdecDecodes d n then
      let c := rxCfg d n
      sdecTakes n ((List.range 256).foldl (fun s i =>
        let at' := sampleInstant d (foxIndex d i)
        sdecAt c at' at'.ts (fun first r l => lineSampled d n first i r l) s) (d.sdec.get n, [])) d
    else d) d

/-- The recovered bits of a decoder: each is the line at its centre, interpolated, against LEVEL (R159). -/
def sdecBitAt (d : Dev) (n : Fin 4) (at' : Instant) (b : Bool) : Dev :=
  let (s, o) := sdecBit (rxCfg d n) (b != lineInv d n 0) (d.sdec.get n)
  sdecTakes n (s, o.map (fun x => (at', x))) d

/-- The decoders with clock recovery on the vector of an input. -/
def sdecVector (inp : Nat) (k0 : Int) (cdr : List CdrBit) (d : Dev) : Dev :=
  cdr.foldl (fun d o =>
    if sdecClass d o.dec = 0 && d.cfg (F.SDEC_d_CFG_LINE0 o.dec) = inp && 4 ≤ sdecProto d o.dec && sdecDecodes d o.dec
        && d.flag (F.SDEC_d_STATUS_CDR_LOCK o.dec) && o.pos < 65536 then
      let i : Nat := o.pos / 256
      let f : Int := (o.pos % 256 : Nat)
      let x := foxAt d inp i * (256 - f) + foxAt d inp (i + 1) * f
      sdecBitAt d o.dec (sampleInstant d (k0 + (i : Int) + (if f = 0 then 0 else 1))) (decide (lineLevel d o.dec 0 * 256 ≤ x))
    else d) d

/-- The decoders on the SDI samples of a tick: the TS of SDI sample s is s / 16 tick later than the tick's `ts` (R155). -/
def sdecTick (ts : Nat) (cdr : List CdrBit) (d : Dev) : Dev :=
  let d := pipes.foldl (fun d n =>
    if sdecClass d n = 1 && sdecProto d n < 4 && sdecDecodes d n then
      let c := rxCfg d n
      sdecTakes n ((List.range 16).foldl (fun s i =>
        let at' := tsInstant d (ts + i * 2 ^ 28)
        sdecAt c at' at'.ts (fun first r l => lineSdi d n at'.ts first i r l) s) (d.sdec.get n, [])) d
    else d) d
  cdr.foldl (fun d o =>
    if sdecClass d o.dec = 1 && 4 ≤ sdecProto d o.dec && sdecDecodes d o.dec && d.flag (F.SDEC_d_STATUS_CDR_LOCK o.dec) && o.pos < 16 then
      sdecBitAt d o.dec (tsInstant d (ts + o.pos * 2 ^ 28))
        ((d.sdi.get (Fin.ofNat 8 (d.cfg (F.SDEC_d_CFG_LINE0 o.dec)))).getLsbD o.pos)
    else d) d

/-- CDR_LOCK (R159). -/
def cdrLock (n : Fin 4) (d : Dev) : Dev :=
  if 4 ≤ sdecProto d n && sdecDecodes d n then d.putB (F.SDEC_d_STATUS_CDR_LOCK n) true else d

/-- CDR_LOST (R159): CDR_LOCK and SYNC clear. -/
def cdrLost (n : Fin 4) (d : Dev) : Dev :=
  if d.flag (F.SDEC_d_STATUS_CDR_LOCK n) then
    setSync n false ((sdecCode n 0x0804 (d.putB (F.SDEC_d_STATUS_CDR_LOCK n) false)).setSdec n {})
  else d

end Sys2Proof.Machine
end

