-- ==== Sys2Proof/Machine/Trig.lean ====
section
/-! DEFINITION. Triggers (R128, R132, R140 to R151) and the vector stream's arrival (R18): classification, acceptance, TRIGOUT,
arming. -/
namespace Sys2Proof.Machine

def evModeDone : Nat := 0x002
def evModeRefused : Nat := 0x003
def evWake : Nat := 0x004

/-! ### TRIGOUT (R147, R149, R150) -/

def toEn (w : Word) : Bool := w.getLsbD 31
def toMode (w : Word) : Nat := bitsOf w.toNat 29 28
def toWidth (w : Word) : Nat := bitsOf w.toNat 15 0

/-- D in 2^−32 tick: the committed delay, or FOX_TRIGOUT_MIN where that is greater (R149). -/
def trigoutDelay (d : Dev) : Nat := max (d.cfg F.FOX_TRIGOUT_DELAY_DELAY) (d.get F.FOX_TRIGOUT_MIN_MIN) * 2 ^ 24

/-- Plan the edge of an accepted trigger: `last` is the TS of its last post-trigger sample, where it has one. R150 makes GATE act as
PULSE in STREAM and FINE; so it does in SENTRY and COUNT, which have no post-trigger sample either (DESIGN CHOICE, log 145). -/
def planEdge (ref : Nat) (last : Option Nat) (d : Dev) : Dev :=
  let w := d.fox.trigout.cfg
  if !toEn w || toMode w = 2 then d
  else
    let e := ref / 2 ^ 24 * 2 ^ 24 + trigoutDelay d
    let fin := match toMode w, last with
      | 1, some t => max (e + 1) (t + trigoutDelay d)
      | _, _ => e + toWidth w * 2 ^ 30
    d.setFox { d.fox with trigout := { d.fox.trigout with edges := d.fox.trigout.edges ++ [(e, fin)] } }

/-- An active period extends over a trigger whose edge would fall less than 1.6 ns after its end (R150). -/
def mergeEdge (d : Dev) (fin : Nat) (rest : List (Nat × Nat)) : Dev :=
  let t := d.fox.trigout
  (d.setFox { d.fox with trigout := { t with edges := rest, active := true, endAt := max t.endAt fin } }).count R.FOX_MERGED_CNT

/-- TRIGOUT_EDGE (R147). -/
def trigoutEdge (d : Dev) : Dev :=
  let t := d.fox.trigout
  match t.edges with
  | [] => d
  | (e, fin) :: rest =>
    if t.endAt ≠ 0 && e < t.endAt + 2 ^ 31 then mergeEdge d fin rest
    else if t.active then d
    else d.setFox { d.fox with trigout := { t with edges := rest, active := true, endAt := fin } }

/-- A change of EN, POL or MODE takes effect outside an active period (R151). -/
def trigoutRefresh (d : Dev) : Dev :=
  if d.fox.trigout.active then d else d.setFox { d.fox with trigout := { d.fox.trigout with cfg := d.ef R.FOX_TRIGOUT } }

/-- TRIGOUT_ACTIVE_END (R150). -/
def trigoutActiveEnd (d : Dev) : Dev :=
  let t := d.fox.trigout
  if !t.active then d
  else match t.edges with
    | (e, fin) :: rest =>
      if e < t.endAt + 2 ^ 31 then mergeEdge d fin rest
      else trigoutRefresh (d.setFox { d.fox with trigout := { t with active := false } })
    | [] => trigoutRefresh (d.setFox { d.fox with trigout := { t with active := false } })

/-- TRIGOUT's logic level before polarity: active in a period, or under READY while armed and outside holdoff and busy. -/
def trigoutActive (d : Dev) : Bool :=
  let w := d.fox.trigout.cfg
  toEn w && (if toMode w = 2 then d.armed && !d.flag F.FOX_STATUS_HOLDOFF && !d.flag F.FOX_STATUS_BUSY
             else d.fox.trigout.active)

/-! ### Arming state -/

def setArmed (on : Bool) (d : Dev) : Dev :=
  ((d.putB F.FOX_STATUS_ARMED on).putB F.GLB_MODE_STATUS_ARMED on).setUnit .fox (if on then stOn else stOff)

/-- Qualifier, sequence, holdoff and pending software state clear (R141). Scheduled triggers go on waiting for their vectors. -/
def foxClear (d : Dev) : Dev :=
  let d := d.setFox { d.fox with a := {}, b := {}, cands := [], owlEvs := [], seen := [], seqAt := none, seqCount := 0
                                 holdUntil := none, holdCount := 0, swNow := false, saidTrig := false, saidEarly := false, saidMissed := false, lastBad := none }
  (((d.putB F.FOX_STATUS_SEQ_OPEN false).putB F.FOX_STATUS_HOLDOFF false).putB F.FOX_STATUS_FORCE_PENDING false).putB
    F.FOX_STATUS_PRE_FULL false

/-- Disarm FOX: CAP's acquisition or stream ends, live pipes close, the arm's last unit decides a seal (R141, R191, R217, R481). -/
def disarm (d : Dev) : Dev :=
  if !d.armed then d
  else
    let d := capDisarm (redDisarm (foxClear (setArmed false d)))
    if d.cap.unit.isNone && d.cap.ended.isEmpty then armEnds d else d

/-! ### Sources (R141, R145, R148) -/

def srcEnabled (d : Dev) (s : Nat) : Bool := bitsOf (d.cfg F.FOX_CTRL_SRC_EN) s s == 1
def mainUnits (d : Dev) : List UnitCfg := if d.cfgB F.FOX_SEQ_EN then [unitCfg d 0, unitCfg d 1] else [unitCfg d 0]
def mainUsable (d : Dev) : Bool :=
  (mainUnits d).all (fun c => c.usable d.mode) && (!d.cfgB F.FOX_SEQ_EN || isCapture d.mode)
def serialUsable (d : Dev) : Bool :=
  pipes.any fun n => bitsOf (d.cfg F.FOX_SER_MATCH) n n == 1 && d.cfgB (F.SDEC_d_CFG_EN n)
    && (isCapture d.mode || sdecClass d n == 1)

def anySource (d : Dev) : Bool :=
  (srcEnabled d 0 && mainUsable d) || srcEnabled d 1 || (srcEnabled d 2 && serialUsable d) || srcEnabled d 3 || srcEnabled d 4

/-- The MAIN source is an input that is not sampled; a PATTERN unit's SRC is ignored (R130, R141). -/
def mainUnsampled (d : Dev) : Bool :=
  srcEnabled d 0 && isCapture d.mode
    && (mainUnits d).any (fun c => c.ty ≠ 0 && c.ty ≠ 8 && !c.owl && !(sampledInputs d.arr).contains c.src)

/-- A qualifier requirement or a pattern state names an input that the arrangement does not sample (R130); SENTRY samples all. -/
def namesUnsampled (d : Dev) : Bool :=
  (List.range 4).any fun n =>
    !(if d.mode = mSentry then true else (sampledInputs d.arr).contains n) &&
      (bitsOf (d.cfg F.FOX_QUAL_REQ) (2 * n + 1) (2 * n) ≠ 0 || bitsOf (d.cfg F.FOX_PATTERN_STATE) (3 * n + 2) (3 * n) ≠ 0)

/-- Entering a mode with a type or a sequence committed that it does not accept sets TYPE_NOT_IN_MODE (R145); CALIBRATE, which
Table 5.3 does not name, takes no trigger at all. -/
def foxEnterMode (d : Dev) : Dev :=
  let bad := [unitCfg d 0, unitCfg d 1].any (fun c => c.ty ≠ 0 && !c.usable d.mode) || (d.cfgB F.FOX_SEQ_EN && !isCapture d.mode)
  if bad && d.mode ≠ mCalibrate then foxCode 0x0701 d else d

/-- ARM (R141, R183, R209): refused, or FOX and what follows its arm start afresh. -/
def arm (d : Dev) : Dev :=
  if d.phase ≠ 0 || d.mode = mCalibrate || !d.flag F.PWR_STATUS_READY then foxCode 0x0703 (disarm d)
  else if !anySource d then foxCode 0x0704 (disarm d)
  else if mainUnsampled d then foxCode 0x0702 (disarm d)
  else
    let d := foxClear (disarm d)
    let d := if namesUnsampled d then foxCode 0x0702 d else d
    let d := setArmed true d
    if isCapture d.mode then
      let d := capArm (redArm (sealArm d))
      if d.mode = mStack && d.unitState .stk = stOff then showReady (d.setUnit .stk stOn) else showReady d
    else d

/-- LYNX inputs whose source is FOX's accepted (0) or missed (1) triggers receive one's TS over the crossing (R281). -/
def tellLynx (kind ts : Nat) (d : Dev) : Dev :=
  let runs (n : Fin 8) : Bool := d.unitState (.lynx n) ≠ stOff || (n.val % 2 = 1 && d.unitState (.lynx (n - 1)) ≠ stOff)
  let inputs : List (Fin 8) := [0, 1, 2, 3, 4, 5, 6, 7]
  (inputs.filter (fun (n : Fin 8) => runs n && d.cfg (F.LYNX_n_CFG_SRC n) = 0x18 + kind)).foldl (fun d (n : Fin 8) =>
    let x := d.lynx.get n
    let (a, b) := x.inbox.span (fun e => e.1 ≤ ts)
    { d with lynx := d.lynx.set n.val { x with inbox := a ++ (ts, x.steps) :: b } }) d

/-- A candidate is counted as missed (R142): LYNX receives it under MISS_STAMP, and the first after an arm is said. -/
def missed (source ts : Nat) (d : Dev) : Dev :=
  let d := d.count R.FOX_MISSED_CNT
  let d := if d.cfgB F.FOX_CTRL_MISS_STAMP then tellLynx 1 ts d else d
  if d.fox.saidMissed then d
  else (d.setFox { d.fox with saidMissed := true }).post .c evTrigMissed source 0

/-! ### Acceptance (R142) -/

/-- The wake of SENTRY (R51); while a request is pending nothing wakes, and the request goes on. -/
def wake (c : Cand) (d : Dev) : Dev :=
  let d := foxClear (setArmed false (d.post .q evWake 0 c.source (some (BitVec.ofNat 96 c.at'.ts))))
  if d.phase ≠ 0 then d
  else
    let arr := d.get F.GLB_MODE_ARR
    let arr := if arr = 3 then d.arr else arr
    let d := d.put F.GLB_MODE_MODE mSingle
    let d := ((d.put F.GLB_MODE_STATUS_PHASE 2).put F.GLB_MODE_STATUS_TGT_MODE mSingle).put F.GLB_MODE_STATUS_TGT_ARR arr
    addressSet arr { d with mod := { leaving := [], wake := true, wakeTS := BitVec.ofNat 96 c.at'.ts } }

/-- The index and fraction of a position from a block's sample 0, in native sample periods (Table 7.8); in FINE sample 0 is an
output of RED, which stands its delay before its newest input (R195, R208). -/
def blockPos (d : Dev) (u : CapUnit) (t : Instant) : Int × Nat :=
  let x : Int := (t.pos - u.startK) * 2 ^ 16 + t.frac + (if u.mode = mFine then pipeDelay d (pipeCfg d 0) else 0)
  (x / 2 ^ 16, (x % 2 ^ 16).toNat)

def blockHolds (d : Dev) (u : CapUnit) (t : Instant) : Bool :=
  let (i, _) := blockPos d u t
  u.kind == CapKind.block && !u.past && decide (0 ≤ i) &&
    decide (i < (if u.closed then u.samples else u.need) * (if u.decim = 0 then 2 ^ 32 else u.decim))

/-- Enter an accepted trigger in the list of the block that holds it, or count it as dropped (R193). -/
def listTrigger (c : Cand) (d : Dev) : Dev × Option Int :=
  let seq := d.cap.trigSeq % 2 ^ 32
  let d := { d with cap := { d.cap with trigSeq := d.cap.trigSeq + 1 } }
  let add (u : CapUnit) : CapUnit × Bool :=
    let (i, f) := blockPos d u c.at'
    if u.tlist.length < u.tlistMax then ({ u with tlist := u.tlist ++ [⟨i.toNat, f, c.source, seq⟩] }, true)
    else ({ u with dropped := u.dropped + 1 }, false)
  let inOpen := d.cap.unit.filter (fun u => blockHolds d u c.at')
  match inOpen with
  | some u =>
    let (u, ok) := add u
    let d := { d with cap := { d.cap with unit := some u } }
    (if ok then d else d.count R.CAP_TLIST_DROP, some (blockPos d u c.at').1)
  | none =>
    match d.cap.moving.find? (fun u => blockHolds d u c.at') with
    | some u =>
      let (u', ok) := add u
      let d := { d with cap := { d.cap with moving := d.cap.moving.map (fun x => if x = u then u' else x) } }
      (if ok then d else d.count R.CAP_TLIST_DROP, some (blockPos d u c.at').1)
    | none => ({ d with cap := { d.cap with pendDrop := d.cap.pendDrop + 1 } }.count R.CAP_TLIST_DROP, none)

/-- EV_TRIG: the first accepted trigger after an arm, or every one (R142). -/
def sayTrig (c : Cand) (index : Int) (d : Dev) : Dev :=
  if d.fox.saidTrig && !d.cfgB F.FOX_CTRL_EV_EVERY then d
  else (d.setFox { d.fox with saidTrig := true }).post .c evTrig c.source (encodeSigned 64 index) (some (BitVec.ofNat 96 c.at'.ts))

/-- Start holdoff at an accepted trigger (R132). -/
def startHoldoff (c : Cand) (d : Dev) : Dev :=
  let v := d.cf64 R.FOX_HOLDOFF_LO % 2 ^ 49
  if v = 0 then d
  else
    let d := if d.cfg F.FOX_HOLDOFF_HI_MODE = 1 then d.setFox { d.fox with holdCount := v, holdUntil := none }
      else d.setFox { d.fox with holdUntil := some (c.at'.ts + v * 2 ^ 32), holdCount := 0 }
    d.putB F.FOX_STATUS_HOLDOFF true

/-- The reference instant of R147. -/
def refInstant (d : Dev) (c : Cand) : Nat := if c.sampled then tsNat (d.sampleTS c.at'.k) else c.at'.ts

/-- Accept a candidate (R142): hand it to CAP, drive TRIGOUT, start holdoff, say so. -/
def accept (c : Cand) (d : Dev) : Dev :=
  let d := tellLynx 0 c.at'.ts d
  let ref := refInstant d c
  let gridPos := (d.gridAt c.at'.ts).1
  if d.mode = mSentry then
    wake c (sayTrig c gridPos (planEdge ref none d))
  else if d.mode = mCount then
    sayTrig c gridPos (startHoldoff c (planEdge ref none d))
  else if d.mode = mStream || d.mode = mFine then
    let (d, pos) := if d.cfgB F.CAP_CTRL_RING_EN then listTrigger c d else (d, none)
    sayTrig c (pos.getD gridPos) (startHoldoff c (planEdge ref none d))
  else
    let d := openUnit d ⟨c.source, c.at'.ts, c.at'.pos, c.at'.frac, c.at'.k⟩
    match d.cap.unit with
    | none => d
    | some u =>
      let lastK := u.startK + u.need - 1
      let d := startHoldoff c (planEdge ref (some (tsNat (d.sampleTS lastK))) d)
      let d := d.setFox { d.fox with busy := true, busyEnd := some (lastK + samplesIn (d.ef R.STAG_SL_DIV) d.arr 3) }
      let d := sayTrig c (c.at'.pos - u.startK) (d.putB F.FOX_STATUS_BUSY true)
      if d.mode = mSingle then
        -- the accepted trigger disarms FOX; the record goes on to its post-trigger count
        let d := redDisarm (setArmed false d)
        let d := { d with cap := { d.cap with armed := false } }
        (d.setFox { d.fox with cands := [], owlEvs := [], swNow := false }).putB F.FOX_STATUS_FORCE_PENDING false
      else d

/-- In the busy interval of R144, or of R196 while CAP drops vectors. -/
def inBusy (d : Dev) (k : Int) : Bool :=
  (d.mode = mSingle || d.mode = mFrame || d.mode = mStack) &&
    (d.cap.full || (match d.fox.busyEnd with | some e => decide (k < e) | none => false))

/-- Row 3 of Table 5.2. -/
def noRoom (d : Dev) : Bool :=
  isCapture d.mode &&
    ((d.cap.exhausted && d.mode ≠ mStream && d.mode ≠ mFine) || (d.mode = mStack && !stkReady d)
      || (d.mode = mFrame && !d.cap.acq.active)
      || ((d.mode = mStream || d.mode = mFine) && d.cfgB F.CAP_CTRL_RING_EN && !d.cap.planOk))

/-- Row 4 of Table 5.2. -/
def tooEarly (d : Dev) (c : Cand) : Bool :=
  (d.mode = mSingle || d.mode = mFrame || d.mode = mStack) && c.source ≠ srcSw && !d.cfgB F.FOX_CTRL_ACCEPT_SHORT
    && preFill d c.at'.k < (capEntry d).pre

/-- Classify a candidate by the first row of Table 5.2 that applies (R142, R146). -/
def takeCand (d : Dev) (c : Cand) : Dev :=
  if !d.armed then d
  else if d.stag.lost then
    if c.source = srcExt || c.source = srcRing || c.source = srcSw then missed c.source c.at'.ts d else d
  else if d.mode = mSentry then accept c d
  else
    let held := c.source ≤ 2
    let inTime := match d.fox.holdUntil with | some t => decide (c.at'.ts < t) | none => false
    if held && d.fox.holdCount ≠ 0 then
      let n := d.fox.holdCount - 1
      ((d.setFox { d.fox with holdCount := n }).count R.FOX_HOLDOFF_CNT).putB F.FOX_STATUS_HOLDOFF (n ≠ 0)
    else if held && inTime then d.count R.FOX_HOLDOFF_CNT
    else if inBusy d c.at'.k then
      if c.source = srcSw then
        if d.flag F.FOX_STATUS_FORCE_PENDING then missed srcSw c.at'.ts d else d.putB F.FOX_STATUS_FORCE_PENDING true
      else missed c.source c.at'.ts d
    else if noRoom d then missed c.source c.at'.ts d
    else if tooEarly d c then
      let d := d.count R.FOX_EARLY_CNT
      if d.fox.saidEarly then d
      else (d.setFox { d.fox with saidEarly := true }).post .c evTrigEarly c.source 0
    else accept c d

/-! ### The decision stage -/

/-- In COUNT, and on BYCLK after a loss of lock, no vector comes, and candidates are taken as they come. -/
def takesAtOnce (d : Dev) : Bool := d.mode == mCount || d.stag.lost

/-- The qualifier of a candidate that had no sampled crossing, at its triggering sample (R129); SW has none. Where no vector comes,
OWL states alone are tested: the inputs have no sample there (DESIGN CHOICE, log 145). -/
def candQualified (d : Dev) (c : Cand) : Bool :=
  c.qualOk || c.source = srcSw || (if takesAtOnce d then qualOwl d else qualAt d (vecPlace d c.at'.k))

/-- A qualified candidate of an enabled source: the first of its source's vector or C cycle is taken, later ones are counted (R127,
R164). -/
def decideOne (d : Dev) (c : Cand) : Dev :=
  let g := candGroup d c
  if !d.armed then d
  else if d.fox.seen.contains g then d.count R.FOX_SAMEVEC_CNT
  else takeCand (d.setFox { d.fox with seen := g :: d.fox.seen.filter (fun x => !(x.1 == g.1 && x.2.1 == g.2.1)) }) c

/-- Decide the queued candidates that are ready, in order of their instants (R128). -/
def decideUpTo (ready : Cand → Bool) (d : Dev) : Dev :=
  let now := d.fox.cands.filter ready
  let d := d.setFox { d.fox with cands := d.fox.cands.filter (fun c => !ready c) }
  (sortCands (now.filter (fun c => srcEnabled d c.source && candQualified d c))).foldl decideOne d

/-- Scheduled triggers whose time has come become candidates; one whose vector was never converted comes to nothing. -/
def schedDue (due keep : Instant → Bool) (d : Dev) : Dev :=
  let now := (d.fox.sched.map (tsInstant d)).filter due
  let d := d.setFox { d.fox with sched := d.fox.sched.filter (fun t => !due (tsInstant d t)) }
  (now.filter keep).foldl (fun d t => queueCand d ⟨srcRing, t, false, false, 4⟩) d

/-- Where no vector comes: a schedule is taken at the first tick at or after its TS (DESIGN CHOICE, log 145). -/
def decideNow (d : Dev) : Dev :=
  if takesAtOnce d then decideUpTo (fun _ => true) (schedDue (fun t => decide (t.ts ≤ d.stag.now.toNat)) (fun _ => true) d) else d

/-- FOX's work on a span of vectors, once its last input has arrived. -/
def foxSpan (d : Dev) : Dev :=
  let k0 := d.fox.vecK
  let d := if d.fox.swNow then
      queueCand (d.setFox { d.fox with swNow := false }) ⟨srcSw, sampleInstant d k0, true, false, 4⟩
    else d
  let d := if d.armed && srcEnabled d 0 && mainUsable d then mainScan d else d
  let upTo := k0 + 256 * foxStride d
  let d := schedDue (fun t => decide (t.k < upTo)) (fun t => decide (k0 ≤ t.k)) d
  let d := decideUpTo (fun c => decide (c.at'.k < upTo)) d
  if isCapture d.mode && d.armed then
    d.putB F.FOX_STATUS_PRE_FULL ((capEntry d).pre ≤ preFill d upTo)
  else d

/-! ### VECTOR_DELIVERED (R18) -/

/-- An overranged sample is delivered as +511 or −512 (R69). -/
def clipSample (x : Sample) : Sample := if x.ovr then { x with code := if x.code.msb then -512#10 else 511#10 } else x

/-- Overranged samples are counted on the bank that converted them (R70). -/
def overrange (inp : Nat) (k0 : Int) (xs : List Sample) (d : Dev) : Dev :=
  let arr := if d.mode = mSentry then 0 else d.arr
  (banksOf arr inp).foldl (fun d b =>
    let n := (xs.zipIdx.filter (fun x => x.1.ovr && sampleBank arr inp x.2 == b)).length
    let d := d.putB (F.CONV_b_STATUS_OVR_NOW b) (n ≠ 0)
    if n = 0 then d
    else
      let d := d.count (R.CONV_b_OVR_CNT b) n
      if d.flag (F.CONV_b_STATUS_OVR b) then d
      else (d.putB (F.CONV_b_STATUS_OVR b) true).post (Island.s (Fin.ofNat 4 b)) evOverrange b 0
        (some (BitVec.ofInt 96 (d.sampleTS k0)))) d

/-- The vector can be: its input is sampled, it is the next one, and vectors are being converted. -/
def vectorDue (inp : Fin 4) (k0 : Int) (n : Nat) (d : Dev) : Bool :=
  (isCapture d.mode || d.mode = mSentry) && d.phase ≠ 2 && d.phase ≠ 3 && (foxSampled d).contains inp.val && n = 256
    && d.flag F.STAG_STATUS_SL_LOCK && !d.flag F.STAG_STATUS_ON_BYCLK && decide (k0 % (256 * foxStride d) = 0)
    && (match d.conv.next.get inp with | some k => decide (k0 = k) | none => true)
    && ((foxSampled d).head? == some inp.val || decide (k0 = d.fox.vecK))

/-- Some inputs of the span in progress have delivered their vectors and some have not (R522). -/
def midSpan (d : Dev) : Bool :=
  match foxSampled d with
  | [] => false
  | i :: is => is.any fun j => d.conv.next.toList.getD j none != d.conv.next.toList.getD i none

/-- Trims, proposals and swaps that apply at a vector (Table 3.3, R83): in SENTRY, at the first vector under a new lock or mode,
and while FOX is disarmed with nothing open. Table 3.3 says the last of SINGLE; that FRAME, STACK, STREAM and FINE do so too while
FOX is disarmed, when no segment or block is there to close, is a DESIGN CHOICE (log 141). -/
def vectorTrims (k0 : Int) (d : Dev) : Dev :=
  let d' :=
    if trimsWaiting d && d.phase = 0 && (d.mode = mSentry || d.conv.hold || (!d.armed && d.cap.unit.isNone)) then
      let (d, banks) := applyTrims d (d.sampleTS k0)
      restartLive banks 0 none d
    else d
  if d.phase = 0 then { d' with conv := { d'.conv with hold := false } } else d'

/-- Keep an input's vector with four samples before it and after it. -/
def keepVector (inp : Fin 4) (codes ahead : List Int) (d : Dev) : Dev :=
  let old := d.fox.vec.get inp
  let before := if old.isEmpty then List.replicate 4 (codes.headD 0) else (old.drop 256).take 4
  let after := (ahead ++ List.replicate 4 (codes.getLastD 0)).take 4
  d.setFox { d.fox with vec := d.fox.vec.set inp.val (before ++ codes ++ after) }

def vectorDelivered (inp : Fin 4) (k0 : Int) (samples : List Sample) (ahead : List (BitVec 10)) (cdr : List CdrBit) (d : Dev) :
    Dev :=
  if !vectorDue inp k0 samples.length d then d
  else
    let xs := samples.map clipSample
    let codes := xs.map (·.code.toInt)
    let isFirst := (foxSampled d).head? == some inp.val
    let isLast := (foxSampled d).getLast? == some inp.val
    let d := if isFirst then capBoundary k0 (vectorTrims k0 (d.setFox { d.fox with vecK := k0 })) else d
    let d := estVector inp xs (overrange inp k0 xs d)
    let d := keepVector inp codes (ahead.map (·.toInt)) d
    let d := { d with conv := { d.conv with next := d.conv.next.set inp.val (some (k0 + 256 * foxStride d)) } }
    let d := redVector inp k0 (flagged d inp xs) d
    let d := capVector inp k0 xs d
    let d := sdecVector inp k0 cdr d
    if isLast then estSpan (foxSpan (sdecSpan d)) else d

/-! ### FOX's rows -/

/-- FOX_ARM_FORCE (R140): the request reaches FOX with the next vector; one more while one is pending is missed. Where no vector comes, in COUNT and on BYCLK after a loss of lock, the candidate's TS is the latest
tick's: DESIGN CHOICE (log 145). -/
def force (d : Dev) : Dev :=
  if !d.armed then foxCode 0x0705 d
  else if d.fox.swNow || d.flag F.FOX_STATUS_FORCE_PENDING then missed srcSw d.stag.now.toNat d
  else if takesAtOnce d then decideNow (queueCand d (plainCand d srcSw d.stag.now.toNat))
  else d.setFox { d.fox with swNow := true }

/-- SW_PENDING_TAKEN (R140): at the first vector after the busy interval. -/
def swPendingTaken (d : Dev) : Dev :=
  if d.flag F.FOX_STATUS_FORCE_PENDING && d.armed && !inBusy d (d.fox.vecK + 256 * foxStride d) then
    (d.setFox { d.fox with swNow := true }).putB F.FOX_STATUS_FORCE_PENDING false
  else d

/-- HOLDOFF_END (R132): HOLDOFF clears. Candidates still on their way with earlier instants stay suppressed. -/
def holdoffEnd (d : Dev) : Dev :=
  match d.fox.holdUntil with
  | some t => if t ≤ d.stag.now.toNat then d.putB F.FOX_STATUS_HOLDOFF false else d
  | none => d

/-- BUSY_END (R144). -/
def busyEnd (d : Dev) : Dev :=
  match d.fox.busyEnd with
  | some e =>
    if e ≤ d.fox.vecK + 256 * foxStride d && d.cap.unit.isNone && !d.cap.full then
      (d.setFox { d.fox with busy := false, busyEnd := none }).putB F.FOX_STATUS_BUSY false
    else d
  | none => d

/-- SEQ_WINDOW_EXPIRE (R131): the window has passed before the last sample that FOX has seen, so no B event can come in it. -/
def seqWindowExpire (d : Dev) : Dev :=
  seqExpire d (min d.stag.now.toNat (tsNat (d.sampleTS (foxIndex d 255))))

/-! ### FOX_TRIGOUT_MIN (R148, R168): figures × 12.5 ps, as a constant and a multiple of 1 / N -/

/-- A path: so many units of 12.5 ps, plus so many 1/N parts of one. -/
structure Path where
  fixed : Nat
  perN : Nat
deriving DecidableEq, Repr

def Path.add (a b : Path) : Path := ⟨a.fixed + b.fixed, a.perN + b.perN⟩

/-- `n` C periods: 16 / N tick, 512 / N in SENTRY, 1.25 ns on BYCLK (Table 1.4). -/
def cPeriods (d : Dev) (n : Nat) : Path :=
  if d.mode = mCount || d.flag F.STAG_STATUS_ON_BYCLK then ⟨100 * n, 0⟩
  else if d.mode = mSentry then ⟨0, 512 * 256 * n⟩ else ⟨0, 16 * 256 * n⟩

/-- The path of a candidate from the sampled input at position j of the vector order, with x extra cycles. -/
def inputPath (d : Dev) (j x : Nat) : Path :=
  let arr := if d.mode = mSentry then 0 else d.arr
  let ts := if d.mode = mSentry then 255 * 8 * 256 else 255 * 256 / gridMul arr
  (cPeriods d (8 + j + x)).add ⟨(if arr = 0 then 32 else 44) + 768 + 80, ts + 8 * 8 * 256⟩

def owlPath (d : Dev) : Path := (cPeriods d 2).add ⟨80 + 768 + 80, 0⟩
def extPath (d : Dev) : Path := (cPeriods d 4).add ⟨48 + 256 + 256 + 768 + 80, 0⟩

/-- A path rounded up to a multiple of 0.4 ns. -/
def Path.units (p : Path) (n24 : Nat) : Nat := 32 * divUp (p.fixed * n24 + p.perN * 2 ^ 24) (32 * n24)

def vectorPos (d : Dev) (inp : Nat) : Nat := ((foxSampled d).idxOf? inp).getD 0

/-- The extra cycles of a unit (Table 5.4), the sequence's included. -/
def extraCycles (d : Dev) (c : UnitCfg) : Nat :=
  (if d.cfgB F.FOX_SEQ_EN then 1 else 0) + (if c.ty = 1 || (c.ty = 2 && c.rel = 0) then 0 else 1)

def mainPath (d : Dev) (c : UnitCfg) : Path :=
  if c.ty = 8 then
    let named := (foxSampled d).filter (fun n => bitsOf (d.cfg F.FOX_PATTERN_STATE) (3 * n + 2) (3 * n) ≠ 0)
    inputPath d (vectorPos d (named.getLastD 0)) (extraCycles d c)
  else if c.owl then owlPath d
  else inputPath d (vectorPos d c.src) (extraCycles d c)

def serialPath (d : Dev) (n : Fin 4) : Path :=
  let x := match sdecProto d n with | 4 => 3 | 5 => 4 | _ => 2
  if sdecClass d n = 1 then
    (cPeriods d ((if d.mode = mCount then 4 else 3) + 1 + x)).add ⟨80 + 240 + 768 + 80, 0⟩
  else
    let lines := (protoRoles (sdecProto d n)).map fun i => (sdecLines d n).getD i 0xF
    inputPath d ((lines.map (fun l => if l ≤ 3 then vectorPos d l else 0)).foldl max 0) x

/-- TRIGOUT_MIN_RECOMPUTE (R148, R149): the largest path over the enabled sources and committed types. -/
def trigoutMin (d : Dev) : Nat :=
  let n24 := divN (d.ef R.STAG_SL_DIV)
  let main := if srcEnabled d 0 && mainUsable d then
      (if d.cfgB F.FOX_SEQ_EN then [mainPath d (unitCfg d 1)] else [mainPath d (unitCfg d 0)]) else []
  let ext := if srcEnabled d 1 then [extPath d] else []
  let ser := if srcEnabled d 2 then
      (pipes.filter (fun (n : Fin 4) => bitsOf (d.cfg F.FOX_SER_MATCH) n.val n.val == 1 && d.cfgB (F.SDEC_d_CFG_EN n))).map (serialPath d) else []
  let soft := if srcEnabled d 3 || srcEnabled d 4 then [inputPath d 0 0] else []
  ((main ++ ext ++ ser ++ soft).map (fun p => p.units n24)).foldl max 0

def trigoutMinRecompute (d : Dev) : Dev :=
  let m := min (2 ^ 20 - 1) (trigoutMin d)
  let old := d.get F.FOX_TRIGOUT_MIN_MIN
  let d := d.put F.FOX_TRIGOUT_MIN_MIN m
  if d.cfg F.FOX_TRIGOUT_DELAY_DELAY < m && old < m then foxCode 0x0707 d else d

end Sys2Proof.Machine
end

