-- ==== Sys2Proof/Machine/Lynx.lean ====
section
/-! DEFINITION. LYNX, the time-interval and frequency unit (chapter 11). -/
namespace Sys2Proof.Machine

def evLynxDone : Nat := 0x241
def evLynxLevel : Nat := 0x242
def evLynxOvf : Nat := 0x243
def evLynxCalFail : Nat := 0x244
def lynxCode (n : Fin 8) (c : Nat) (d : Dev) : Dev := d.put (F.LYNX_n_STATUS_LAST_CODE n) c
def Dev.setLynx (d : Dev) (n : Fin 8) (x : LynxIn) : Dev := { d with lynx := d.lynx.set n.val x }
def lynxInputs : List (Fin 8) := [0, 1, 2, 3, 4, 5, 6, 7]

def lynxMode (d : Dev) (n : Fin 8) : Nat := d.cfg (F.LYNX_n_CFG_MODE n)
def lynxSrc (d : Dev) (n : Fin 8) : Nat := d.cfg (F.LYNX_n_CFG_SRC n)
/-- The input that input n slaves under INTERVAL, and the master of a slaved input (R288). -/
def slaveOf (d : Dev) (n : Fin 8) : Option (Fin 8) := if n.val % 2 = 0 && lynxMode d n = 1 then some (n + 1) else none
def masterOf (d : Dev) (n : Fin 8) : Option (Fin 8) :=
  if n.val % 2 = 1 && lynxMode d (n - 1) = 1 && d.unitState (.lynx (n - 1)) ≠ stOff then some (n - 1) else none
def lynxInternal (src : Nat) : Bool := src = 0x18 || src = 0x19
def nowTick (d : Dev) : Nat := d.stag.now.toNat / 2 ^ 32

/-! ### Timebase state (R296) -/

def tbUnref (d : Dev) : Bool := d.get F.STAG_STATUS_TB_SRC = 3 || !d.flag F.STAG_STATUS_TB_LOCK

/-- An open measurement takes the timebase's state at a tick that it spans. -/
def markIn (d : Dev) (x : LynxIn) : LynxIn :=
  if x.measuring && x.start ≤ nowTick d then
    { x with unref := x.unref || tbUnref d, slew := x.slew || d.flag F.STAG_STATUS_SLEWING }
  else x

/-- A step of the timebase, already counted in STAG (R106, R108, R296): measurements keep their elapsed ticks. -/
def lynxStep (size : Int) (d : Dev) : Dev :=
  let before : Int := ((d.stag.now.toNat : Int) - size) / 2 ^ 32
  let moved (t : Nat) : Nat := if t = 0 then 0 else ((t : Int) + nowTick d - before).toNat
  let f (x : LynxIn) : LynxIn :=
    { x with stepMark := true, steps := x.steps + size, stepIn := x.stepIn || (x.measuring && decide ((x.start : Int) < before))
             start := moved x.start, lastStamp := x.lastStamp.map (· + size) }
  { d with lynx := d.lynx.map f, ext := { d.ext with start := moved d.ext.start, lastStamp := d.ext.lastStamp.map (· + size) } }

/-! ### The queue (R292, R293, R295) -/

def lynxWord1 (seq src kind : Nat) (ovf gap step slew unref edge : Bool) (frac : Nat) : Word64 :=
  BitVec.ofNat 64 (seq % 2 ^ 16 * 2 ^ 48 + src * 2 ^ 40 + kind * 2 ^ 38 + ovf.toNat * 2 ^ 37 + gap.toNat * 2 ^ 36
    + step.toNat * 2 ^ 35 + slew.toNat * 2 ^ 34 + unref.toNat * 2 ^ 33 + edge.toNat * 2 ^ 32 + frac % 2 ^ 32)

/-- An entry is lost. -/
def lynxLose (n : Fin 8) (k : Nat) (full : Bool) (d : Dev) : Dev :=
  let x := d.lynx.get n
  let d := (d.setLynx n { x with gap := true, lostNotified := x.lostNotified || full }).count (R.LYNX_n_LOST n) k
  if full && !x.lostNotified then (lynxCode n 0x0902 d).post .t evLynxOvf n.val 0 else d

/-- Queue entries together, or discard them together; GAP goes on the first. -/
def lynxPush (n : Fin 8) (es : List (Bool → Word64 × Word64)) (d : Dev) : Dev :=
  let x := d.lynx.get n
  if 4096 < x.queue.length + es.length then lynxLose n es.length true d
  else
    let ws := es.zipIdx.map fun (f, i) => f (x.gap && i == 0)
    let q := x.queue ++ ws
    let wm := d.cfg (F.LYNX_n_WM_LEVEL n)
    let d := (d.setLynx n { x with queue := q, gap := false }).put (F.LYNX_n_LEVEL_LEVEL n) q.length
    if wm ≠ 0 && x.queue.length < wm && wm ≤ q.length then d.post .t evLynxLevel n.val q.length else d

/-- Pop the oldest entry; an empty queue gives zeros (R294). -/
def lynxPop (n : Fin 8) (d : Dev) : Dev × Word64 × Word64 :=
  let x := d.lynx.get n
  match x.queue with
  | [] => (d, 0, 0)
  | (a, b) :: q => ((d.setLynx n { x with queue := q }).put (F.LYNX_n_LEVEL_LEVEL n) q.length, a, b)

/-! ### Measurements (R285 to R291) -/

def bothReady (x : LynxIn) : Bool := (x.ip.get 0).ready && (x.ip.get 1).ready
def lynxActive (d : Dev) (n : Fin 8) : Fin 2 := if d.flag (F.LYNX_n_STATUS_ACTIVE_IP n) then 1 else 0

/-- The inputs that a series on input n uses, and those of them that have interpolators to calibrate (R281). -/
def lynxUses (d : Dev) (n : Fin 8) : List (Fin 8) := n :: (slaveOf d n).toList
def lynxLands (d : Dev) (n : Fin 8) : List (Fin 8) := (lynxUses d n).filter fun m => !lynxInternal (lynxSrc d m)

/-- CALIB of the inputs of a series. -/
def showCalib (n : Fin 8) (d : Dev) : Dev :=
  (lynxLands d n).foldl (fun d (m : Fin 8) => d.putB (F.LYNX_n_STATUS_CALIB m) (!bothReady (d.lynx.get m))) d

/-- A measurement begins at tick edge `at'`; the prescalers count anew (R282), but for the epochs of STAMP. -/
def lynxBegin (n : Fin 8) (at' : Nat) (d : Dev) : Dev :=
  let clear (x : LynxIn) : LynxIn := { x with edges := if lynxMode d n = 0 then x.edges else 0 }
  let d := match slaveOf d n with | some m => d.setLynx m (clear (d.lynx.get m)) | none => d
  let x := { clear (d.lynx.get n) with measuring := true, start := at', first := none, last := none, stamps := 0, stepIn := false
                                       unref := false, slew := false }
  (d.setLynx n (markIn d x)).putB (F.LYNX_n_STATUS_WAIT_STOP n) false

/-- A measurement ends at tick edge `at'`: the other interpolators take over, those that measured calibrate; the next measurement begins
there, or when the calibrations are there (R285). -/
def lynxExchange (n : Fin 8) (at' : Nat) (d : Dev) : Dev :=
  let ready := (lynxLands d n).all fun m => ((d.lynx.get m).ip.get (1 - lynxActive d m)).ready
  let swap (d : Dev) (m : Fin 8) : Dev :=
    let a := lynxActive d m
    let x := d.lynx.get m
    (d.setLynx m { x with ip := x.ip.set a.val { x.ip.get a with ready := false } }).putB (F.LYNX_n_STATUS_ACTIVE_IP m) (a = 0)
  let d := (lynxLands d n).foldl swap (d.setLynx n { d.lynx.get n with measuring := false })
  let d := showCalib n (d.putB (F.LYNX_n_STATUS_WAIT_STOP n) false)
  if ready then lynxBegin n at' d else d

def lynxOff (n : Fin 8) (d : Dev) : Dev :=
  let d := d.setLynx n { d.lynx.get n with measuring := false }
  let d := (lynxUses d n).foldl (fun d m => d.putB (F.LYNX_n_STATUS_CALIB m) false) d
  (d.setUnit (.lynx n) stOff).putB (F.LYNX_n_STATUS_WAIT_STOP n) false

/-- A measurement of INTERVAL or FREQ is complete at tick edge `at'` (R291). -/
def lynxComplete (n : Fin 8) (at' : Nat) (d : Dev) : Dev :=
  let m := (d.rd (R.LYNX_n_MEAS n)).toNat + 1
  let d := d.wr (R.LYNX_n_MEAS n) (BitVec.ofNat 32 m)
  let rep := (d.ef (R.LYNX_n_REPEAT n)).toNat
  if rep ≠ 0 && rep ≤ m then (lynxOff n d).post .t evLynxDone n.val m
  else if d.unitState (.lynx n) = stDraining then lynxOff n d
  else lynxExchange n at' d

/-- LYNX_START (R286): both interpolators calibrate; a source of FOX's decisions needs none (R281). -/
def lynxStart (n : Fin 8) (d : Dev) : Dev :=
  if d.unitState (.lynx n) ≠ stOff then lynxCode n 0x0903 d
  else
    let d := takeLatched d (.lynx n)
    if !d.cfgB (F.LYNX_n_CFG_EN n) || (masterOf d n).isSome then d
    else
      let fresh (d : Dev) (m : Fin 8) : Dev :=
        let x := d.lynx.get m
        (d.setLynx m { queue := x.queue, gap := x.gap, lostNotified := x.lostNotified, stepMark := x.stepMark }).putB
          (F.LYNX_n_STATUS_ACTIVE_IP m) false
      let d := match slaveOf d n with | some m => takeLatched (if d.unitState (.lynx m) = stOff then d else lynxOff m d) (.lynx m) | none => d
      let d := (((lynxUses d n).foldl fresh d).setUnit (.lynx n) stOn).wr (R.LYNX_n_MEAS n) 0
      if (lynxLands d n).isEmpty then lynxBegin n (nowTick d + 1) d else showCalib n d

/-- The EXTTRIG stamper begins an epoch (R298). -/
def ExtStamper.begin (x : ExtStamper) (at' : Nat) : ExtStamper := { x with measuring := true, start := at' }

/-- The EXTTRIG stamper at tick `t`: its interpolators exchange at the end of an epoch of 2^16 ticks, like an input's (R285, R298). -/
def ExtStamper.tick (x : ExtStamper) (t : Nat) : ExtStamper :=
  if x.measuring && x.start + 2 ^ 16 ≤ t then
    let y := { x with measuring := false, active := 1 - x.active, ip := x.ip.set x.active.val { x.ip.get x.active with ready := false } }
    if (y.ip.get y.active).ready then y.begin (x.start + 2 ^ 16) else y
  else x

/-- A calibration's gain and zero stand in an interpolator. -/
def setIp (v : Vector Interp 2) (ip : Fin 2) (g z : Int) : Vector Interp 2 := v.set ip.val ⟨g, z, true⟩

/-- A calibration of the EXTTRIG stamper ends. -/
def extCalDone (ip : Fin 2) (g z : Int) (ok : Bool) (d : Dev) : Dev :=
  let x := d.ext
  if !srcEnabled d 1 || (x.ip.get ip).ready || 4 ≤ x.fails then d
  else if ok then
    let x := { x with ip := setIp x.ip ip g z, fails := 0 }
    let may := if x.start = 0 then (x.ip.get 0).ready && (x.ip.get 1).ready else (x.ip.get x.active).ready
    { d with ext := if !x.measuring && may then x.begin (nowTick d + 1) else x }
  else { d with ext := { x with fails := x.fails + 1, measuring := x.measuring && x.fails + 1 < 4 } }.post .t evLynxCalFail 8 (encodeSigned 64 g)

/-- The series that input m takes part in: its own, or its master's. -/
def lynxOwner (d : Dev) (m : Fin 8) : Fin 8 := (masterOf d m).getD m

/-- LYNX_CAL_DONE (R285) of a calibration in progress: m1 and m2 are the mean codes of the one-tick and two-tick sets; input 8 is the
EXTTRIG stamper. -/
def lynxCalDone (n : Fin 9) (ip : Fin 2) (m1 m2 : Int) (d : Dev) : Dev :=
  let g := m2 - m1
  let z := 2 * m1 - m2
  let ok := decide (7600 ≤ g) && decide (g ≤ 8400)
  if h : n.val < 8 then
    let m : Fin 8 := ⟨n.val, h⟩
    let own := lynxOwner d m
    let st := d.unitState (.lynx own)
    if !(st = stOn || st = stDraining) || lynxInternal (lynxSrc d m) || ((d.lynx.get m).ip.get ip).ready then d
    else
      let d := d.wr (R.LYNX_n_CALRES m) (BitVec.ofNat 32 (encodeSigned 16 z * 2 ^ 16 + encodeSigned 16 g))
      if ok then
        let d := showCalib own (d.setLynx m { d.lynx.get m with ip := setIp (d.lynx.get m).ip ip g z, fails := 0 })
        let x := d.lynx.get own
        let may := (lynxLands d own).all fun l =>
          if x.start = 0 then bothReady (d.lynx.get l) else ((d.lynx.get l).ip.get (lynxActive d l)).ready
        if !x.measuring && st = stOn && may then lynxBegin own (nowTick d + 1) d else d
      else
        let f := (d.lynx.get m).fails + 1
        let d := (lynxCode m 0x0901 (d.setLynx m { d.lynx.get m with fails := f })).post .t evLynxCalFail m.val (encodeSigned 64 g)
        if f = 4 then lynxCode m 0x0904 (lynxOff own d) else d
  else extCalDone ip g z ok d

/-- The stamp of an edge against tick edge E with code x (R284): nearest 2^−32 tick, ties up. -/
def stampOf (g z : Int) (e : Nat) (x : Int) (delay offset : Int) : Nat :=
  let num : Int := ((e : Int) * 2 ^ 32 - delay - offset * 2 ^ 16) * g - (x - z) * 2 ^ 32
  ((2 * num + g) / (2 * g)).toNat

def deadTime : Nat := 3355443200

/-- Queue a stamp entry. -/
def pushStamp (n : Fin 8) (ts seq : Nat) (edge : Bool) (d : Dev) : Dev :=
  let x := d.lynx.get n
  let d := d.setLynx n { x with stepMark := false }
  lynxPush n [fun gap => (BitVec.ofNat 64 (ts / 2 ^ 32),
    lynxWord1 seq (lynxSrc d n) 0 false gap x.stepMark (d.flag F.STAG_STATUS_SLEWING) (tbUnref d) edge ts)] d

/-- EDGE of a result: of its first stamp; with none, what the input selects. -/
def resultEdge (d : Dev) (n : Fin 8) : Bool :=
  match (d.lynx.get n).first with | some a => a.rising | none => lynxInternal (lynxSrc d n) || d.cfg (F.LYNX_n_CFG_EDGE n) ≠ 1

/-- Queue a duration between two stamps, the steps between them taken out (R290, R292, R296). -/
def durationEntry (d : Dev) (n : Fin 8) (ab : Option (LynxStamp × LynxStamp)) (seq : Nat) (gap : Bool) : Word64 × Word64 :=
  let x := d.lynx.get n
  let t := match ab with | some (a, b) => ((b.ts : Int) - a.ts - (b.steps - a.steps)).toNat | none => 0
  (BitVec.ofNat 64 (t / 2 ^ 32 % 2 ^ 48),
    lynxWord1 seq (lynxSrc d n) 1 (2 ^ 48 ≤ t / 2 ^ 32) gap x.stepIn x.slew x.unref (resultEdge d n) t)

/-- A stamped edge of input n: what the mode does with it. -/
def stamped (n : Fin 8) (s : LynxStamp) (d : Dev) : Dev :=
  let x := d.lynx.get n
  let d := d.setLynx n (markIn d { x with lastStamp := some (s.ts + (x.steps - s.steps)) })
  match masterOf d n with
  | some m =>
    -- a stop edge: the first whose stamp is at or after the start's
    let d := d.setLynx m (markIn d (d.lynx.get m))
    match (d.lynx.get m).first with
    | some a =>
      if (a.ts : Int) + (s.steps - a.steps) ≤ s.ts then
        lynxComplete m s.edge (lynxPush m [durationEntry d m (some (a, s)) (d.rd (R.LYNX_n_MEAS m)).toNat] d)
      else d
    | none => d
  | none =>
    let x := d.lynx.get n
    match lynxMode d n with
    | 1 =>
      if x.first.isSome then d
      else (d.setLynx n { x with first := some s, stamps := 1 }).putB (F.LYNX_n_STATUS_WAIT_STOP n) true
    | 2 =>
      d.setLynx n { x with first := some (x.first.getD s), last := some s, stamps := x.stamps + 1 }
    | _ => pushStamp n s.ts s.prior s.rising (d.setLynx n { x with stamps := x.stamps + 1 })

/-- The tick edge at which the measurement of input n ends by the count (R287, R289). -/
def lynxEnds (d : Dev) (n : Fin 8) : Option Nat :=
  let x := d.lynx.get n
  if !x.measuring then none
  else match lynxMode d n with
    | 0 => if lynxInternal (lynxSrc d n) then none else some (x.start + 2 ^ d.cfg (F.LYNX_n_EPOCH_EPOCH_LOG n))
    | 2 => some (x.start + d.cf64 (R.LYNX_n_GATE_LO n) % 2 ^ 48)
    | _ => none

/-- A gate closes (R289): a duration entry and a count entry. -/
def gateEnd (n : Fin 8) (at' : Nat) (d : Dev) : Dev :=
  let d := d.setLynx n (markIn d (d.lynx.get n))
  let x := d.lynx.get n
  let seq := (d.rd (R.LYNX_n_MEAS n)).toNat
  let p := if lynxInternal (lynxSrc d n) then 1 else d.cfg (F.LYNX_n_CFG_PRESCALE n) + 1
  let ab := match x.first, x.last with | some a, some b => if 2 ≤ x.stamps then some (a, b) else none | _, _ => none
  let k := if ab.isSome then p * (x.stamps - 1) else 0
  lynxComplete n at' (lynxPush n
    [durationEntry d n ab seq,
     fun gap => (BitVec.ofNat 64 k, lynxWord1 seq (lynxSrc d n) 2 false gap x.stepIn x.slew x.unref (resultEdge d n) 0)] d)

/-- The measurement of input n ends by the count, once tick edge `upTo` has been reached. -/
def lynxEndBy (n : Fin 8) (upTo : Nat) (d : Dev) : Dev :=
  match lynxEnds d n with
  | some t => if upTo < t then d else if lynxMode d n = 2 then gateEnd n t d else lynxExchange n t d
  | none => d

/-- LYNX_EPOCH_END (R287) and LYNX_GATE_CLOSE (R289). -/
def lynxEpochEnd (n : Fin 8) (d : Dev) : Dev := if lynxMode d n = 0 then lynxEndBy n (nowTick d) d else d
def lynxGateClose (n : Fin 8) (d : Dev) : Dev := if lynxMode d n = 2 then lynxEndBy n (nowTick d) d else d

/-- The input takes an edge between tick edges e − 1 and e: its own measurement, or its master's, is open since before it. -/
def lynxOpen (d : Dev) (n : Fin 8) (e : Nat) : Bool :=
  let own := lynxOwner d n
  let st := d.unitState (.lynx own)
  (st = stOn || st = stDraining) && (d.lynx.get own).measuring && (d.lynx.get own).start < e

/-- A trigger of FOX that input n stamps arrives: its TS stands exactly (R281). -/
def internalEdge (n : Fin 8) (d : Dev) : Dev :=
  let x := d.lynx.get n
  match x.inbox with
  | [] => d
  | (ts, steps) :: rest =>
    let d := d.setLynx n { x with inbox := rest, passed := x.passed + 1 }
    let e := (((ts : Int) + (x.steps - steps) + 2 ^ 32 - 1) / 2 ^ 32).toNat
    let d := lynxEndBy n (e - 1) d
    if lynxOpen d n e then stamped n ⟨ts, steps, e, x.passed, true⟩ d else d

/-- LYNX_EDGE (R281 to R284): an edge of the selected source, measured against tick edge E with code x. -/
def lynxEdge (n : Fin 8) (e : Nat) (x : Int) (rising : Bool) (d : Dev) : Dev :=
  if lynxInternal (lynxSrc d n) then internalEdge n d
  else
    let d := lynxEndBy n (e - 1) d
    let sel := d.cfg (F.LYNX_n_CFG_EDGE n)
    if !lynxOpen d n e || !(sel = 2 || (sel = 0) = rising) then d
    else
      let s := d.lynx.get n
      let pass := s.edges % (d.cfg (F.LYNX_n_CFG_PRESCALE n) + 1) = 0
      let d := d.setLynx n { s with edges := s.edges + 1, passed := if pass then s.passed + 1 else s.passed }
      if !pass then d
      else
        let ip := s.ip.get (lynxActive d n)
        if ip.gain = 0 then d
        else
          let ts := stampOf ip.gain ip.zero e x (Config.lynxDelay (lynxSrc d n)) (d.ef (R.LYNX_n_OFFSET n)).toInt
          if s.lastStamp.any (fun t => (ts : Int) < t + deadTime) then lynxLose n 1 false d
          else stamped n ⟨ts, s.steps, e, s.passed, rising⟩ d

/-- At a tick every open measurement takes the timebase's state, a STAMP input that drains ends (R299), and the EXTTRIG stamper follows
its enable and its epochs (R298). -/
def lynxMark (d : Dev) : Dev :=
  let d := { d with lynx := d.lynx.map (markIn d), ext := if srcEnabled d 1 then d.ext.tick (nowTick d) else {} }
  (lynxInputs.filter fun n => d.unitState (.lynx n) = stDraining && lynxMode d n = 0).foldl (fun d n => lynxOff n d) d

/-- LYNX_ABORT (R299): nothing is queued for the measurement in progress. -/
def lynxAbort (n : Fin 8) (d : Dev) : Dev :=
  if d.unitState (.lynx n) = stOff then d
  else (d.setLynx n { d.lynx.get n with measuring := false, first := none, last := none, stamps := 0 }).setUnit (.lynx n) stAborting

/-- LYNX_FLUSH (R294). -/
def lynxFlush (n : Fin 8) (d : Dev) : Dev :=
  (d.setLynx n { d.lynx.get n with queue := [] }).put (F.LYNX_n_LEVEL_LEVEL n) 0

/-- EXTTRIG_EDGE (R298): a crossing at the EXTTRIG connector is stamped and becomes FOX's candidate. -/
def exttrigEdge (e : Nat) (x : Int) (rising : Bool) (d : Dev) : Dev :=
  let slope := d.cfg F.FOX_EXT_SLOPE
  let s := d.ext.tick (e - 1)
  let ip := s.ip.get s.active
  if !srcEnabled d 1 || !(slope = 2 || (slope = 0) = rising) || !s.measuring || e ≤ s.start || ip.gain = 0 then d
  else
    let ts := stampOf ip.gain ip.zero e x (Config.lynxDelay 0x10) (d.ef R.LYNX_EXT_OFFSET).toInt
    if s.lastStamp.any (fun t => (ts : Int) < t + deadTime) then { d with ext := s }
    else decideNow (queueCand { d with ext := { s with lastStamp := some (ts : Int) } } (plainCand d srcExt ts))

end Sys2Proof.Machine
end

