-- ==== Sys2Proof/Machine/Stag.lean ====
section
/-! DEFINITION. STAG, the timebase and sample clock (chapter 4). -/
namespace Sys2Proof.Machine

def evRefLoss : Nat := 0x101
def evRefReturn : Nat := 0x102
def evSlewDone : Nat := 0x103
def evTbStep : Nat := 0x104
def evSlUnlock : Nat := 0x105
def evSlLock : Nat := 0x106
def evSlRetuned : Nat := 0x107
def stagCode (c : Nat) (d : Dev) : Dev := d.put F.STAG_STATUS_LAST_CODE c
def Dev.setStag (d : Dev) (s : Stag) : Dev := { d with stag := s }

/-- The TB_SRC code that STAG_TB_CTRL.SRC and the sources present choose (Table 4.1): 1 REFIN, 2 ring, 3 holdover. -/
def wantedSource (d : Dev) : Nat :=
  let ref := d.flag F.STAG_STATUS_REF_OK
  let ring := d.flag F.STAG_STATUS_RING_OK
  match d.cfg F.STAG_TB_CTRL_SRC with
  | 0 => if ref then 1 else if ring then 2 else 3
  | 1 => if ref then 1 else 3
  | 2 => if ring then 2 else 3
  | _ => 3

/-- REF_PRESENT (R101). -/
def refPresent (d : Dev) : Dev := d.putB F.STAG_STATUS_REF_OK true

/-- REF_LOSS (R101). -/
def refLoss (d : Dev) : Dev :=
  if !d.flag F.STAG_STATUS_REF_OK then d
  else ((d.putB F.STAG_STATUS_REF_OK false).putB F.STAG_STATUS_REF_LOSS true).post .t evRefLoss 0 0 (some d.stag.now)

/-- A slew ends, and what it was applying is not kept (R103). A SNAP step that is pending stays so; a later jump under SNAP
replaces it: DESIGN CHOICE (log 143). -/
def stopSlew (d : Dev) : Dev :=
  ((d.setStag { d.stag with slewRem := 0 }).putB F.STAG_STATUS_SLEWING false).wr64 R.STAG_PHASE_ERR_LO 0

/-- HOLDOVER_ENTRY (R103): the source in use is gone. -/
def holdoverEntry (d : Dev) : Dev :=
  let src := d.get F.STAG_STATUS_TB_SRC
  let gone := (src = 1 && (!d.flag F.STAG_STATUS_REF_OK || d.cfg F.STAG_TB_CTRL_SRC = 2 || d.cfg F.STAG_TB_CTRL_SRC = 3))
    || (src = 2 && (!d.flag F.STAG_STATUS_RING_OK || d.cfg F.STAG_TB_CTRL_SRC = 1 || d.cfg F.STAG_TB_CTRL_SRC = 3))
  if gone then (stopSlew d).put F.STAG_STATUS_TB_SRC 3 else d

/-- The ambiguity period P of a source, in ticks (Table 4.2). -/
def ambiguity (d : Dev) : Nat := match d.cfg F.STAG_TB_CTRL_REF_FREQ with | 0 => 250 | 1 => 50 | _ => 5

/-- The measured jump, reduced to −P/2 to +P/2. -/
def reduceJump (d : Dev) (src : Nat) (j : Int) : Int :=
  if src = 1 then
    let p : Int := ambiguity d * 2 ^ 32
    let r := j % p
    if p / 2 < r then r - p else r
  else j

/-- 1 ps in 2^−32 tick, rounded down. -/
def onePs : Nat := 1342177

/-- SLEW_DONE (R105): the remainder is within ±1 ps. -/
def slewDone (d : Dev) : Dev :=
  if d.flag F.STAG_STATUS_SLEWING && d.stag.slewRem.natAbs ≤ onePs * 10 ^ 7 then
    (d.putB F.STAG_STATUS_SLEWING false).post .t evSlewDone 0 0
  else d

/-- The jump to a source is measured and acted on (R104 to R106). -/
def refJump (src : Nat) (measured : Int) (d : Dev) : Dev :=
  let j := reduceJump d src measured
  let d := (stopSlew d).wr64 R.STAG_JUMP_LO (encodeSigned 64 j)
  let d := (d.put F.STAG_STATUS_TB_SRC src).putB F.STAG_STATUS_TB_LOCK true
  let d := (d.setStag { d.stag with everLocked := true, tFallback := false }).post .t evRefReturn src (encodeSigned 64 j)
  if d.cfgB F.STAG_TB_CTRL_POLICY then d.setStag { d.stag with snap := some j }
  else
    let d := (d.setStag { d.stag with slewRem := j * 10 ^ 7 }).wr64 R.STAG_PHASE_ERR_LO (encodeSigned 64 j)
    slewDone (d.putB F.STAG_STATUS_SLEWING true)

/-- REF_RETURN (R104 to R106): a new source is there. -/
def refReturn (measured : Int) (d : Dev) : Dev :=
  let src := wantedSource d
  if src = 3 || src = d.get F.STAG_STATUS_TB_SRC || !d.stag.counting then d else refJump src measured d

/-- The grand master counts its own steps (R446). -/
def countStep (d : Dev) : Dev :=
  if d.get F.IFL_STATUS_TIME_PORT = 7 then { d with ifl := { d.ifl with steps := d.ifl.steps + 1 } } else d

/-- The timebase steps by `size` × 2^−32 tick at time `at'` before the step: sample TS, open units and LYNX follow (R106). -/
def tbStep (size : Int) (d : Dev) : Dev :=
  let k := (tsInstant d d.stag.now.toNat).k
  let s := if d.cap.newRun || !capTakes d then d.cap.have else (d.cap.storedOf k).toNat
  let d := redStep k size d
  let d := { d with cap := { d.cap with steps := d.cap.steps ++ [(s, size)] } }
  let d := d.setStag { d.stag with origin := d.stag.origin + size, now := BitVec.ofInt 96 ((d.stag.now.toNat : Int) + size) }
  (lynxStep size d).wr64 R.STAG_JUMP_LO (encodeSigned 64 size)

/-- SNAP_STEP (R106). -/
def snapStep (d : Dev) : Dev :=
  match d.stag.snap with
  | none => d
  | some j =>
    let d := tbStep j (d.setStag { d.stag with snap := none })
    countStep (d.post .t evTbStep 0 (encodeSigned 64 j) (some d.stag.now))

/-- TB_LOAD (R108): the load is taken for the next tick, or refused. -/
def tbLoad (count : Word64) (d : Dev) : Dev :=
  if d.get F.STAG_STATUS_TB_SRC = 2 then stagCode 0x0403 d
  else if d.armed || capOpen d then stagCode 0x0402 d
  else d.setStag { d.stag with load := some count }

/-- STAG at a tick: the count, a load that waits for it, the slew (R105, R108). -/
def stagTick (d : Dev) : Dev :=
  let s := d.stag
  let d :=
    if s.starting then d.setStag { s with starting := false, counting := true, now := 0, origin := 0 }
    else if s.counting then d.setStag { s with now := s.now + 0x100000000#96 } else d
  let d := match s.load with
    | none => d
    | some c =>
      let new : Nat := c.toNat * 2 ^ 32 + d.stag.now.toNat % 2 ^ 32
      let diff : Int := (new : Int) - d.stag.now.toNat
      let d := tbStep diff (d.setStag { d.stag with load := none, counting := true })
      countStep (d.post .t evTbStep 1 (encodeSigned 64 (diff / 2 ^ 32)) (some d.stag.now))
  if d.flag F.STAG_STATUS_SLEWING then
    let r : Int := d.cfg F.STAG_TB_CTRL_SLEW_RATE * 2 ^ 32
    let x := d.stag.slewRem
    let y := if 0 < x then max 0 (x - r) else min 0 (x + r)
    (d.setStag { d.stag with slewRem := y }).wr64 R.STAG_PHASE_ERR_LO (encodeSigned 64 (y / 10 ^ 7))
  else d

/-! ### The sample loop -/

def slEnabled (d : Dev) : Bool := d.cfgB F.STAG_SL_CTRL_EN

/-- The islands go to BYCLK and vectors stop (R31, R110): the vector order restarts at the return. -/
def toByclk (d : Dev) : Dev :=
  let d := { d with conv := { d.conv with next := Vector.replicate 4 none, hold := true }, cap := { d.cap with tail := none } }
  ((estRestart d).putB F.STAG_STATUS_SL_LOCK false).putB F.STAG_STATUS_ON_BYCLK true

/-- The instants lie on the grid of R111 with the committed N: steps since the last lock no longer displace it, and what was captured
before lies on another grid. -/
def gridAnew (d : Dev) : Dev :=
  { d.setStag { d.stag with origin := 0 } with cap := { d.cap with moving := d.cap.moving.map fun u => { u with past := true } } }

/-- SL_DIV_APPLY (R110, R116): what waits for the sample loop takes effect. -/
def slDivApply (d : Dev) : Dev :=
  let byclk := d.flag F.STAG_STATUS_ON_BYCLK
  let free := !d.armed && !capOpen d
  let mine := d.cfgc.parts.filter (fun w => w.tgt == .stagSl)
  let now := mine.filter (fun w => free || (byclk && w.addr == R.STAG_SL_CTRL))
  if now.isEmpty then d
  else
    let oldN := divN (d.ef R.STAG_SL_DIV)
    let wasOn := slEnabled d
    let left := d.cfgc.parts.filter (fun w => w.tgt != .stagSl || !now.contains w)
    let d := takeWords { d with cfgc := { d.cfgc with parts := left } } now
    let d := if hasPart d .stagSl then d else (unitApplied d [.stagSl]).putB F.STAG_STATUS_SL_PENDING false
    let newN := divN (d.ef R.STAG_SL_DIV)
    let d := pipes.foldl (fun d n => sdecCheck n d) d
    if !slEnabled d then
      (if wasOn then toByclk (d.setStag { d.stag with searching := false }) else d)
    else if !wasOn then d.setStag { d.stag with searching := true }
    else if newN = oldN || (d.stag.lost && !d.stag.searching && !d.cfgB F.STAG_SL_CTRL_AUTO_RELOCK) then d
    else if (((newN : Int) - oldN).natAbs) * 5000 ≤ oldN && d.flag F.STAG_STATUS_SL_LOCK then
      let d := gridAnew { d with conv := { d.conv with next := Vector.replicate 4 none } }
      d.post .t evSlRetuned 0 (d.ef R.STAG_SL_DIV).toNat
    else toByclk (d.setStag { d.stag with searching := true })

/-- The last good sample of an input at a loss of lock: the last one whose grid instant lies at least 64 ns before the detection
point (R115). -/
def lastGoodIndex (d : Dev) : Int :=
  ((d.stag.now.toNat : Int) - 20 * 2 ^ 32 - d.stag.origin) * (gridMul d.arr * divN (d.ef R.STAG_SL_DIV) : Nat) / 2 ^ 56

/-- The open unit closes at a loss of lock, marked CLOCK_LOST (R115, R198); one that an overflow has just closed is marked too
(R197). -/
def clockLostClose (d : Dev) : Dev :=
  let c := d.cap
  let s : Int := c.runStored + (lastGoodIndex d - c.runGrid) / c.runDecim
  let goodIn (u : CapUnit) (m : Nat) : Option Nat :=
    if s < u.start || m = 0 then none else some (min (u.indexOf s.toNat) (m - 1))
  let past := (c.moving.getLast?).bind fun u => goodIn u u.samples
  let d := addFlags flClockLost past d
  let d := { d with cap := { d.cap with newRun := true, fillFrom := d.cap.have, tail := none
                                        needBlock := (d.cap.mode == mStream || d.cap.mode == mFine) && d.cap.armed
                                          && d.cfgB F.CAP_CTRL_RING_EN && d.cap.planOk } }
  match d.cap.unit with
  | none => d
  | some u =>
    let m := openSamples d
    if u.kind == CapKind.block && m = 0 then dropBlock d u
    else
      let d := closeUnit (fineLoss d u m) m flClockLost 0 (goodIn u m)
      let d := d.setFox { d.fox with busy := false, busyEnd := none }
      let d := d.putB F.FOX_STATUS_BUSY false
      let d := if u.mode = mStack then stkBoundary (stkRejectUnit 0x0D02 d) else d
      if u.mode = mSingle then armEnds d else d

/-- SL_UNLOCK, but for what CAL makes of it (R114, R115, R146, R156, R217). -/
def slUnlockCore (d : Dev) : Dev :=
  if !d.flag F.STAG_STATUS_SL_LOCK then d
  else
    let d := (toByclk d).count R.STAG_UNLOCK_CNT
    let d := d.post .t evSlUnlock 0 0 (some d.stag.now)
    let d := d.setStag { d.stag with lost := true, searching := false }
    let d := clockLostClose (restartLive 15 flClockLost (some (lastGoodIndex d)) d)
    pipes.foldl (fun d n => sdecRestart n d) d

/-- SL_SEARCH_START (R116): 1 µs after the detection point, with AUTO_RELOCK. -/
def slSearchStart (d : Dev) : Dev :=
  if slEnabled d && !d.flag F.STAG_STATUS_SL_LOCK && d.cfgB F.STAG_SL_CTRL_AUTO_RELOCK then
    d.setStag { d.stag with searching := true }
  else d

/-- FOX at the return from BYCLK restarts as on an arm, but for time holdoff and the armed state (R146). -/
def foxReturn (d : Dev) : Dev :=
  let f := d.fox
  let d := d.setFox { f with a := {}, b := {}, seqAt := none, seqCount := 0, holdCount := 0, swNow := false, lastBad := none
                             cands := [], owlEvs := [], seen := [], vec := Vector.replicate 4 [] }
  ((d.putB F.FOX_STATUS_SEQ_OPEN false).putB F.FOX_STATUS_HOLDOFF
    (f.holdUntil.any (d.stag.now.toNat < ·))).putB F.FOX_STATUS_FORCE_PENDING false

/-- SL_LOCK (R113, R116): fine lock has slid the instants onto the grid of R111. -/
def slLock (band : BitVec 6) (d : Dev) : Dev :=
  if !(d.stag.searching && slEnabled d) then d
  else
    let d := (((gridAnew d).putB F.STAG_STATUS_SL_LOCK true).putB F.STAG_STATUS_ON_BYCLK false).put F.STAG_STATUS_BAND band.toNat
    let d := if d.stag.lost then foxReturn d else d
    let d := d.setStag { d.stag with searching := false, lost := false }
    d.post .t evSlLock 0 band.toNat

/-- SL_BAND_FAIL (R113): the islands stay on BYCLK and the search is repeated. -/
def slBandFail (d : Dev) : Dev := if d.stag.searching && slEnabled d then stagCode 0x0401 d else d

/-- TB_LOOP_FAIL (R117). -/
def tbLoopFail (d : Dev) : Dev := ((stopSlew (d.setStag { d.stag with tFallback := true })).putB F.STAG_STATUS_TB_LOCK false).put F.STAG_STATUS_TB_SRC 3

/-- REF_OFFSET_MEAS (R521). -/
def refOffsetMeas (offset : Word) (d : Dev) : Dev :=
  if d.flag F.STAG_STATUS_REF_OK then d.wr R.STAG_REF_OFFSET offset else d

/-- TIMEBASE_LOCK (R102): the loop has locked to the source it is to use; at the first lock the count starts (R108). With no
source to lock to, the loop holds over normally again after a failure (R117), or, with no prior lock, free run begins (Table 4.1);
TB_LOCK stays 0 in free run: DEDUCED (log 166). -/
def timebaseLock (d : Dev) : Dev :=
  let src := wantedSource d
  let begun : Stag := { d.stag with starting := d.stag.starting || !d.stag.counting, tFallback := false }
  if d.stag.counting && src ≠ d.get F.STAG_STATUS_TB_SRC then d
  else if src = 3 && !d.stag.everLocked then
    if d.pwr.refWait && d.cfg F.STAG_TB_CTRL_SRC < 2 then d else d.setStag begun
  else ((d.putB F.STAG_STATUS_TB_LOCK true).put F.STAG_STATUS_TB_SRC src).setStag { begun with everLocked := true }

end Sys2Proof.Machine
end

