-- ==== Sys2Proof/Machine/Pulse.lean ====
section
/-! DEFINITION. The pulse units (R311 to R316). -/
namespace Sys2Proof.Machine

def evPulseFire : Nat := 0x181
def evPulseEnd : Nat := 0x182
def pulseCode (u : Fin 4) (c : Nat) (d : Dev) : Dev := d.put (F.PULSE_u_STATUS_LAST_CODE u) c
def Dev.setPulse (d : Dev) (u : Fin 4) (p : PulseUnit) : Dev := { d with pulse := d.pulse.set u.val p }
def monitors : List (Fin 8) := [0, 1, 2, 3, 4, 5, 6, 7]

/-- The trip states of the eight monitors, as a bitmap. -/
def owlTrips (d : Dev) : Nat :=
  monitors.foldl (fun acc (n : Fin 8) => acc + (d.flag (F.OWL_n_STATUS_TRIP n)).toNat * 2 ^ n.val) 0

/-- Bits of a and b in common. -/
def meets (a b : Nat) : Bool := (BitVec.ofNat 8 a &&& BitVec.ofNat 8 b) != 0

/-- The OR of the trip states a unit follows (R311). -/
def pulseTripped (d : Dev) (u : Fin 4) : Bool := meets (owlTrips d) (d.cfg (F.PULSE_u_CFG_TRIP_MASK u))

/-- A unit fires, or a firing while it is active is ignored and counted (R312, Table 12.3). -/
def pulseFire (u : Fin 4) (command : Bool) (d : Dev) : Dev :=
  if d.unitState (.pulse u) ≠ stOn then d
  else
    let p := d.pulse.get u
    if p.active then d.count (R.PULSE_u_IGN_CNT u)
    else
      let n := d.cfg (F.PULSE_u_COUNT_COUNT u)
      let d := d.setPulse u { p with active := true, mode := d.cfg (F.PULSE_u_CFG_MODE u), left := n, endless := n = 0 }
      let d := (d.count (R.PULSE_u_FIRE_CNT u)).putB (F.PULSE_u_STATUS_OUT u) true
      if d.flag (F.PULSE_u_STATUS_FIRED u) then d
      else (d.putB (F.PULSE_u_STATUS_FIRED u) true).post .t evPulseFire u.val (owlTrips d + command.toNat * 256)

/-- The unit's output is idle again, and a drain ends (R315). -/
def pulseIdle (u : Fin 4) (d : Dev) : Dev :=
  let d := d.setPulse u { d.pulse.get u with active := false, left := 0, endless := false }
  d.putB (F.PULSE_u_STATUS_OUT u) false

/-- Fields of a commit take effect; a unit that is OFF and is enabled by it goes ON, and fires if its monitors trip (R312). -/
def pulseTake (u : Fin 4) (d : Dev) : Dev :=
  let enabling := d.cfgc.parts.any (fun w => w.tgt == .pulse u && w.addr == R.PULSE_u_CFG u)
  let d := applyUnit d (.pulse u)
  if !d.cfgB (F.PULSE_u_CFG_EN u) then d.setUnit (.pulse u) stOff
  else if d.unitState (.pulse u) = stOff && enabling then
    let d := d.setUnit (.pulse u) stOn
    if pulseTripped d u then pulseFire u false d else d
  else d

/-- The end of a drain: OFF, and what was committed meanwhile takes effect (R63, R64). -/
def pulseDrained (u : Fin 4) (d : Dev) : Dev :=
  if d.unitState (.pulse u) = stDraining then
    let d := d.setUnit (.pulse u) stOff
    if hasPart d (.pulse u) then pulseTake u d else d
  else d

def pulseEnd (u : Fin 4) (arg : Nat) (d : Dev) : Dev := pulseDrained u ((pulseIdle u d).post .t evPulseEnd u.val arg)

/-- EN as the fields waiting for a unit leave it. -/
def partEn (d : Dev) (t : CfgUnit) (addr bit : Nat) : Option Bool :=
  (d.cfgc.parts.find? (fun w => w.tgt == t && w.addr == addr)).map (fun w => w.val.getLsbD bit)

/-- COMMIT_APPLY of a unit: on an enabled unit at a tick at which it is idle, else at the next tick; a disable drains it
(R315). -/
def pulseApply (u : Fin 4) (d : Dev) : Dev :=
  let p := d.pulse.get u
  if d.unitState (.pulse u) = stDraining || d.unitState (.pulse u) = stAborting then d
  else if !p.active then pulseTake u d
  else if partEn d (.pulse u) (R.PULSE_u_CFG u) 31 = some false then
    let d := d.setUnit (.pulse u) stDraining
    if p.mode = 2 && !d.flag (F.PULSE_u_STATUS_OUT u) then pulseEnd u 0 d else d
  else d

/-- PULSE_CMD_FIRE (R312). -/
def pulseCmdFire (u : Fin 4) (d : Dev) : Dev :=
  if d.unitState (.pulse u) ≠ stOn then pulseCode u 0x0602 d else d.setPulse u { d.pulse.get u with fireDue := true }

/-- PULSE_CLEAR (R314): it acts at the next tick. -/
def pulseClear (u : Fin 4) (d : Dev) : Dev := d.setPulse u { d.pulse.get u with clearDue := true }

/-- A CLEAR at its tick. -/
def clearNow (u : Fin 4) (d : Dev) : Dev :=
  let p := d.pulse.get u
  let d := d.setPulse u { p with clearDue := false }
  if !p.active then d
  else if d.unitState (.pulse u) = stDraining then pulseEnd u 1 d
  else if p.mode = 1 || (p.mode = 2 && p.endless) then
    if pulseTripped d u then pulseCode u 0x0601 d else pulseEnd u 1 d
  else d

/-- A unit at a tick: a CLEAR and a FIRE that wait for it. -/
def pulseTick (d : Dev) (u : Fin 4) : Dev :=
  let d := if (d.pulse.get u).clearDue then clearNow u d else d
  let p := d.pulse.get u
  if p.fireDue then pulseFire u true (d.setPulse u { p with fireDue := false }) else d

/-- PULSE_ABORT (R315, Table 2.8): the output returns to idle and the unit goes to OFF. -/
def pulseAbort (u : Fin 4) (d : Dev) : Dev :=
  if d.unitState (.pulse u) = stOff then d
  else
    let was := (d.pulse.get u).active
    let d := pulseIdle u (d.setPulse u { d.pulse.get u with fireDue := false, clearDue := false })
    (if was then d.post .t evPulseEnd u.val 2 else d).setUnit (.pulse u) stAborting

/-- PULSE_WIDTH_END (R313). -/
def pulseWidthEnd (u : Fin 4) (d : Dev) : Dev :=
  let p := d.pulse.get u
  if !p.active || !d.flag (F.PULSE_u_STATUS_OUT u) then d
  else if p.mode = 0 then pulseDrained u (pulseIdle u d)
  else if p.mode = 2 then
    let d := (d.putB (F.PULSE_u_STATUS_OUT u) false).setPulse u { p with left := p.left - 1 }
    if d.unitState (.pulse u) = stDraining || (!p.endless && p.left ≤ 1) then pulseEnd u 0 d else d
  else d

/-- TRAIN_PERIOD (R313). -/
def trainPeriod (u : Fin 4) (d : Dev) : Dev :=
  let p := d.pulse.get u
  if p.active && p.mode = 2 && !d.flag (F.PULSE_u_STATUS_OUT u) then d.putB (F.PULSE_u_STATUS_OUT u) true else d

end Sys2Proof.Machine
end

