-- ==== Sys2Proof/Machine/Owl.lean ====
section
/-! DEFINITION. OWL, the window monitors (R302 to R310, R317). -/
namespace Sys2Proof.Machine

def evOwlTrip : Nat := 0x141
def evOwlSeeded : Nat := 0x142
def evOwlReadback : Nat := 0x143
def owlCode (n : Fin 8) (c : Nat) (d : Dev) : Dev := d.put (F.OWL_n_STATUS_LAST_CODE n) c
def Dev.setOwl (d : Dev) (n : Fin 8) (m : OwlMon) : Dev := { d with owl := d.owl.set n.val m }
/-- The bank whose spare serves a monitor (R75). -/
def owlBank (n : Fin 8) : Fin 4 := ⟨n.val % 4, by omega⟩

/-! ### Trip states (R303) -/

def usesUpper (sense : Nat) : Bool := sense ≠ 3
def usesLower (sense : Nat) : Bool := sense ≠ 2
def senseTrip (sense : Nat) (u l : Bool) : Bool :=
  match sense with | 0 => u || l | 1 => !u && !l | 2 => u | _ => l

def allDecided (sense : Nat) (m : OwlMon) : Bool :=
  (!usesUpper sense || m.upper.isSome) && (!usesLower sense || m.lower.isSome)

/-- The trip state that the latches give; PWRUP_STATE while one that SENSE uses is undecided (R306, R308). -/
def owlTripNow (d : Dev) (n : Fin 8) : Bool :=
  let m := d.owl.get n
  let sense := d.cfg (F.OWL_n_CFG_SENSE n)
  if allDecided sense m then senseTrip sense (m.upper.getD false) (m.lower.getD false)
  else d.cfgB (F.OWL_n_CFG_PWRUP_STATE n)

/-- An event of MAIN's unit A or B on an OWL source: in a capture mode it waits for the vector of its triggering sample (R129,
R131). -/
def owlMainEvent (b : Bool) (d : Dev) (t : Instant) : Dev :=
  if isCapture d.mode then d.setFox { d.fox with owlEvs := d.fox.owlEvs ++ [(b, t)] } else mainEvent d b ⟨t, none⟩

/-- FOX latches a trip state in C (R125, R126). -/
def foxOwl (n : Fin 8) (high : Bool) (ts : Nat) (d : Dev) : Dev :=
  let d := d.setFox { d.fox with owl := if high then d.fox.owl ||| (1#8 <<< n.val) else d.fox.owl &&& ~~~(1#8 <<< n.val) }
  if !(d.armed && srcEnabled d 0 && mainUsable d) then d
  else
    let t := tsInstant d ts
    let one (b : Bool) (d : Dev) : Dev :=
      let c := unitCfg d b.toNat
      if c.owl && c.ty ≠ 8 && c.src = n.val + 4 then
        let (u, evs) := unitOwl c (if b then d.fox.b else d.fox.a) t high
        let d := d.setFox (if b then { d.fox with b := u } else { d.fox with a := u })
        evs.foldl (owlMainEvent b) d
      else d
    let d := one false d
    decideNow (if d.cfgB F.FOX_SEQ_EN then one true d else d)

/-- TIMEOUT units on OWL sources at a tick (R125). -/
def foxOwlTick (d : Dev) : Dev :=
  if !(d.armed && srcEnabled d 0 && mainUsable d) then d
  else
    let one (b : Bool) (d : Dev) : Dev :=
      let (u, evs) := unitOwlTimeout d (unitCfg d b.toNat) (if b then d.fox.b else d.fox.a) d.stag.now.toNat
      evs.foldl (owlMainEvent b) (d.setFox (if b then { d.fox with b := u } else { d.fox with a := u }))
    let d := one false d
    if d.cfgB F.FOX_SEQ_EN then one true d else d

/-- A monitor's trip state takes a value; `ts` is the TS at which FOX latches the change. PULSE follows it without a clock
(R311); T latches it in TRIP_STICKY at the next tick. -/
def setTrip (n : Fin 8) (t : Bool) (ts : Nat) (d : Dev) : Dev :=
  if d.flag (F.OWL_n_STATUS_TRIP n) = t then d
  else
    let before : List (Fin 4) := pipes.filter (fun (u : Fin 4) => pulseTripped d u)
    let d := d.putB (F.OWL_n_STATUS_TRIP n) t
    let d :=
      if !t then d
      else
        let d := d.count (R.OWL_n_TRIP_CNT n)
        if d.flag (F.OWL_n_STATUS_TRIP_STICKY n) then d
        else (d.putB (F.OWL_n_STATUS_TRIP_STICKY n) true).post .t evOwlTrip n.val 0 (some (mkTS (nowTick d + 1)))
    let d := pipes.foldl (fun d (u : Fin 4) => if pulseTripped d u && !before.contains u then pulseFire u false d else d) d
    foxOwl n t ts d

def showLatches (n : Fin 8) (d : Dev) : Dev :=
  let m := d.owl.get n
  (d.putB (F.OWL_n_STATUS_UPPER n) (m.upper.getD false)).putB (F.OWL_n_STATUS_LOWER n) (m.lower.getD false)

/-- The trip state follows the latches. -/
def owlFollow (n : Fin 8) (ts : Nat) (d : Dev) : Dev := setTrip n (owlTripNow d n) ts (showLatches n d)

/-! ### The spare (R75, R76, R308 to R310) -/

/-- The spare of a bank serves a slot (in SENTRY it serves none, R74). -/
def spareServes (d : Dev) (b : Fin 4) : Bool := d.get (F.ILV_b_SPARE_ACTIVE b) ≠ 63 && d.mode ≠ mSentry
def spareFree (d : Dev) (b : Fin 4) : Bool := !spareServes d b && d.mode ≠ mCount

/-- The monitor is not connected to its own input through its bank's track-and-hold (R308). -/
def owlUnconnected (d : Dev) (n : Fin 8) : Bool :=
  let arr := if d.mode = mSentry then 0 else d.arr
  (arr = 1 && (n.val = 1 || n.val = 3)) || (arr = 2 && 1 ≤ n.val && n.val ≤ 3)

/-- OWL takes the spare, and a shadow in progress is suspended (R76); OWL gives it back. -/
def spareTake (b : Fin 4) (s : OwlService) (d : Dev) : Dev := { d with owlSvc := d.owlSvc.set b.val (some s) }
def spareGive (b : Fin 4) (d : Dev) : Dev := { d with owlSvc := d.owlSvc.set b.val none }

/-- The two monitors that the spare of a bank serves (R75). -/
def owlsOf (b : Fin 4) : List (Fin 8) := [⟨b.val, by omega⟩, ⟨b.val + 4, by omega⟩]

/-- A seeding begins. -/
def seedBegin (b : Fin 4) (n : Fin 8) (d : Dev) : Dev :=
  (spareTake b ⟨n, true⟩ (d.setOwl n { d.owl.get n with seedBefore := d.get (F.OWL_n_STATUS_SEED n) })).put (F.OWL_n_STATUS_SEED n) 1

/-- A seeding that has begun ends without a reading: SEED shows what it did before (DEDUCED, log 161). -/
def seedDropped (n : Fin 8) (d : Dev) : Dev :=
  if d.get (F.OWL_n_STATUS_SEED n) = 1 then d.put (F.OWL_n_STATUS_SEED n) (d.owl.get n).seedBefore else d

/-- A monitor's request can be served: a command waits while the module is in CALIBRATE, the seeding of an enable pre-empts CAL (R309,
R326). -/
def mayServe (d : Dev) (n : Fin 8) : Bool := d.mode ≠ mCalibrate || !(d.owl.get n).byCommand

/-- Start what waits for a bank's spare: seedings first, and one of them pre-empts a readback (R306). -/
def owlServe (d : Dev) (b : Fin 4) : Dev :=
  let two := owlsOf b
  let seed := two.find? (fun n => (d.owl.get n).wantSeed && mayServe d n)
  let rb := two.find? (fun n => (d.owl.get n).wantRb && d.mode ≠ mCalibrate)
  if !spareFree d b then d
  else match d.owlSvc.get b, seed, rb with
    | none, some n, _ => seedBegin b n d
    | none, none, some n => spareTake b ⟨n, false⟩ d
    | some s, some n, _ => if s.seed then d else seedBegin b n d
    | _, _, _ => d

/-- Seeding or readback is refused with SPARE_BUSY, a code of CONV and of the monitor (R76, R99). -/
def spareBusy (n : Fin 8) (d : Dev) : Dev := owlCode n 0x0201 (ilvCode d 0x0201)

/-- Seeding cannot be had: the latches that are still undecided wait for crossings (R308). -/
def seedUnavailable (n : Fin 8) (code : Nat) (d : Dev) : Dev :=
  let m := d.owl.get n
  owlCode n code ((seedDropped n d).setOwl n { m with wantSeed := false, crossOnly := !allDecided (d.cfg (F.OWL_n_CFG_SENSE n)) m })

/-- What a mode or arrangement change makes unavailable ends, waiting or begun (R308 to R310); a command waits for a spare that serves a
slot. -/
def owlEnds (d : Dev) (n : Fin 8) : Dev :=
  let b := owlBank n
  let serves := spareServes d b
  let m := d.owl.get n
  let d := if (d.owlSvc.get b).any (fun s => s.mon == n) && (d.mode = mCount || serves || ((d.owlSvc.get b).any (·.seed) && owlUnconnected d n))
    then seedDropped n (spareGive b d) else d
  let d := if !m.wantSeed then d
    else if d.mode = mCount || owlUnconnected d n then seedUnavailable n 0x0501 d
    else if serves && !m.byCommand then seedUnavailable n 0x0201 (spareBusy n d)
    else d
  if m.wantRb && d.mode = mCount then owlCode n 0x0501 (d.setOwl n { d.owl.get n with wantRb := false }) else d

/-- OWL at a tick: what can no longer be had ends, and services that waited begin. -/
def owlTick (d : Dev) (b : Fin 4) : Dev := owlServe ((owlsOf b).foldl owlEnds d) b

/-- Drop a monitor's requests to the spare. -/
def owlCancel (n : Fin 8) (d : Dev) : Dev :=
  let b := owlBank n
  let d := seedDropped n (d.setOwl n { d.owl.get n with wantSeed := false, wantRb := false })
  if (d.owlSvc.get b).any (fun s => s.mon == n) then owlServe (spareGive b d) b else d

/-- Request seeding: at an enable, or by command, when a busy spare makes it wait (R306, R308, R309). -/
def requestSeed (n : Fin 8) (command : Bool) (d : Dev) : Dev :=
  let b := owlBank n
  let want (d : Dev) : Dev := d.setOwl n { d.owl.get n with wantSeed := true, byCommand := command, crossOnly := false }
  if d.mode = mCount || owlUnconnected d n then seedUnavailable n 0x0501 d
  else if spareServes d b then (if command then spareBusy n (want d) else seedUnavailable n 0x0201 (spareBusy n d))
  else owlServe (want d) b

/-! ### Enable and disable -/

/-- A monitor is enabled (R306). -/
def owlEnable (n : Fin 8) (d : Dev) : Dev :=
  let d := ((d.setOwl n { wantRb := (d.owl.get n).wantRb }).setUnit (.owl n) stOn).put (F.OWL_n_STATUS_SEED n) 0
  requestSeed n false (owlFollow n d.stag.now.toNat d)

/-- A monitor is disabled: everything it shows is frozen (R317). -/
def owlDisable (n : Fin 8) (d : Dev) : Dev := (owlCancel n d).setUnit (.owl n) stOff

/-- COMMIT_APPLY of a monitor, at the tick after the commit (R304, R317). -/
def owlApply (n : Fin 8) (d : Dev) : Dev :=
  let enabling := d.cfgc.parts.any (fun w => w.tgt == .owl n && w.addr == R.OWL_n_CFG n)
  let d := applyUnit d (.owl n)
  let on := d.unitState (.owl n) = stOn
  if d.cfgB (F.OWL_n_CFG_EN n) then
    if on then owlFollow n d.stag.now.toNat d else if enabling then owlEnable n d else d
  else if on then owlDisable n d else d

/-- OWL_ABORT (R317). -/
def owlAbort (n : Fin 8) (d : Dev) : Dev := if d.unitState (.owl n) = stOn then owlDisable n d else d

/-! ### Crossings and readings -/

/-- OWL_CROSSING (R303, R308): the signal passes one of the four levels: 0 rises above U, 1 falls below U − H, 2 falls below
L, 3 rises above L + H. -/
def owlCrossing (n : Fin 8) (level : Fin 4) (ts : TS) (d : Dev) : Dev :=
  if d.unitState (.owl n) ≠ stOn then d
  else
    let m := d.owl.get n
    let m := match level.val with
      | 0 => { m with upper := some true } | 1 => { m with upper := some false }
      | 2 => { m with lower := some true } | _ => { m with lower := some false }
    let d := owlFollow n ts.toNat (d.setOwl n m)
    if m.crossOnly && allDecided (d.cfg (F.OWL_n_CFG_SENSE n)) m then
      ((d.setOwl n { m with crossOnly := false }).put (F.OWL_n_STATUS_SEED n) 3).post .t evOwlSeeded n.val 256
    else d

/-- A reading in 1/16 threshold step as a fraction, for OWL0 to OWL3 referred back to the connector through the channel trims in force
(R68, R307): less the offset trim's 25/16 of these units a code, by the gain. -/
def atConnector (d : Dev) (n : Fin 8) (reading : Int) : Frac :=
  if 4 ≤ n.val then ⟨reading, 1⟩
  else
    let v := (d.ef (setKey d.arr (R.CONV_b_CH_TRIM (owlBank n)))).toNat
    let (g, o) := (signedOf 12 (bitsOf v 27 16), signedOf 12 (bitsOf v 11 0))
    ⟨reading * 20480 * 16 - 25 * o * (20480 + g), 16 * (20480 + g)⟩

/-- What a reading says of a latch with a level above which it holds one value and one below which it holds the other; an
overranged reading bounds the signal from one side (R307). Readings are in 1/16 threshold step. -/
def readingAbove (r : Frac) (out : Fin 3) (level : Int) : Bool := out ≠ 2 && decide (16 * (level + 4) * r.den ≤ r.num)
def readingBelow (r : Frac) (out : Fin 3) (level : Int) : Bool := out ≠ 1 && decide (r.num ≤ 16 * (level - 4) * r.den)

/-- The value of an undecided latch among those that yield the trip state of PWRUP_STATE: the only one, an open one where
both do, 0 where none does (R307). -/
def pickLatch (d : Dev) (can : Bool → Bool) : Dev × Bool × Bool :=
  match can false, can true with
  | true, true => (d.nextFree, d.free.getLsbD 0, true)
  | false, true => (d, true, true)
  | true, false => (d, false, true)
  | false, false => (d, false, false)

/-- SEED_DONE (R306, R307): the spare's reading, in 1/16 threshold step at its track-and-hold, and whether it was overranged high (1) or low (2). -/
def seedDone (n : Fin 8) (reading : Int) (out : Fin 3) (ts : TS) (d : Dev) : Dev :=
  let b := owlBank n
  if d.owlSvc.get b ≠ some ⟨n, true⟩ || d.unitState (.owl n) ≠ stOn then d
  else
    let sense := d.cfg (F.OWL_n_CFG_SENSE n)
    let u := d.cfgS (F.OWL_n_THRESH_UPPER n)
    let l := d.cfgS (F.OWL_n_THRESH_LOWER n)
    let h : Int := d.cfg (F.OWL_n_CFG_HYST n)
    let m := d.owl.get n
    let reading := atConnector d n reading
    let ru := if readingAbove reading out u then some true else if readingBelow reading out (u - h) then some false else none
    let rl := if readingBelow reading out l then some true else if readingAbove reading out (l + h) then some false else none
    let up := if m.upper.isSome || !usesUpper sense then m.upper else ru
    let lo := if m.lower.isSome || !usesLower sense then m.lower else rl
    let byReading := (m.upper.isNone && up.isSome).toNat * 2 + (m.lower.isNone && lo.isSome).toNat
    let pw := d.cfgB (F.OWL_n_CFG_PWRUP_STATE n)
    let lows : List Bool := if usesLower sense then (match lo with | some x => [x] | none => [false, true]) else [false]
    let (d, up', ok1) := match up with
      | some x => (d, x, true)
      | none => if usesUpper sense then pickLatch d (fun x => lows.any (fun y => senseTrip sense x y == pw)) else (d, false, true)
    let (d, lo', ok2) := match lo with
      | some y => (d, y, true)
      | none => if usesLower sense then pickLatch d (fun y => senseTrip sense up' y == pw) else (d, false, true)
    let m' := { m with upper := if usesUpper sense then some up' else m.upper, lower := if usesLower sense then some lo' else m.lower
                       wantSeed := false, crossOnly := false }
    let d := (d.setOwl n m').put (F.OWL_n_STATUS_SEED n) 2
    let d := if ok1 && ok2 then d else owlCode n 0x0502 d
    let d := (owlFollow n ts.toNat d).post .t evOwlSeeded n.val byReading
    owlServe (spareGive b d) b

/-- OWL_SEED (R309). -/
def owlSeed (n : Fin 8) (d : Dev) : Dev := if d.unitState (.owl n) = stOn then requestSeed n true d else d

/-- OWL_READBACK (R310): a spare that serves a slot refuses, and the command waits (R76, R309). -/
def owlReadback (n : Fin 8) (d : Dev) : Dev :=
  let b := owlBank n
  if d.mode = mCount then owlCode n 0x0501 d
  else
    let d := d.setOwl n { d.owl.get n with wantRb := true }
    if spareServes d b then spareBusy n (d.putB (F.OWL_n_STATUS_RB_VALID n) false)
    else owlServe d b

/-- READBACK_DONE (R310): both means, in threshold codes with 4 fraction bits. -/
def readbackDone (n : Fin 8) (upper lower : BitVec 16) (d : Dev) : Dev :=
  let b := owlBank n
  if d.owlSvc.get b ≠ some ⟨n, false⟩ then d
  else
    let d := d.setOwl n { d.owl.get n with wantRb := false }
    let w := upper ++ lower
    let d := ((d.wr (R.OWL_n_RB n) w).putB (F.OWL_n_STATUS_RB_VALID n) true).post .t evOwlReadback n.val w.toNat
    owlServe (spareGive b d) b

end Sys2Proof.Machine
end

