-- ==== Sys2Proof/Machine/Ddr.lean ====
section
/-! DEFINITION. DDR, the memory controller (chapter 15): training, the stripe, refresh, the command arbiter, ECC. -/
namespace Sys2Proof.Machine

def evDdrTrained : Nat := 0x401
def evDdrStripe : Nat := 0x402
def evDdrSlow : Nat := 0x403
def evDdrCe : Nat := 0x404
def evDdrUe : Nat := 0x405
def evDdrHot : Nat := 0x406
def evDdrDrift : Nat := 0x407
def ddrCode (c : Nat) (d : Dev) : Dev := d.put F.DDR_STATUS_LAST_CODE c
def Dev.setDdrCh (d : Dev) (n : Fin 12) (c : DdrCh) : Dev := { d with ddr := { d.ddr with chans := d.ddr.chans.set n.val c } }
def channels : List (Fin 12) := [0, 1, 2, 3, 4, 5, 6, 7, 8, 9, 10, 11]
def inMask (m : Nat) (n : Fin 12) : Bool := bitsOf m n.val n.val == 1
def channelMask (l : List (Fin 12)) : Nat := l.foldl (fun acc (n : Fin 12) => acc + 2 ^ n.val) 0

/-! ### Organisation (Tables 15.2, 15.3) -/

/-- Rank size in bytes, how many ranks, and whether the devices are x8. -/
structure DdrOrg where
  rank : Nat
  ranks : Nat
  x8 : Bool
deriving DecidableEq, Repr

def ddrOrgOf (d : Dev) : DdrOrg :=
  match d.get F.DDR_ORG_ORG with
  | 0 => ⟨16 * 2 ^ 30, 1, true⟩ | 1 => ⟨16 * 2 ^ 30, 2, true⟩ | 2 => ⟨24 * 2 ^ 30, 1, true⟩
  | 3 => ⟨32 * 2 ^ 30, 1, true⟩ | 4 => ⟨8 * 2 ^ 30, 2, false⟩ | _ => ⟨16 * 2 ^ 30, 2, false⟩

def chanBytes (d : Dev) : Nat := (ddrOrgOf d).rank * (ddrOrgOf d).ranks

/-- The rank, subchannel and bank of a local address, and its row (R361). -/
def localRow (d : Dev) (a : Nat) : (Nat × Nat × Nat) × Nat :=
  let o := ddrOrgOf d
  let m := a % o.rank
  if o.x8 then ((a / o.rank, bitsOf m 6 6, bitsOf m 17 13), m / 2 ^ 18)
  else ((a / o.rank, bitsOf m 6 6, bitsOf m 16 13), m / 2 ^ 17)

/-! ### The stripe (R366 to R368, R268) -/

def readyMask (d : Dev) : Nat := d.get F.DDR_READY_READY
def stripeNamed (d : Dev) : Nat := d.get F.DDR_STRIPE_CH_NAMED

/-- The channel and local address of a DRAM address. -/
def dramMap (d : Dev) (a : Nat) : Fin 12 × Nat :=
  match d.ddr.table with
  | some off => let (c, l) := stripeMap d off a; (Fin.ofNat 12 c, l)
  | none =>
    let chans : List (Fin 12) := channels.filter (inMask (stripeNamed d))
    let n := max 1 chans.length
    let g := a / 2 ^ 13
    (chans.getD (g % n) 0, g / n * 2 ^ 13 + a % 2 ^ 13)

/-- A stripe comes into effect: installed DRAM changes, and the contents of all DRAM are undefined (R367). -/
def setStripe (table : Option Nat) (named grain : Nat) (d : Dev) : Dev :=
  let count := (channels.filter (fun (n : Fin 12) => inMask named n)).length
  let d := { d with ddr := { d.ddr with table := table, span := count * chanBytes d }
                    mem := d.mem.filter (fun e => dramEnd ≤ e.1), gen := { d.gen with dram := d.gen.dram + 1 } }
  ((d.put F.DDR_STRIPE_CH_NAMED named).put F.DDR_STRIPE_CH_GRAIN_LOG grain).putB F.DDR_STATUS_BUILTIN table.isNone

/-- The built-in stripe over the READY channels. -/
def builtinStripe (d : Dev) : Dev := setStripe none (readyMask d) 13 d

/-- CAP's STATE (Table 2.7): working while armed or with an open unit. -/
def capState (d : Dev) : Nat :=
  if d.get F.CAP_STATUS_STATE = stAborting then stAborting
  else if d.cap.armed || d.cap.unit.isSome then (if d.phase = 1 then stDraining else stOn)
  else stOff

/-- CAP, RED, STK, BADGER and BEAVER are OFF. -/
def dramUsersOff (d : Dev) : Bool :=
  capState d = stOff && pipes.all (fun (p : Fin 4) => d.unitState (.red p) == stOff) && d.unitState .stk == stOff
    && d.unitState .badger == stOff && d.get F.BEAVER_STATUS_STATE == stOff

/-- An AQS fabric access to DRAM is outstanding. -/
def fabricDram (d : Dev) : Bool :=
  d.aqs.ctxs.toList.any fun c => match c.busy with | .fabric _ _ a => decide (a < d.ddr.span) | _ => false

/-- STRIPE_APPLY (R367). -/
def stripeApply (d : Dev) : Dev :=
  if !hasPart d .ddrStripe then d
  else if !dramUsersOff d || !d.ddr.chans.toList.all (fun c => c.queue.isEmpty) || fabricDram d then d
  else
    let d := (applyUnit d .ddrStripe).putB F.DDR_STATUS_STRIPE_PENDING false
    let off := d.cfg F.DDR_STRIPE_OFFSET * 64
    let d := if d.cfgB F.DDR_STRIPE_USE then setStripe (some off) (stripeChannels d off) (stripeGrainLog d off) d
      else builtinStripe d
    d.post .q evDdrStripe 0 (stripeNamed d + d.get F.DDR_STRIPE_CH_GRAIN_LOG * 2 ^ 16)

/-- The speed at which every fitted channel runs (R359, Table 15.1). -/
def ddrSpeed (d : Dev) : Nat := min (d.cfg F.DDR_CTRL_SPEED) (d.get F.DDR_ORG_MAX_SPEED)

/-- A channel's nominal peak in MB/s (Table 15.1). -/
def channelPeak (d : Dev) : Nat := 51200 + 6400 * ddrSpeed d

/-- The stripe bandwidth of R26 in MB/s: the named channels at the lowest RATE among them (R368). -/
def stripeBandwidth (d : Dev) : Nat :=
  let named := channels.filter (inMask (stripeNamed d))
  named.length * channelPeak d * named.foldl (fun m (n : Fin 12) => min m (d.get (F.DDR_CH_n_RATE_RATE n))) 2047 / 1024

/-! ### Training (R363 to R365) -/

/-- The controller as a whole is ON while a channel is. -/
def showDdr (d : Dev) : Dev :=
  d.put F.DDR_STATUS_STATE (if channels.any (fun (n : Fin 12) => d.unitState (.ddr n) == stOn) then stOn else stOff)

/-- DDR_TRAIN (R365). -/
def ddrTrain (mask : BitVec 12) (d : Dev) : Dev :=
  if !dramUsersOff d || d.flag F.CAP_STATUS_HOLDING || fabricDram d || d.ddr.training.isSome then ddrCode 0x1004 d
  else
    let d := if hasPart d .ddrSpeed then applyUnit d .ddrSpeed else d
    { d with ddr := { d.ddr with training := some (mask &&& BitVec.ofNat 12 (d.get F.DDR_ORG_FITTED)) }
             mem := d.mem.filter (fun e => e.1 < dramEnd || stkBase ≤ e.1)
             gen := { d.gen with capture := d.gen.capture + 1 } }

/-- One channel's training has ended: it is ready, in self-refresh when EN leaves it disabled (R363), or failed. -/
def trainedOne (ok unsupported : BitVec 12) (d : Dev) (n : Fin 12) : Dev :=
  let ready := readyMask d
  if ok.getLsbD n.val then
    let on := inMask (d.cfg F.DDR_CTRL_EN) n
    let d := (d.put F.DDR_READY_READY (setBits ready n.val n.val 1)).put F.DDR_READY_SR
      (setBits (d.get F.DDR_READY_SR) n.val n.val (!on).toNat)
    d.setUnit (.ddr n) (if on then stOn else stOff)
  else
    let code := if unsupported.getLsbD n.val then 0x1002 else 0x1001
    let d := ((d.put F.DDR_READY_READY (setBits ready n.val n.val 0)).put F.DDR_READY_SR
      (setBits (d.get F.DDR_READY_SR) n.val n.val 0)).setUnit (.ddr n) stOff
    ddrCode code (d.put (F.DDR_CH_n_STATUS_LAST_CODE n) code)

/-- TRAINING_DONE (R364, R366, R367): which channels passed, and which declared refresh management required. -/
def trainingDone (ok unsupported : BitVec 12) (d : Dev) : Dev :=
  match d.ddr.training with
  | none => d
  | some mask =>
    let before := readyMask d
    let mine : List (Fin 12) := channels.filter (fun (n : Fin 12) => mask.getLsbD n.val)
    let d := mine.foldl (trainedOne (ok &&& ~~~unsupported) unsupported) { d with ddr := { d.ddr with training := none } }
    let failed := mine.filter (fun (n : Fin 12) => !inMask (readyMask d) n)
    let lost := failed.any (fun (n : Fin 12) => inMask (stripeNamed d) n)
    let d := if (d.ddr.table.isNone && readyMask d ≠ before) || lost then builtinStripe d else d
    (showDdr d).post .q evDdrTrained 0 (readyMask d + channelMask failed * 2 ^ 16)

/-- A channel is disabled: queued bursts complete, then self-refresh (R363). -/
def ddrDisable (n : Fin 12) (d : Dev) : Dev :=
  if d.unitState (.ddr n) ≠ stOn then d
  else if (d.ddr.chans.get n).queue.isEmpty then
    showDdr ((d.setUnit (.ddr n) stOff).put F.DDR_READY_SR (setBits (d.get F.DDR_READY_SR) n.val n.val 1))
  else d.setUnit (.ddr n) stDraining

/-- DDR_CH_ABORT (R363): a disable, but for a channel that the stripe in effect names. -/
def ddrChAbort (n : Fin 12) (d : Dev) : Dev := if inMask (stripeNamed d) n then d else ddrDisable n d

/-- COMMIT_APPLY of DDR's fields at the next D cycle; while a channel drains they wait for the drain's end (R63, R64). -/
def ddrApply (d : Dev) : Dev :=
  if channels.any (fun (n : Fin 12) => d.unitState (.ddr n) == stDraining) then d else
  let named := d.cfgc.parts.any (fun w => w.tgt == .ddr && w.addr == R.DDR_CTRL)
  let d := applyUnit d .ddr
  if !named then d
  else channels.foldl (fun d (n : Fin 12) =>
    if !inMask (d.cfg F.DDR_CTRL_EN) n then ddrDisable n d
    else if inMask (readyMask d) n && d.unitState (.ddr n) = stOff then
      showDdr ((d.setUnit (.ddr n) stOn).put F.DDR_READY_SR (setBits (d.get F.DDR_READY_SR) n.val n.val 0))
    else d) d

/-! ### Rates, refresh, temperature, retraining -/

/-- RATE_WINDOW_END (R368): the window's reading, none when the channel had no request queued. -/
def rateWindowEnd (n : Fin 12) (reading : Option Nat) (d : Dev) : Dev :=
  match reading with
  | none => d
  | some r =>
    let r := min 2047 r
    let d := d.put (F.DDR_CH_n_RATE_RATE n) r
    if r < d.cfg F.DDR_RATE_CFG_SLOW_TH then
      if d.flag (F.DDR_CH_n_STATUS_SLOW n) then d
      else (d.putB (F.DDR_CH_n_STATUS_SLOW n) true).post .q evDdrSlow n.val r
    else d.putB (F.DDR_CH_n_STATUS_SLOW n) false

def showPostponed (n : Fin 12) (d : Dev) : Dev :=
  let c := d.ddr.chans.get n
  d.put (F.DDR_CH_n_STATUS_POSTPONED n) (max (c.postponed.get 0) (c.postponed.get 1))

def selfRefresh (d : Dev) (n : Fin 12) : Bool := inMask (d.get F.DDR_READY_SR) n

/-- A rank is refreshed: its rows close, and nothing of it stays postponed (R369 to R371). -/
def refreshRank (c : DdrCh) (rank : Fin 2) : DdrCh :=
  { c with postponed := c.postponed.set rank.val 0, rows := c.rows.filter (fun r => r.1.1 ≠ rank.val) }

/-- REFRESH_DUE (R370, R371). -/
def refreshDue (n : Fin 12) (rank : Fin 2) (d : Dev) : Dev :=
  let c := d.ddr.chans.get n
  if selfRefresh d n || (ddrOrgOf d).ranks ≤ rank.val then d
  else if !c.classD then showPostponed n (d.setDdrCh n (refreshRank c rank))
  else if c.postponed.get rank < 8 then
    showPostponed n (d.setDdrCh n { c with postponed := c.postponed.set rank.val (c.postponed.get rank + 1) })
  else (showPostponed n (d.setDdrCh n (refreshRank c rank))).count (R.DDR_CH_n_FORCED_CNT n)

/-- CLASS_D_QUIET (R371): 1 µs without a Class D request; what was postponed is issued. -/
def classDQuiet (n : Fin 12) (d : Dev) : Dev :=
  let c := { d.ddr.chans.get n with classD := false }
  let c := if c.postponed.get 0 = 0 then c else refreshRank c 0
  let c := if c.postponed.get 1 = 0 then c else refreshRank c 1
  showPostponed n (d.setDdrCh n c)

/-- DDR_TEMP_CHANGE (R372): 0 up to 85 °C, 1 above, 2 above 95 °C. -/
def ddrTempChange (n : Fin 12) (level : Fin 3) (d : Dev) : Dev :=
  let c := d.ddr.chans.get n
  let d := d.setDdrCh n { c with temp := level }
  let d := d.putB (F.DDR_CH_n_STATUS_HOT n) (level ≠ 0)
  let d := if c.temp = 0 && level ≠ 0 then d.post .q evDdrHot n.val 1 else d
  let d := if c.temp ≠ 2 && level = 2 then d.post .q evDdrHot n.val 2 else d
  if c.temp ≠ 0 && level = 0 then d.post .q evDdrHot n.val 0 else d

/-- NEIGHBOUR_REFRESH (R373): the neighbour rows of an activated row are activated and precharged; the bank's row closes. -/
def neighbourRefresh (n : Fin 12) (rank : Fin 2) (sub bank : Nat) (d : Dev) : Dev :=
  if !d.cfgB F.DDR_CTRL_NR_EN || (ddrOrgOf d).ranks ≤ rank.val then d
  else
    let c := d.ddr.chans.get n
    (d.setDdrCh n { c with rows := c.rows.filter (fun r => r.1 ≠ (rank.val, sub, bank)) }).count (R.DDR_CH_n_NRR_CNT n)

/-- The logical rows that a neighbour refresh of a row touches (R373). -/
def neighbourRows (d : Dev) (rows row : Nat) : List Nat :=
  let m := d.cf64 R.DDR_SCRAMBLE_LO
  let scr (x : Nat) : Nat := m / 2 ^ (4 * x) % 16
  let uns (y : Nat) : Nat := ((List.range 16).find? (fun x => scr x == y)).getD 0
  let p := row / 16 * 16 + scr (row % 16)
  let one (q : Nat) : List Nat := if q < rows then [q / 16 * 16 + uns (q % 16)] else []
  (if p = 0 then [] else one (p - 1)) ++ one (p + 1)

/-- RETRAIN (R374): whether the measured drift exceeded one eighth of a unit interval. -/
def retrain (n : Fin 12) (drift : Bool) (d : Dev) : Dev :=
  if selfRefresh d n || !drift then d
  else (d.putB (F.DDR_CH_n_STATUS_DRIFT n) true).post .q evDdrDrift n.val 0

/-- A request names a rank of the channel. -/
def reqRank (d : Dev) (r : DdrReq) : Nat := (localRow d (dramMap d r.addr).2).1.1

/-- POWER_DOWN_ENTRY (R375). -/
def powerDownEntry (n : Fin 12) (rank : Fin 2) (d : Dev) : Dev :=
  let c := d.ddr.chans.get n
  if d.cfg F.DDR_PD_PD_IDLE = 0 || (ddrOrgOf d).ranks ≤ rank.val || c.queue.any (fun r => reqRank d r == rank.val) then d
  else d.setDdrCh n { c with pd := c.pd.set rank.val true, rows := c.rows.filter (fun r => r.1.1 ≠ rank.val) }

/-- SELF_REFRESH_ENTRY (R375). -/
def selfRefreshEntry (n : Fin 12) (d : Dev) : Dev :=
  if d.cfg F.DDR_PD_SR_IDLE = 0 || !inMask (readyMask d) n || !(d.ddr.chans.get n).queue.isEmpty then d
  else d.put F.DDR_READY_SR (setBits (d.get F.DDR_READY_SR) n.val n.val 1)

/-! ### The command arbiter (R376, R378) and ECC (R379, R380) -/

def ddrPressure (d : Dev) : Bool := decide (49152 < d.get F.CAP_SRAM_LEVEL_KIB)

/-- DDR_REQUEST (R371, R375, R376): a burst request arrives at its channel; it wakes the rank and the channel. -/
def ddrRequest (r : DdrReq) (d : Dev) : Dev :=
  let a := r.addr / 64 * 64
  if !inDram d a 64 then d
  else
    let n := (dramMap d a).1
    let c := d.ddr.chans.get n
    if 64 ≤ c.queue.length then d
    else
      let r := { r with addr := a, urgent := r.classD && ddrPressure d }
      let rank := reqRank d r
      let c := { c with queue := c.queue ++ [r], classD := c.classD || r.classD, pd := c.pd.set (rank % 2) false (by omega) }
      (d.setDdrCh n c).put F.DDR_READY_SR (setBits (d.get F.DDR_READY_SR) n.val n.val 0)

/-- The request the arbiter takes: urgent ones oldest first, Class D, one that hits an open row, the oldest; never past an
earlier request to the same burst. -/
def ddrPick (d : Dev) (c : DdrCh) : Option DdrReq :=
  let free := c.queue.zipIdx.filter (fun (r, i) => !(c.queue.take i).any (fun q => q.addr == r.addr))
  let free := free.map (·.1)
  let hits (r : DdrReq) : Bool := c.rows.contains (localRow d (dramMap d r.addr).2)
  match free.find? (·.urgent) with
  | some r => some r
  | none => match free.find? (·.classD) with
    | some r => some r
    | none => match free.find? hits with
      | some r => some r
      | none => free.head?

/-! A context's fabric access to DRAM (R237): a Class H request of the channel that its address lies in. -/

def MemOp.size : MemOp → Nat
  | .ld | .st => 8
  | .ldw | .stw => 4
def MemOp.isLoad : MemOp → Bool
  | .ld | .ldw => true
  | .st | .stw => false

/-- The request of an access at address a, with the stored value. -/
def accessReq (n : Fin 8) (op : MemOp) (v : Word64) (a : Nat) : DdrReq :=
  let o := a % 64
  { addr := a - o, write := !op.isLoad, data := zeros o ++ leBytes op.size v.toNat ++ zeros (64 - o - op.size)
    be := BitVec.ofNat 64 ((2 ^ op.size - 1) * 2 ^ o), classD := false, host := false, urgent := false, ctx := some n }

def waitsAtDdr (d : Dev) (n : Fin 8) : Bool := d.ddr.chans.toList.any fun c => c.queue.any fun r => r.ctx == some n

/-- DDR_REQUEST: a burst request arrives at its channel. -/
def burstArrives (r : DdrReq) (d : Dev) : Dev :=
  match r.ctx with
  | none => ddrRequest r d
  | some n =>
    let c := d.aqs.ctxs.get n
    match c.busy with
    | .fabric op g a => if waitsAtDdr d n then d else ddrRequest (accessReq n op (if g = 0 then 0 else c.g.get g) a) d
    | _ => d

/-- The channel has served a context's request, a read with the bytes of its burst. -/
def answerCtx (r : DdrReq) (burst : List Byte) (d : Dev) : Dev :=
  match r.ctx with
  | none => d
  | some n =>
    let c := d.aqs.ctxs.get n
    match c.busy with
    | .fabric op g a =>
      let v := BitVec.ofNat 64 (leNat ((burst.drop (a % 64)).take op.size))
      { d with aqs := { d.aqs with ctxs := d.aqs.ctxs.set n.val { c with busy := .answered op g v } } }
    | _ => d

/-- A context abandons its access: its request leaves the queue (R254, R257). -/
def withdraw (n : Fin 8) (d : Dev) : Dev :=
  { d with ddr := { d.ddr with chans := d.ddr.chans.map fun c => { c with queue := c.queue.filter (fun r => r.ctx != some n) } } }

/-- Merge written bytes into a burst by their byte enables. -/
def mergeBytes (old new : List Byte) (be : Word64) : List Byte :=
  (old.zip new).zipIdx.map fun ((o, x), i) => if be.getLsbD i then x else o

/-- A read met an error (R379, R380). -/
def ddrEcc (n : Fin 12) (a : Nat) (o : EccOutcome) (d : Dev) : Dev :=
  let c := d.ddr.chans.get n
  match o with
  | .ok => d
  | .corrected =>
    let d := d.count (R.DDR_CH_n_CE_CNT n)
    if c.ceSaid then d else (d.setDdrCh n { c with ceSaid := true }).post .q evDdrCe n.val a
  | .uncorrectable =>
    let d := (d.count (R.DDR_CH_n_UE_CNT n)).wr64 (R.DDR_CH_n_UE_ADDR_LO n) a
    (ddrCode 0x1005 (d.put (F.DDR_CH_n_STATUS_LAST_CODE n) 0x1005)).post .q evDdrUe n.val a

/-- A draining channel whose queue is empty is OFF and in self-refresh (R363). -/
def channelDrained (n : Fin 12) (d : Dev) : Dev :=
  if d.unitState (.ddr n) = stDraining && (d.ddr.chans.get n).queue.isEmpty then
    showDdr ((d.setUnit (.ddr n) stOff).put F.DDR_READY_SR (setBits (d.get F.DDR_READY_SR) n.val n.val 1))
  else d

/-- BURST_SERVICE (R376, R378 to R380): the channel performs the request its arbiter chooses; `o` is what a read met. -/
def burstService (n : Fin 12) (o : EccOutcome) (d : Dev) : Dev :=
  let c := d.ddr.chans.get n
  match ddrPick d c with
  | none => channelDrained n d
  | some r =>
    let (key, row) := localRow d (dramMap d r.addr).2
    let bad := c.poison.contains r.addr
    let o := if bad then .uncorrectable else o
    let partialWrite := r.be ≠ BitVec.allOnes 64
    let c := { c with queue := c.queue.erase r, rows := (key, row) :: c.rows.filter (fun x => x.1 ≠ key) }
    let d := d.setDdrCh n c
    let old := d.loadBytes r.addr 64
    let d :=
      if !r.write then
        let d := ddrEcc n r.addr o d
        { d with ddr := { d.ddr with out := old, outPoisoned := o == .uncorrectable } }
      else if partialWrite then
        let d := (ddrEcc n r.addr o d).storeBytes r.addr (mergeBytes old r.data r.be)
        if o == .uncorrectable && !bad then
          d.setDdrCh n { d.ddr.chans.get n with poison := r.addr :: (d.ddr.chans.get n).poison }
        else d
      else
        (d.storeBytes r.addr (r.data.take 64)).setDdrCh n { c with poison := c.poison.filter (fun a => a ≠ r.addr) }
    channelDrained n (answerCtx r old d)

/-- A request waiting at a channel reaches its age threshold, a host read its own (R38, R376), × 0.1 µs. -/
def ddrPromote (n : Fin 12) (i waited : Nat) (d : Dev) : Dev :=
  let c := d.ddr.chans.get n
  match c.queue[i]? with
  | none => d
  | some r =>
    let limit := if r.host && !r.write then d.cfg F.DDR_ARB_HOST_AGE else d.cfg F.DDR_ARB_AGE
    if waited < limit then d
    else d.setDdrCh n { c with queue := c.queue.zipIdx.map (fun (q, j) => if j = i then { q with urgent := true } else q) }

end Sys2Proof.Machine
end

