-- ==== Sys2Proof/Machine/Badger.lean ====
section
/-! DEFINITION. The data fabric's access rules (R39 to R42) and BADGER, the compression engine (chapter 14). -/
namespace Sys2Proof.Machine

/-! ### The fabric -/

/-- Bit 63 selects host space (R41). -/
def isHost (a : Nat) : Bool := decide (2 ^ 63 ≤ a)

/-- A context holds program SRAM: it is not stopped (R42). -/
def ctxActive (c : Ctx) : Bool :=
  match c.run with | .running | .waiting | .stopping | .aborting => true | _ => false

def anyCtxActive (d : Dev) : Bool := d.aqs.ctxs.toList.any ctxActive

/-- Whether the fabric lets a requester other than the owner write `n` bytes at `a`, all in one region (R42, R472). -/
def regionWritable (d : Dev) (r : Region) (a n : Nat) : Bool :=
  match r with
  | .dram | .data => true
  | .capture => capState d = stOff
  | .stk => d.unitState .stk = stOff
  | .badger => false
  | .program => !anyCtxActive d && !d.flag F.HEDGE_STATUS_PRG_LOCKED
  | .table => !hitsTable d a n

/-- No byte of [a, a + n) lies in a hole. Program and data SRAM adjoin. -/
def noHole (d : Dev) (a n : Nat) : Bool :=
  n = 0 || (rangeRegion d a n).isSome || (regionOf d a = some .program && regionOf d (a + n - 1) = some .data)

def canWrite (d : Dev) (a n : Nat) : Bool :=
  n = 0 || (noHole d a n && (match regionOf d a with | some r => regionWritable d r a n | none => false)
    && (match regionOf d (a + n - 1) with | some r => regionWritable d r a n | none => false))

/-- Program SRAM no longer holds a verified image (R262, R472). -/
def clearVerified (d : Dev) : Dev :=
  ({ d with aqs := { d.aqs with verified := false }, hedge := { d.hedge with prg := none } }.putB F.HEDGE_STATUS_PRG_VERIFIED false).wr
    R.HEDGE_PRG_SVN 0

/-- A completed write through the fabric; one into program SRAM clears the verified state (R262). -/
def fabricStore (d : Dev) (a : Nat) (bs : List Byte) : Dev :=
  let d := d.writeOut a bs
  let inProgram := decide (a < programBase + 0x200000) && decide (programBase < a + bs.length) && !bs.isEmpty
  if inProgram then clearVerified d else d

/-! ### Requests into host space (R407, R414) -/

/-- Island H runs: PERST_N is high and the PCIe reference is present (R30). -/
def hRuns (d : Dev) : Bool := !d.host.perst && d.host.refPresent

/-- The module may issue requests into host space (R407). -/
def mayIssue (d : Dev) : Bool := d.host.busMaster && hRuns d

def Dev.setHost (d : Dev) (h : HostIf) : Dev := { d with host := h }

/-- Whether PCIE holds back this access: it goes into host space, where the module may issue nothing now. -/
def hostBlocked (d : Dev) (a : Nat) : Bool := isHost a && !mayIssue d

/-- The memory writes of [a, a + n): whole 64-byte bursts merged up to Max Payload Size, a partial burst alone; none crosses a 4 KiB
boundary. -/
def splitWrite (mps : Nat) : Nat → Nat → Nat → List (Nat × Nat)
  | 0, _, _ => []
  | fuel + 1, a, n =>
    if n = 0 then []
    else
      let k := if a % 64 ≠ 0 || n < 64 then min n (64 - a % 64) else min (n / 64 * 64) (min mps (4096 - a % 4096))
      (a, k) :: splitWrite mps fuel (a + k) (n - k)

/-- The read requests of [a, a + n): split at Max Read Request Size and at 4 KiB boundaries. -/
def splitRead (mrrs : Nat) : Nat → Nat → Nat → List (Nat × Nat)
  | 0, _, _ => []
  | fuel + 1, a, n =>
    if n = 0 then []
    else
      let k := min n (min mrrs (4096 - a % 4096))
      (a, k) :: splitRead mrrs fuel (a + k) (n - k)

/-- Requests as PCIE marks them: No Snoop under PCIE_CTRL.NS; Relaxed Ordering on data writes only. -/
def issue (write data : Bool) (ch : Option (Fin 32)) (ps : List (Nat × Nat)) (d : Dev) : Dev :=
  let one (p : Nat × Nat) : HostReq :=
    { write, addr := p.1, len := p.2, open' := ch, noSnoop := d.flag F.PCIE_CTRL_NS
      relaxed := data && d.flag F.PCIE_CTRL_RO_DATA && d.host.relaxed }
  d.setHost { d.host with requests := (ps.map one).reverse ++ d.host.requests }

/-- Host memory is read. -/
def issueRead (a n : Nat) (d : Dev) : Dev := if isHost a then issue false false none (splitRead d.host.mrrs n (a % 2 ^ 63) n) d else d

/-- A burst of channel n's descriptor: it joins the request before it when both are of whole bursts, contiguous and within limits. -/
def issueBurst (n : Fin 32) (a len : Nat) (d : Dev) : Dev :=
  let whole := a % 64 = 0 && len = 64
  match d.host.requests with
  | q :: qs =>
    if whole && q.open' = some n && q.addr + q.len = a && q.len + 64 ≤ d.host.mps && a % 4096 ≠ 0 then
      d.setHost { d.host with requests := { q with len := q.len + 64 } :: qs }
    else issue true true (if whole then some n else none) [(a, len)] d
  | [] => issue true true (if whole then some n else none) [(a, len)] d

/-- A descriptor has ended: nothing joins its last request (R414). -/
def closeRequest (d : Dev) : Dev :=
  match d.host.requests with
  | q :: qs => d.setHost { d.host with requests := { q with open' := none } :: qs }
  | [] => d

/-- A write into host memory. -/
def hostStore (d : Dev) (a : Nat) : List Byte → Dev
  | [] => d
  | b :: bs => hostStore { d with host := { d.host with mem := Store.set zeroByte d.host.mem a b } } (a + 1) bs

/-- An extent in either space is no hole, or may be written. -/
def spaceReadable (d : Dev) (a n : Nat) : Bool := if isHost a then true else decide (a < 2 ^ 48) && noHole d a n
def spaceWritable (d : Dev) (a n : Nat) : Bool := if isHost a then true else decide (a < 2 ^ 48) && canWrite d a n

/-- Read `n` bytes: of host memory, what the host answered. -/
def spaceLoad (d : Dev) (a n : Nat) (host : List Byte) : List Byte := if isHost a then host.take n else d.loadBytes a n
def spaceStore (d : Dev) (a : Nat) (bs : List Byte) : Dev := if isHost a then hostStore d (a % 2 ^ 63) bs else fabricStore d a bs

/-- A burst of a BEAVER channel's descriptor is written. -/
def burstStore (n : Fin 32) (d : Dev) (a : Nat) (bs : List Byte) : Dev :=
  spaceStore (if isHost a then issueBurst n (a % 2 ^ 63) bs.length d else d) a bs

/-- A write of a job's data, or a write-back: not performed where the owner of the region refuses it (R42). -/
def acceptedStore (data : Bool) (d : Dev) (a : Nat) (bs : List Byte) : Dev :=
  if spaceWritable d a bs.length then
    spaceStore (if isHost a then issue true data none (splitWrite d.host.mps bs.length (a % 2 ^ 63) bs.length) d else d) a bs
  else d

/-! ### The block format (R341 to R344) -/

def badgerMagic : Nat := 0x52444742
def up64 (n : Nat) : Nat := divUp n 64 * 64
def deltaWidth (xform : Nat) : Nat := match xform % 4 with | 0 => 0 | 1 => 1 | 2 => 2 | _ => 4
def skipBytes (xform : Nat) : Nat := 32 * (xform / 4 % 64)

/-- The delta of elements of w bytes, and its inverse; bytes after the last whole element stay. -/
def deltaOf (w : Nat) : Nat → Nat → List Byte → List Byte
  | 0, _, bs => bs
  | n + 1, prev, bs =>
    let x := leNat (bs.take w)
    leBytes w ((x + 2 ^ (8 * w) - prev) % 2 ^ (8 * w)) ++ deltaOf w n x (bs.drop w)

def undeltaOf (w : Nat) : Nat → Nat → List Byte → List Byte
  | 0, _, bs => bs
  | n + 1, prev, bs =>
    let x := (leNat (bs.take w) + prev) % 2 ^ (8 * w)
    leBytes w x ++ undeltaOf w n x (bs.drop w)

def transform (xform : Nat) (bs : List Byte) : List Byte :=
  let w := deltaWidth xform
  if w = 0 then bs else bs.take (skipBytes xform) ++ deltaOf w ((bs.length - skipBytes xform) / w) 0 (bs.drop (skipBytes xform))

def untransform (xform : Nat) (bs : List Byte) : List Byte :=
  let w := deltaWidth xform
  if w = 0 then bs else bs.take (skipBytes xform) ++ undeltaOf w ((bs.length - skipBytes xform) / w) 0 (bs.drop (skipBytes xform))

/-- A token (Table 14.2): its length in bytes produced, bytes that follow the control byte, distance of a match. -/
inductive Token
  | literals (len head : Nat)
  | copy (len dist follow : Nat)
  | stop
  | zeros (len : Nat)
  | illegal
deriving DecidableEq, Repr

/-- The token at the head of a stream; missing bytes read as 0 and are found by the length check. -/
def tokenAt (s : List Byte) : Token :=
  let t := (s.getD 0 0).toNat
  let u16 (i : Nat) : Nat := leNat ((s.drop i).take 2)
  if t ≤ 0x3E then .literals (t + 1) 0
  else if t = 0x3F then .literals (64 + u16 1) 2
  else if t ≤ 0x7F then .copy (bitsOf t 5 3 + 3) (t % 8 * 256 + (s.getD 1 0).toNat + 1) 1
  else if t ≤ 0xBE then .copy (t % 64 + 3) (u16 1 + 1) 2
  else if t = 0xBF then .copy (66 + u16 1) (u16 3 + 1) 4
  else if t = 0xC0 then .stop
  else if t = 0xC1 then .zeros (u16 1 + 1)
  else .illegal

/-- Copy a match byte by byte; the output is kept newest first. -/
def copyMatch : Nat → Nat → List Byte → List Byte
  | 0, _, out => out
  | n + 1, dist, out => copyMatch n dist (out.getD (dist - 1) 0 :: out)

/-- How decoding ended: a code of Table 14.5 with the offset of its token, or the output (newest first). -/
inductive Decoded
  | fail (code off : Nat)
  | done (out : List Byte)
deriving DecidableEq, Repr

/-- The token loop of R344: `pos` is the offset of the stream's rest `s`; `n` is the output's length so far. -/
def decodeTokens (origLen : Nat) : Nat → Nat → List Byte → Nat → List Byte → Decoded
  | 0, pos, _, _, _ => .fail 0x0F07 pos
  | fuel + 1, pos, s, n, out =>
    if s.isEmpty then .fail 0x0F07 pos
    else match tokenAt s with
      | .illegal => .fail 0x0F04 pos
      | .stop => if n < origLen then .fail 0x0F08 pos else if 1 < s.length then .fail 0x0F09 pos else .done out
      | .copy len dist follow =>
        if s.length < 1 + follow then .fail 0x0F07 pos
        else if n < dist then .fail 0x0F05 pos
        else if origLen < n + len then .fail 0x0F06 pos
        else decodeTokens origLen fuel (pos + 1 + follow) (s.drop (1 + follow)) (n + len) (copyMatch len dist out)
      | .zeros len =>
        if s.length < 3 then .fail 0x0F07 pos
        else if origLen < n + len then .fail 0x0F06 pos
        else decodeTokens origLen fuel (pos + 3) (s.drop 3) (n + len) (zeros len ++ out)
      | .literals len head =>
        if s.length < 1 + head then .fail 0x0F07 pos
        else if origLen < n + len then .fail 0x0F06 pos
        else if s.length < 1 + head + len then .fail 0x0F07 pos
        else decodeTokens origLen fuel (pos + 1 + head + len) (s.drop (1 + head + len)) (n + len)
          (((s.drop (1 + head)).take len).reverse ++ out)

/-- A field of a block header. -/
def hdrField (b : List Byte) (off n : Nat) : Nat := leNat ((b.drop off).take n)

/-- The header check of R344 on the bytes available at the source. -/
def badgerHdrOk (b : List Byte) : Bool :=
  let bl := hdrField b 6 1
  let ol := hdrField b 8 4
  let cl := hdrField b 12 4
  let xf := hdrField b 5 1
  decide (32 ≤ b.length) && hdrField b 0 4 == badgerMagic && hdrField b 4 1 == 1 && (bl == 12 || bl == 14 || bl == 16)
    && hdrField b 7 1 == 0 && hdrField b 0x14 4 == 0 && decide (1 ≤ ol) && decide (ol ≤ 2 ^ bl) && decide (1 ≤ cl)
    && decide (32 + cl ≤ b.length) && (deltaWidth xf != 0 || xf / 4 == 0) && decide (skipBytes xf ≤ ol)
    && hdrField b 0x1C 4 == (crc32 (b.take 0x1C)).toNat

/-- Decode a block (R344). -/
def decodeBlock (b : List Byte) : Decoded :=
  if !badgerHdrOk b then .fail 0x0F03 0xFFFFFFFF
  else
    let cl := hdrField b 12 4
    match decodeTokens (hdrField b 8 4) (cl + 1) 0 ((b.drop 32).take cl) 0 [] with
    | .fail c o => .fail c o
    | .done out =>
      let x := untransform (hdrField b 5 1) out.reverse
      if (crc32 x).toNat = hdrField b 0x18 4 then .done x else .fail 0x0F0A 0xFFFFFFFF

/-- The compressed block of an original (R341, R345), padded to 64 bytes. -/
def encodeBlock (j : BadgerJob) : List Byte :=
  let toks := Config.badgerTokens (transform j.xform j.bytes) j.level j.blkLog
  let hdr := withCrc (leBytes 4 badgerMagic ++ leBytes 1 1 ++ leBytes 1 j.xform ++ leBytes 1 j.blkLog ++ zeros 1
    ++ leBytes 4 j.bytes.length ++ leBytes 4 toks.length ++ leBytes 4 j.tag ++ zeros 4 ++ leBytes 4 (crc32 j.bytes).toNat)
  padTo (up64 (32 + toks.length)) (hdr ++ toks)

/-! ### Lanes, rings and the output queue -/

def evBadgerJob : Nat := 0x3C1
def evBadgerVerify : Nat := 0x3C2
def evBadgerRingIdle : Nat := 0x3C3
def badgerCode (c : Nat) (d : Dev) : Dev := d.put F.BADGER_STATUS_LAST_CODE c
def Dev.setBadger (d : Dev) (b : Badger) : Dev := { d with badger := b }
def rings : List (Fin 4) := [0, 1, 2, 3]
def ringSize (d : Dev) (r : Fin 4) : Nat := 2 ^ d.cfg (F.BADGER_r_CFG_SIZE_LOG r)
def ringNext (d : Dev) (r : Fin 4) : Nat := d.get (F.BADGER_r_NEXT_INDEX r)
def ringDesc (d : Dev) (r : Fin 4) (i : Nat) : Nat := d.cf64 (R.BADGER_r_BASE_LO r) + 64 * i

def laneJobs (d : Dev) : List BadgerJob := d.badger.lanes.toList.filterMap id

/-- The ring has jobs fetched and not yet written back. -/
def ringBusy (d : Dev) (r : Fin 4) : Bool :=
  (d.badger.jobs ++ laneJobs d ++ d.badger.results.map (·.job)).any (fun j => j.src.isRing r)

/-- Bytes the output queue holds, and with the RED blocks in lanes or waiting their turn. -/
def queueBytes (d : Dev) : Nat := d.badger.outQ.foldl (fun acc o => acc + o.bytes.length) 0
def redInside (j : BadgerJob) : Nat := match j.src with | .pipe _ _ => 2 ^ j.blkLog | .ring _ _ => 0
def queueReserved (d : Dev) : Nat :=
  queueBytes d + (laneJobs d ++ d.badger.results.map (·.job)).foldl (fun acc j => acc + redInside j) 0
def queueSize : Nat := 6 * 2 ^ 20

/-- A disabled BADGER that holds no block of a ring shows the ring OFF (R61, R357; DEDUCED, log 151). -/
def showRing (d : Dev) (r : Fin 4) : Dev :=
  if d.cfgB F.BADGER_CTRL_EN || ringBusy d r then d else d.put (F.BADGER_r_STATUS_STATE r) stOff

/-- STATUS, QLEVEL and the state of BADGER follow what it holds. -/
def showBadger (d : Dev) : Dev :=
  let busy := (List.range 8).foldl (fun acc i => acc + (d.badger.lanes.toList.getD i none).isSome.toNat * 2 ^ i) 0
  let d := d.put F.BADGER_STATUS_LANE_BUSY busy
  let d := d.putB F.BADGER_STATUS_QFULL (queueSize < queueReserved d + 65536)
  let d := d.put F.BADGER_QLEVEL_KIB (divUp (queueBytes d) 1024)
  let d := rings.foldl showRing d
  if d.unitState .badger = stAborting then d
  else d.setUnit .badger (if busy = 0 && d.badger.results.isEmpty then stOff else if d.cfgB F.BADGER_CTRL_EN then stOn else stDraining)

/-- The ring stops at a descriptor with OWN 0, or because its descriptor memory does not respond. -/
def ringStop (r : Fin 4) (idle : Bool) (d : Dev) : Dev :=
  (d.putB (F.BADGER_r_STATUS_IDLE r) idle).put (F.BADGER_r_STATUS_STATE r) stOff

/-- The drain of a ring or of BADGER: only blocks in lanes are finished (Table 2.8); descriptors fetched beyond them go back to
the ring. -/
def ringUnfetch (d : Dev) (r : Fin 4) : Dev :=
  let next := ringNext d r
  let pos (s : JobSrc) : Nat :=
    match s with
    | .ring q i => if q = r then (i + ringSize d r - next) % ringSize d r else 0
    | .pipe _ _ => 0
  match d.badger.jobs.find? (fun j => j.src.isRing r) with
  | none => d
  | some m =>
    let b := d.badger
    d.setBadger { b with jobs := b.jobs.filter (fun j => !j.src.isRing r)
                         results := b.results.filter (fun x => !(x.job.src.isRing r && pos m.src ≤ pos x.job.src))
                         fetch := b.fetch.set r.val ((next + pos m.src) % ringSize d r) }

/-- A ring whose descriptor memory fails stops and is OFF; its jobs end unreported, their descriptors keep OWN (R355). -/
def ringFails (r : Fin 4) (code : Nat) (d : Dev) : Dev :=
  let b := d.badger
  let d := d.setBadger { b with lanes := b.lanes.map (fun l => l.filter (fun j => !j.src.isRing r))
                                jobs := b.jobs.filter (fun j => !j.src.isRing r)
                                results := b.results.filter (fun x => !x.job.src.isRing r)
                                fetch := b.fetch.set r.val (ringNext d r) }
  showBadger (badgerCode code ((ringStop r false d).put (F.BADGER_r_STATUS_LAST_CODE r) code))

/-- Write a ring job's result back (R352): data, STATUS to ERR_OFFSET, then CTRL with OWN cleared. -/
def jobWriteback (x : BadgerResult) (r : Fin 4) (idx : Nat) (d : Dev) : Dev :=
  let a := ringDesc d r idx
  let j := x.job
  let ok := x.code = 0
  let d := if ok && j.op ≠ 2 then acceptedStore true d j.dst x.out else d
  let outLen := if ok && j.op ≠ 2 then x.out.length else 0
  let (crc, d) := match x.crc with | some c => (c, d) | none => (d.free.toNat % 2 ^ 32, d.nextFree)
  let (off, d) := match x.errOff with | some o => (o, d) | none => (d.free.toNat % 2 ^ 32, d.nextFree)
  let d := acceptedStore false d (a + 0x20) (leBytes 2 x.code)
  let d := acceptedStore false d (a + 0x24) (leBytes 4 outLen ++ leBytes 4 crc ++ leBytes 4 off)
  let d := acceptedStore false d a (leBytes 4 (j.ctrl % 2 ^ 31))
  let d := (d.put (F.BADGER_r_STATUS_LAST_CODE r) x.code).count (R.BADGER_r_DONE r)
  let d := d.put (F.BADGER_r_NEXT_INDEX r) ((idx + 1) % ringSize d r)
  let d := d.wr64 R.BADGER_OUT_LO ((d.rd64 R.BADGER_OUT_LO + outLen) % 2 ^ 64)
  if j.ev then d.post .c evBadgerJob r.val (x.code + idx * 2 ^ 32) else d

/-- A result whose turn has come: the next of its pipe, or the descriptor NEXT names. -/
def resultDue (d : Dev) (x : BadgerResult) : Bool :=
  match x.job.src with
  | .pipe p s => s == d.badger.handed.get p
  | .ring r i => i == ringNext d r

/-- Hand on every result whose turn has come, in order (R349, R352). -/
def badgerRelease : Nat → Dev → Dev
  | 0, d => d
  | fuel + 1, d =>
    match d.badger.results.find? (resultDue d) with
    | none => d
    | some x =>
      let b := { d.badger with results := d.badger.results.erase x }
      match x.job.src with
      | .pipe p _ =>
        let b := { b with handed := b.handed.set p.val (b.handed.get p + 1), outQ := b.outQ ++ [⟨p, x.job.chan, x.out⟩] }
        badgerRelease fuel ((d.setBadger b).wr64 R.BADGER_OUT_LO ((d.rd64 R.BADGER_OUT_LO + x.out.length) % 2 ^ 64))
      | .ring r i =>
        let d := d.setBadger b
        badgerRelease fuel (if hostBlocked d (ringDesc d r i) then ringFails r 0x0F0E d else jobWriteback x r i d)

/-- A result is there: the counters, and everything that can now be handed on. -/
def badgerResult (x : BadgerResult) (d : Dev) : Dev :=
  let d := d.setBadger { d.badger with results := d.badger.results ++ [x] }
  let d := if x.code = 0 then d else badgerCode x.code d
  let d := if x.code = 0x0F01 then d.count R.BADGER_NOGAIN_CNT else if x.code = 0x0F02 then d.count R.BADGER_VERIFY_CNT
    else if x.code = 0 then d else d.count R.BADGER_ERR_CNT
  showBadger (badgerRelease d.badger.results.length d)

/-- JOB_FETCH (R351, R352, R354): ring r's next descriptor; `host` is what host memory answers, fewer bytes when no response came
within 1 ms (R355). At a descriptor with OWN 0 the ring is idle once every job before it is written back, so NEXT names it. -/
def jobFetch (r : Fin 4) (host : List Byte) (d : Dev) : Dev :=
  let i := d.badger.fetch.get r
  let outstanding := (i + ringSize d r - ringNext d r) % ringSize d r
  if d.get (F.BADGER_r_STATUS_STATE r) ≠ stOn || !d.cfgB F.BADGER_CTRL_EN || d.unitState .badger = stAborting || d.flag (F.BADGER_r_STATUS_IDLE r)
      || (outstanding = 0 && ringBusy d r) then d
  else
    let a := ringDesc d r i
    if !spaceReadable d a 64 then ringFails r 0x0F0D d
    else if isHost a && (host.length < 64 || !mayIssue d) then ringFails r 0x0F0E d
    else
      let d := issueRead a 64 d
      let b := spaceLoad d a 64 host
      let ctrl := hdrField b 0 4
      if bitsOf ctrl 31 31 = 0 then
        if ringBusy d r then d else (ringStop r true d).post .c evBadgerRingIdle r.val (ringNext d r)
      else
        let op := ctrl % 4
        let len := hdrField b 0x10 4
        let xf := bitsOf ctrl 15 8
        let j : BadgerJob :=
          { src := .ring r i, op := op, level := bitsOf ctrl 17 16, xform := xf
            blkLog := if len ≤ 4096 then 12 else if len ≤ 16384 then 14 else 16, tag := hdrField b 4 4, from' := hdrField b 8 8
            len := len, dst := hdrField b 0x18 8, dstCap := hdrField b 0x14 4, ev := bitsOf ctrl 2 2 = 1, ctrl := ctrl }
        let bad := op = 3 || j.level = 3 || bitsOf ctrl 30 18 ≠ 0 || bitsOf ctrl 7 3 ≠ 0 || hdrField b 0x22 2 ≠ 0
          || (b.drop 0x30).any (fun x => x ≠ 0)
          || (op = 0 && (len = 0 || 65536 < len || (deltaWidth xf = 0 && xf / 4 ≠ 0) || len < skipBytes xf))
        let d := d.setBadger { d.badger with fetch := d.badger.fetch.set r.val ((i + 1) % ringSize d r) }
        if bad then badgerResult ⟨j, 0x0F0C, [], none, none⟩ d
        else d.setBadger { d.badger with jobs := d.badger.jobs ++ [j] }

/-- BADGER_DOORBELL (R352). -/
def badgerDoorbell (r : Fin 4) (d : Dev) : Dev :=
  if d.flag (F.BADGER_r_STATUS_IDLE r) && d.cfgB (F.BADGER_r_CFG_EN r) then
    (d.putB (F.BADGER_r_STATUS_IDLE r) false).put (F.BADGER_r_STATUS_STATE r) stOn
  else d

def badgerPipeLanes (d : Dev) (p : Fin 4) : Nat :=
  let l := d.cfg (F.RED_p_DST_LANES p)
  if l = 0 then 255 else l

/-- The block a RED pipe offers to a lane: its input is the whole RED block (R348). -/
def pipeOffer (d : Dev) (lane : Fin 8) (p : Fin 4) : Option BadgerJob :=
  match (d.red.get p).ready.head? with
  | none => none
  | some b =>
    let bl := if b.bytes.length ≤ 4096 then 12 else if b.bytes.length ≤ 16384 then 14 else 16
    if d.cfg (F.RED_p_DST_KIND p) = 1 && bitsOf (badgerPipeLanes d p) lane.val lane.val = 1
        && queueReserved d + 2 ^ bl ≤ queueSize then
      some { src := .pipe p (d.badger.taken.get p), level := d.cfg (F.BADGER_PIPE_LEVEL p), xform := d.cfg (F.BADGER_PIPE_XFORM p)
             blkLog := bl, tag := 0x80000000 + p.val, chan := d.cfg (F.RED_p_DST_CHAN p), len := b.bytes.length, bytes := b.bytes }
    else none

def ringOffer (d : Dev) (lane : Fin 8) (r : Fin 4) : Option BadgerJob :=
  if bitsOf (d.cfg (F.BADGER_r_CFG_LANES r)) lane.val lane.val = 1 then d.badger.jobs.find? (fun j => j.src.isRing r) else none

/-- The block a free lane takes (R356): one that waited 16 µs, live pipes, MEM pipes, rings. -/
def laneChoice (d : Dev) (lane : Fin 8) : Option BadgerJob :=
  let live : List (Fin 4) := pipes.filter (fun p => !pipeMem d p)
  let mem : List (Fin 4) := pipes.filter (pipeMem d)
  let all := (live ++ mem).filterMap (pipeOffer d lane) ++ rings.filterMap (ringOffer d lane)
  match d.badger.urgent.findSome? (fun s => all.find? (fun j => j.src == s)) with
  | some j => some j
  | none => all.head?

/-- A block of a RED pipe is handed on: the pipe's count (Table 8.11). -/
def redDelivered (p : Fin 4) (d : Dev) : Dev :=
  let r := d.red.get p
  let d := d.setRed p { r with ready := r.ready.drop 1 }
  d.wr64 (R.RED_p_BLOCKS_LO p) ((d.rd64 (R.RED_p_BLOCKS_LO p) + 1) % 2 ^ 64)

/-- What a lane fixes when it takes a block: MIN_SAVE (R357), and LEVEL 0 for a compression at THROTTLE (R501). -/
def laneFixes (d : Dev) (j : BadgerJob) : BadgerJob :=
  { j with minSave := d.cfg F.BADGER_CTRL_MIN_SAVE, level := if 2 ≤ d.get F.PWR_STATUS_LEVEL && j.op = 0 then 0 else j.level }

/-- A lane takes a job; a ring job's input is read now; a hole, or host memory that does not answer, ends it (R355). -/
def laneStart (lane : Fin 8) (j : BadgerJob) (host : List Byte) (d : Dev) : Dev :=
  let b := { d.badger with urgent := d.badger.urgent.filter (fun s => s ≠ j.src) }
  match j.src with
  | .pipe p s =>
    let d := redDelivered p (d.setBadger { b with lanes := b.lanes.set lane.val (some (laneFixes d j)), taken := b.taken.set p.val (s + 1) })
    showBadger (d.wr64 R.BADGER_IN_LO ((d.rd64 R.BADGER_IN_LO + j.len) % 2 ^ 64))
  | .ring _ _ =>
    let d := d.setBadger { b with jobs := b.jobs.erase j }
    if !spaceReadable d j.from' j.len then
      badgerResult ⟨j, 0x0F0D, [], none, none⟩ d
    else if isHost j.from' && (host.length < j.len || !mayIssue d) then badgerResult ⟨j, 0x0F0E, [], none, none⟩ d
    else
      let j := { laneFixes d j with bytes := spaceLoad d j.from' j.len host }
      let d := (issueRead j.from' j.len d).setBadger { d.badger with lanes := d.badger.lanes.set lane.val (some j) }
      showBadger (d.wr64 R.BADGER_IN_LO ((d.rd64 R.BADGER_IN_LO + j.len) % 2 ^ 64))

/-- LANE_TAKE (R350, R356). -/
def laneTake (lane : Fin 8) (host : List Byte) (d : Dev) : Dev :=
  if !d.cfgB F.BADGER_CTRL_EN || (d.badger.lanes.get lane).isSome || d.unitState .badger = stAborting then d
  else match laneChoice d lane with
    | some j => laneStart lane j host d
    | none => d

/-- COMPRESS (R346, R347, R353): the block, or the code for which the original is kept. `verified` is the lane's comparison. -/
def compressed (j : BadgerJob) (verified : Bool) : Nat × List Byte :=
  let blk := encodeBlock j
  if up64 j.bytes.length < blk.length + 64 * j.minSave then (0x0F01, [])
  else if !verified || decodeBlock blk ≠ .done j.bytes then (0x0F02, [])
  else (0, blk)

/-- EV_BADGER_VERIFY, at the first failure since VERIFY_FAIL was cleared (R347). -/
def sayVerify (lane : Fin 8) (j : BadgerJob) (d : Dev) : Dev :=
  if d.flag F.BADGER_STATUS_VERIFY_FAIL then d
  else
    let src := match j.src with | .pipe p _ => 0x80000000 + p.val | .ring r i => r.val * 0x10000 + i
    (d.putB F.BADGER_STATUS_VERIFY_FAIL true).post .c evBadgerVerify lane.val src

/-- The code of a ring job whose data is to be written: DST_CAP, then the destination (R353, R355). -/
def jobStores (d : Dev) (j : BadgerJob) (out : List Byte) : Nat :=
  if j.op = 2 then 0 else if j.dstCap < out.length then 0x0F0B else if !spaceWritable d j.dst out.length then 0x0F0D
  else if hostBlocked d j.dst then 0x0F0E else 0

/-- BADGER_BLOCK_DONE (R340, R346 to R349, R353). -/
def badgerBlockDone (lane : Fin 8) (verified : Bool) (d : Dev) : Dev :=
  match d.badger.lanes.get lane with
  | none => d
  | some j =>
    let d := d.setBadger { d.badger with lanes := d.badger.lanes.set lane.val none }
    match j.src with
    | .pipe _ _ =>
      let (c, blk) := compressed j verified
      let out := if c = 0 then blk else j.bytes
      let d := if c = 0x0F02 then sayVerify lane j d else d
      badgerResult ⟨j, c, out, none, none⟩ d
    | .ring _ _ =>
      if j.op = 0 then
        let (c, blk) := compressed j verified
        let d := if c = 0x0F02 then sayVerify lane j d else d
        let c := if c = 0 then jobStores d j blk else c
        badgerResult ⟨j, c, blk, some (crc32 j.bytes).toNat, none⟩ d
      else
        let crc := if badgerHdrOk j.bytes then some (hdrField j.bytes 0x18 4) else none
        match decodeBlock j.bytes with
        | .fail c o => badgerResult ⟨j, c, [], crc, some o⟩ d
        | .done x => badgerResult ⟨j, jobStores d j x, x, crc, none⟩ d

/-- JOB_TIMEOUT (R355): a request of the job in a lane had no response; `responds` says whether its descriptor memory does. -/
def jobTimeout (lane : Fin 8) (responds : Bool) (d : Dev) : Dev :=
  match d.badger.lanes.get lane with
  | some j =>
    match j.src with
    | .ring r _ =>
      let d := d.setBadger { d.badger with lanes := d.badger.lanes.set lane.val none }
      if responds then badgerResult ⟨j, 0x0F0E, [], none, none⟩ d else ringFails r 0x0F0E d
    | .pipe _ _ => d
  | none => d

/-- BADGER_ABORT (R357): every block in progress is discarded; results in the output queue stay. -/
def badgerAbort (d : Dev) : Dev :=
  if d.unitState .badger = stOff then d
  else
    let b := d.badger
    let piped := b.results.filter (fun x => match x.job.src with | .pipe _ _ => true | .ring _ _ => false)
    let outs := piped.filterMap (fun x => match x.job.src with
      | .pipe p _ => some (⟨p, x.job.chan, x.out⟩ : BadgerOut) | .ring _ _ => none)
    let d := d.setBadger { b with lanes := Vector.replicate 8 none, jobs := [], results := [], outQ := b.outQ ++ outs, handed := b.taken
                                  fetch := Vector.ofFn (fun r => ringNext d r), urgent := [] }
    (showBadger d).setUnit .badger stAborting

/-- COMMIT_APPLY of a ring, when it is idle or OFF (R357); a disable of a running ring waits for its jobs. -/
def badgerRingApply (r : Fin 4) (d : Dev) : Dev :=
  let st := d.get (F.BADGER_r_STATUS_STATE r)
  if st ≠ stOff && ringBusy d r then
    if partEn d (.badgerRing r) (R.BADGER_r_CFG r) 31 = some false then
      (ringUnfetch d r).put (F.BADGER_r_STATUS_STATE r) stDraining
    else d
  else if st = stOn && partEn d (.badgerRing r) (R.BADGER_r_CFG r) 31 ≠ some false then d
  else
    let before := (d.cf64 (R.BADGER_r_BASE_LO r), d.cfg (F.BADGER_r_CFG_SIZE_LOG r))
    let mine := d.cfgc.parts.filter (fun w => w.tgt == .badgerRing r)
    let d := applyUnit d (.badgerRing r)
    let rebased := mine.any (fun w => w.addr ≠ R.BADGER_r_CFG r) || before.2 ≠ d.cfg (F.BADGER_r_CFG_SIZE_LOG r)
    let d := if rebased then
        (d.put (F.BADGER_r_NEXT_INDEX r) 0).setBadger { d.badger with fetch := d.badger.fetch.set r.val 0 } else d
    if d.cfgB (F.BADGER_r_CFG_EN r) then
      if d.flag (F.BADGER_r_STATUS_IDLE r) || !d.cfgB F.BADGER_CTRL_EN then d else d.put (F.BADGER_r_STATUS_STATE r) stOn
    else (d.put (F.BADGER_r_STATUS_STATE r) stOff).putB (F.BADGER_r_STATUS_IDLE r) false

/-- EN of BADGER as it now stands: off, its rings keep only what lanes hold; on again, they go on at NEXT (R357). -/
def ringsFollow (d : Dev) : Dev :=
  if !d.cfgB F.BADGER_CTRL_EN then rings.foldl ringUnfetch d
  else rings.foldl (fun d (r : Fin 4) => if d.cfgB (F.BADGER_r_CFG_EN r) && !d.flag (F.BADGER_r_STATUS_IDLE r) then
    d.put (F.BADGER_r_STATUS_STATE r) stOn else d) d

/-- COMMIT_APPLY of CTRL and PIPE: from the next block (R357); a drain ends first (R63, R64). -/
def badgerApply (d : Dev) : Dev :=
  if d.unitState .badger = stDraining then d
  else
    let e := applyUnit d .badger
    showBadger (if e.cfgB F.BADGER_CTRL_EN = d.cfgB F.BADGER_CTRL_EN then e else ringsFollow e)

/-- A block that has waited 16 µs becomes urgent (R38, R356), × 0.1 µs. -/
def badgerPromote (s : JobSrc) (waited : Nat) (d : Dev) : Dev :=
  if waited < 160 || d.badger.urgent.contains s then d else d.setBadger { d.badger with urgent := d.badger.urgent ++ [s] }

end Sys2Proof.Machine
end

