-- ==== Sys2Proof/Machine/Beaver.lean ====
section
/-! DEFINITION. BEAVER, the DMA engine (chapter 16). -/
namespace Sys2Proof.Machine

def evDmaDesc : Nat := 0x441
def evDmaIdle : Nat := 0x442
def evDmaErr : Nat := 0x443
def evDmaStep : Nat := 0x444
def evDmaSchedDone : Nat := 0x445
def Dev.setBeaver (d : Dev) (b : Beaver) : Dev := { d with beaver := b }
def Dev.setChan (d : Dev) (n : Fin 32) (c : DmaChan) : Dev := { d with beaver := { d.beaver with chans := d.beaver.chans.set n.val c } }
def dmaChannels : List (Fin 32) := List.ofFn id
/-- A code of Table 16.4 from channel n. -/
def dmaCode (n : Fin 32) (c : Nat) (d : Dev) : Dev :=
  (d.put (F.BEAVER_CH_n_STATUS_LAST_CODE n) c).put F.BEAVER_STATUS_LAST_CODE c
def chanRun (d : Dev) (n : Fin 32) : Nat := d.get (F.BEAVER_CH_n_STATUS_RUN n)
def runIdle : Nat := 0
def runRunning : Nat := 1
def runHalted : Nat := 2
def runSched : Nat := 3
def chanEnabled (d : Dev) (n : Fin 32) : Bool := d.cfgB (F.BEAVER_CH_n_CFG_EN n) && d.cfgB F.BEAVER_CTRL_EN
def chanCur (d : Dev) (n : Fin 32) : Nat := d.rd64 (R.BEAVER_CH_n_CUR_LO n)
/-- The channel runs a step of the schedule: Class D (R382). -/
def chanClassD (d : Dev) (n : Fin 32) : Bool := d.flag (F.BEAVER_CH_n_STATUS_CLASS_D n)

/-- The engine's state follows its channels. -/
def showBeaver (d : Dev) : Dev :=
  let busy := dmaChannels.any (fun (n : Fin 32) => d.unitState (.beaver n) ≠ stOff)
  d.put F.BEAVER_STATUS_STATE (if !busy then stOff else if d.cfgB F.BEAVER_CTRL_EN then stOn else stDraining)

/-! ### The schedule's view of channels (R400) -/

def schedNames (d : Dev) (n : Fin 32) : Bool :=
  d.beaver.sched.serves && (List.range (schedNstep d d.beaver.sched.off)).any (fun j => schedChannel d d.beaver.sched.off j == n.val)

/-- A channel is no longer busy: idle, or back with the schedule it serves. -/
def chanRest (n : Fin 32) (d : Dev) : Dev :=
  let d := d.put (F.BEAVER_CH_n_STATUS_RUN n) (if schedNames d n then runSched else runIdle)
  showBeaver ((d.setUnit (.beaver n) stOff).putB (F.BEAVER_CH_n_STATUS_DB_PENDING n) false)

/-- The chain ends normally: idle, with CUR as it is (R389). -/
def chanIdle (n : Fin 32) (d : Dev) : Dev := (chanRest n d).post .c evDmaIdle n.val (chanCur d n)

/-- Step index of an error report (Table 16.3). -/
def errStep (d : Dev) (n : Fin 32) : Nat := if chanClassD d n then d.beaver.sched.step else 0xFFFF

/-- A channel halts with a code (R398); one that runs a schedule step stops the schedule (R402), with CUR at the step's descriptor. -/
def chanHalt (n : Fin 32) (code : Nat) (d : Dev) : Dev :=
  let inSched := chanClassD d n
  let d := (dmaCode n code d).post .c evDmaErr n.val (code + errStep d n * 2 ^ 32)
  let d := if inSched then d.wr64 (R.BEAVER_CH_n_CUR_LO n) (schedDescAddr d d.beaver.sched.off (d.beaver.chans.get n).schedIdx) else d
  let d := (d.setChan n {}).put (F.BEAVER_CH_n_STATUS_RUN n) runHalted
  let d := (d.setUnit (.beaver n) stOff).putB (F.BEAVER_CH_n_STATUS_CLASS_D n) false
  let d := d.putB (F.BEAVER_CH_n_STATUS_DB_PENDING n) false
  if inSched then
    let d := d.setBeaver { d.beaver with sched := { d.beaver.sched with on := false, running := false } }
    showBeaver ((d.put F.BEAVER_SCHED_STATUS_LAST_CODE code).put F.BEAVER_SCHED_STATUS_STATE stOff)
  else showBeaver d

/-! ### Handover, doorbell, clear (R388, R391, R398) -/

/-- Hand a chain over: the code, 0 when it is accepted. -/
def handoverCode (n : Fin 32) (head : Nat) (d : Dev) : Nat :=
  if !chanEnabled d n then 0x110C
  else if schedNames d n || chanRun d n = runSched then 0x110F
  else if chanRun d n = runRunning then 0x110D
  else if chanRun d n = runHalted then 0x110E
  else if head % 64 ≠ 0 then 0x1110
  else 0

/-- The channel starts running at CUR. -/
def chanStart (n : Fin 32) (d : Dev) : Dev :=
  showBeaver (((d.setChan n {}).put (F.BEAVER_CH_n_STATUS_RUN n) runRunning).setUnit (.beaver n) stOn)

/-- CHAIN_HANDOVER (R388). -/
def chainHandover (n : Fin 32) (head : Word64) (d : Dev) : Dev :=
  let d := d.wr64 (R.BEAVER_CH_n_HEAD_LO n) head.toNat
  let c := handoverCode n head.toNat d
  if c ≠ 0 then dmaCode n c d else chanStart n (d.wr64 (R.BEAVER_CH_n_CUR_LO n) head.toNat)

/-- BEAVER_DOORBELL (R391). -/
def beaverDoorbell (n : Fin 32) (d : Dev) : Dev :=
  let r := chanRun d n
  if r = runHalted then dmaCode n 0x110E d
  else if r = runRunning then d.putB (F.BEAVER_CH_n_STATUS_DB_PENDING n) true
  else if r = runIdle && chanEnabled d n then chanStart n d
  else d

/-- BEAVER_CLEAR (R398). -/
def beaverClear (n : Fin 32) (d : Dev) : Dev := if chanRun d n = runHalted then chanRest n d else d

/-! ### Descriptors (R385 to R387, R394, R395) -/

def parseDesc (b : List Byte) : DmaDesc :=
  { ctrl := hdrField b 0 4, tag := hdrField b 4 4, src := hdrField b 8 8, dst := hdrField b 0x10 8, next := hdrField b 0x18 8
    srcLine := hdrField b 0x20 4, srcCount := hdrField b 0x24 4, srcStride := hdrField b 0x28 4
    dstLine := hdrField b 0x2C 4, dstCount := hdrField b 0x30 4, dstStride := hdrField b 0x34 4 }

namespace DmaDesc
def own (x : DmaDesc) : Bool := bitsOf x.ctrl 31 31 = 1
def ev (x : DmaDesc) : Bool := bitsOf x.ctrl 30 30 = 1
def last (x : DmaDesc) : Bool := bitsOf x.ctrl 29 29 = 1
def xform (x : DmaDesc) : Nat := bitsOf x.ctrl 27 24
def lanes (x : DmaDesc) : Nat := 2 ^ (bitsOf x.ctrl 23 22 + 1)
def elem (x : DmaDesc) : Nat := 2 ^ bitsOf x.ctrl 21 20
def srcLen (x : DmaDesc) : Nat := x.srcLine * x.srcCount
def dstLen (x : DmaDesc) : Nat := x.dstLine * x.dstCount
def srcExtent (x : DmaDesc) : Nat := (x.srcCount - 1) * x.srcStride + x.srcLine
def dstExtent (x : DmaDesc) : Nat := (x.dstCount - 1) * x.dstStride + x.dstLine
def feed (x : DmaDesc) : Bool := x.xform = 4
/-- A COPY of one line onto one line, which moves (R394). -/
def moves (x : DmaDesc) : Bool := x.xform = 0 && x.srcCount = 1 && x.dstCount = 1
end DmaDesc

def reservedZero (b : List Byte) : Bool :=
  bitsOf (hdrField b 0 4) 28 28 = 0 && bitsOf (hdrField b 0 4) 19 0 = 0 && hdrField b 0x3A 2 = 0

/-- The checks of R387: DESC_INVALID, LENGTH_MISMATCH, or 0. -/
def descCode (x : DmaDesc) (zerosOk sched : Bool) : Nat :=
  let f := x.xform
  let reorders := f = 2 || f = 3
  if !zerosOk || 5 ≤ f || (reorders && bitsOf x.ctrl 21 20 = 3) || x.dstLine = 0 || x.dstCount = 0
      || (f ≠ 4 && (x.srcLine = 0 || x.srcCount = 0)) || 2 ^ 32 ≤ x.srcLen || 2 ^ 32 ≤ x.dstLen
      || (1 < x.dstCount && x.dstStride < x.dstLine) || (!sched && !x.last && x.next % 64 ≠ 0) || (sched && f = 4) then 0x1101
  else
    let ok : Bool := match f with
      | 0 => decide (x.dstLen = x.srcLen)
      | 1 => decide (x.src % 4 = 0) && decide (x.srcLine % 4 = 0) && decide (2 * x.dstLen = 3 * x.srcLen)
      | 2 => decide (x.srcCount = x.lanes) && decide (x.srcLine % x.elem = 0) && decide (x.dstLen = x.srcLen)
      | 3 => decide (x.dstCount = x.lanes) && decide (x.srcLen % (x.lanes * x.elem) = 0) && decide (x.dstLine = x.srcLen / x.lanes)
      | _ => decide (x.src = 0) && decide (x.srcLine = 0) && decide (x.srcCount = 0) && decide (x.srcStride = 0) && decide (64 ≤ x.dstLen)
    if ok then 0 else 0x1102

/-- Overlapping streams that are not a move (R394), and extents in holes or refused regions (R395). -/
def extentCode (d : Dev) (x : DmaDesc) : Nat :=
  let meet := isHost x.src == isHost x.dst && decide (x.src < x.dst + x.dstExtent) && decide (x.dst < x.src + x.srcExtent)
  if !x.feed && meet && !x.moves then 0x1103
  else if (!x.feed && !spaceReadable d x.src x.srcExtent) || !spaceWritable d x.dst x.dstExtent then 0x1104
  else 0

/-! ### Fetching (R389, R392) -/

/-- The descriptor that a channel fetched is refused or begins. -/
def chanTakes (n : Fin 32) (x : DmaDesc) (code : Nat) (d : Dev) : Dev :=
  let c := d.beaver.chans.get n
  d.setChan n { c with desc := some x, wb := if code = 0 then none else some code, done := 0, block := none, blockPipe := none }

/-- A descriptor of the schedule, moved by the run's advances (R402). -/
def schedDescOf (d : Dev) (c : DmaChan) : DmaDesc × Bool :=
  let s := d.beaver.sched
  let b := d.loadBytes (schedDescAddr d s.off c.schedIdx) 64
  let x := parseDesc b
  ({ x with src := (x.src + s.run * (x.next % 2 ^ 32)) % 2 ^ 64, dst := (x.dst + s.run * (x.next / 2 ^ 32)) % 2 ^ 64 }, reservedZero b)

/-- A disable that waits for the descriptor in progress, once there is none (R403). -/
def chanCfg (n : Fin 32) (d : Dev) : Dev := if hasPart d (.beaverCh n) then applyUnit d (.beaverCh n) else d

/-- A run of a schedule step is cut short by a disable: the channel is free again (R403). -/
def runStops (n : Fin 32) (d : Dev) : Dev :=
  let d := d.setBeaver { d.beaver with sched := { d.beaver.sched with running := false } }
  chanRest n ((d.setChan n {}).putB (F.BEAVER_CH_n_STATUS_CLASS_D n) false)

/-- DESC_FETCH (R385, R387, R389, R392, R402): `host` is what host memory answers, fewer than 64 bytes when the read completed with
an error status (R395). -/
def descFetch (n : Fin 32) (host : List Byte) (d : Dev) : Dev :=
  let d := if (d.beaver.chans.get n).desc.isNone && d.unitState (.beaver n) ≠ stOff then chanCfg n d else d
  let c := d.beaver.chans.get n
  if c.desc.isSome || c.runDone || d.unitState (.beaver n) = stOff || d.unitState (.beaver n) = stAborting then d
  else if chanClassD d n then
    if d.unitState (.beaver n) = stDraining then runStops n d else
    let (x, z) := schedDescOf d c
    let code := descCode x z true
    let code := if code = 0 then extentCode d x else code
    if code ≠ 0 then chanHalt n code d else chanTakes n x 0 d
  else if d.unitState (.beaver n) = stDraining then chanIdle n d
  else
    let a := chanCur d n
    let h := d.cfg (F.BEAVER_CH_n_CFG_HOP_LIMIT n)
    if h ≠ 0 && h ≤ c.hops then chanHalt n 0x1109 d
    else if !spaceReadable d a 64 then chanHalt n 0x1104 d
    else if hostBlocked d a then d
    else if isHost a && host.length < 64 then chanHalt n 0x1105 d
    else
      let b := spaceLoad d a 64 host
      let d := issueRead a 64 d
      let x := parseDesc b
      if !x.own then
        if d.flag (F.BEAVER_CH_n_STATUS_DB_PENDING n) then d.putB (F.BEAVER_CH_n_STATUS_DB_PENDING n) false else chanIdle n d
      else
        let code := descCode x (reservedZero b) false
        chanTakes n x (if code = 0 then extentCode d x else code) d

/-! ### Moving bytes (R386, R393, R394) -/

/-- Where byte p of the destination stream lies, and byte q of the source stream. -/
def dstAddr (x : DmaDesc) (p : Nat) : Nat := x.dst + p / x.dstLine * x.dstStride + p % x.dstLine
def srcAddr (x : DmaDesc) (q : Nat) : Nat := x.src + q / x.srcLine * x.srcStride + q % x.srcLine

/-- The source byte that destination byte p takes, but for UNPACK. -/
def srcIndex (x : DmaDesc) (p : Nat) : Nat :=
  match x.xform with
  | 2 => let e := p / x.elem; e % x.lanes * x.srcLine + e / x.lanes * x.elem + p % x.elem
  | 3 => let e := p % x.dstLine / x.elem; (e * x.lanes + p / x.dstLine) * x.elem + p % x.elem
  | _ => p

/-- The positions of the next burst: [from, to) of the destination stream. A move onto higher addresses descends. -/
def burstSpan (x : DmaDesc) (len done : Nat) : Nat × Nat :=
  if x.moves && x.src < x.dst then
    let e := len - done
    let top := x.dst + e
    (e - min e (top - (top - 1) / 64 * 64), e)
  else
    let a := dstAddr x done
    let room := min (64 - a % 64) (x.dstLine - done % x.dstLine)
    (done, min len (done + room))

/-- A word of the source (UNPACK), from memory or from what host memory answered for the burst. -/
def srcWord (d : Dev) (x : DmaDesc) (w0 w : Nat) (host : List Byte) : Nat :=
  if isHost x.src then leNat ((host.drop (4 * (w - w0))).take 4) else d.load (srcAddr x (4 * w)) 4

/-- Valid codes of a P10 word: its marker's top bit ends the transfer (R95, R386). -/
def wordCodes (w : Nat) : Nat := match w / 2 ^ 30 % 4 with | 2 => 2 | 3 => 1 | _ => 3

/-- What a burst carries: its bytes, and whether the source ended in it. -/
def burstBytes (d : Dev) (x : DmaDesc) (c : DmaChan) (a b : Nat) (host : List Byte) : List Byte × Bool :=
  match c.block with
  | some bs => ((bs.drop a).take (b - a), false)
  | none =>
    if x.xform = 1 then
      let w0 := a / 6
      -- the first word of the burst that ends the source
      let words := (List.range (divUp b 6 - w0)).map (· + w0)
      let stop := words.find? (fun w => wordCodes (srcWord d x w0 w host) < 3)
      let limit := match stop with | some w => 6 * w + 2 * wordCodes (srcWord d x w0 w host) | none => b
      let e := min b limit
      let byteAt (p : Nat) : Byte :=
        let code := srcWord d x w0 (p / 6) host / 2 ^ (10 * (p / 2 % 3))
        BitVec.ofNat 8 (encodeSigned 16 (signedOf 10 code * 64) / 256 ^ (p % 2))
      ((List.range (e - a)).map (fun i => byteAt (a + i)), decide (limit ≤ b))
    else
      ((List.range (b - a)).map (fun i =>
        if isHost x.src then host.getD i 0 else d.byte (srcAddr x (srcIndex x (a + i)))), false)

/-- The burst reads a DRAM burst that every read reports as uncorrectable (R380). -/
def readsPoison (d : Dev) (x : DmaDesc) (a b : Nat) : Bool :=
  !x.feed && !isHost x.src && (List.range (b - a)).any fun i =>
    let s := srcAddr x (if x.xform = 1 then (a + i) / 6 * 4 else srcIndex x (a + i))
    decide (s < d.ddr.span) && (d.ddr.chans.get (dramMap d s).1).poison.contains (s / 64 * 64)

/-- The 64-byte bursts of host memory that a burst's source bytes lie in are read (R393). -/
def sourceReads (x : DmaDesc) (a b : Nat) (d : Dev) : Dev :=
  if x.feed || !isHost x.src then d
  else
    let at' (p : Nat) : Nat := srcAddr x (if x.xform = 1 then p / 6 * 4 else srcIndex x p) / 64 * 64
    ((List.range (b - a)).map (fun i => at' (a + i))).eraseDups.foldl (fun d s => issueRead s 64 d) d

/-- The descriptor's data is moved, or it ends with a code: a schedule's goes on without a write-back (R390, R402). -/
def descEnds (n : Fin 32) (code : Nat) (d : Dev) : Dev :=
  let d := closeRequest d
  let c := d.beaver.chans.get n
  if chanClassD d n then
    if code ≠ 0 then chanHalt n code d
    else
      let last := c.desc.any (fun x => x.last)
      let d := d.setChan n { c with desc := none, schedIdx := c.schedIdx + 1, runDone := last }
      d.count (R.BEAVER_CH_n_DONE_CNT n)
  else d.setChan n { c with wb := some code }

/-- Move one burst of channel n. -/
def chanBurst (n : Fin 32) (host : List Byte) (err : DmaErr) (d : Dev) : Dev :=
  let c := d.beaver.chans.get n
  match c.desc with
  | none => d
  | some x =>
    let len := match c.block with | some b => b.length | none => x.dstLen
    let (a, b) := burstSpan x len c.done
    let err := if readsPoison d x a b then .poisoned else err
    match err with
    | .poisoned => descEnds n 0x1108 d
    | .hostErr => if isHost x.src && !x.feed then descEnds n 0x1105 d else d
    | .none =>
      let (bs, ended) := burstBytes d x c a b host
      let at' := dstAddr x a
      if !spaceWritable d at' bs.length || (!x.feed && !spaceReadable d (srcAddr x (if x.xform = 1 then a / 6 * 4 else srcIndex x a)) 1)
      then descEnds n 0x1104 d
      else
        let d := burstStore n (sourceReads x a b d) at' bs
        let d := d.wr64 R.BEAVER_BYTES_LO ((d.rd64 R.BEAVER_BYTES_LO + bs.length) % 2 ^ 64)
        let d := d.setChan n { c with done := c.done + bs.length }
        if ended || len ≤ c.done + bs.length then descEnds n 0 d
        else if c.aborting then descEnds n 0x110A d else d

/-- A channel has a burst to move: a descriptor in progress, not waiting for a block or a write-back. -/
def chanMoving (d : Dev) (n : Fin 32) : Bool :=
  let c := d.beaver.chans.get n
  c.wb.isNone && (match c.desc with | some x => !x.feed || c.block.isSome | none => false)

/-- A channel's bursts wait because the module may issue no request into host space (R407). -/
def waitsForHost (d : Dev) (n : Fin 32) : Bool :=
  match (d.beaver.chans.get n).desc with
  | some x => hostBlocked d x.dst || (!x.feed && hostBlocked d x.src)
  | none => false

/-- A channel's descriptor reads capture SRAM. -/
def readsCapture (d : Dev) (n : Fin 32) : Bool :=
  match (d.beaver.chans.get n).desc with
  | some x => !x.feed && !isHost x.src && regionOf d x.src == some .capture
  | none => false

/-- The channel that wins (R383) among those with a burst ready: urgent, Class D, priority, round robin. A
Class H read of capture SRAM waits for CAP's body bursts there (R22). -/
def dmaWinner (d : Dev) (ready : BitVec 32) : Option (Fin 32) :=
  let cands : List (Fin 32) := dmaChannels.filter (fun (n : Fin 32) => ready.getLsbD n.val && chanMoving d n && !waitsForHost d n)
  match d.beaver.urgent.find? (fun n => cands.contains n) with
  | some n => some n
  | none =>
    let cands := cands.filter (fun n => chanClassD d n || !(readsCapture d n && captureBusy d))
    let classD := cands.filter (chanClassD d)
    let pool := if classD.isEmpty then cands else classD
    let top := (pool.map (fun (n : Fin 32) => d.cfg (F.BEAVER_CH_n_CFG_PRIO n))).foldl max 0
    let best := pool.filter (fun (n : Fin 32) => d.cfg (F.BEAVER_CH_n_CFG_PRIO n) == top)
    match best.find? (fun (n : Fin 32) => d.beaver.last < n) with
    | some n => some n
    | none => best.head?

/-- BEAVER_BURST (R383, R393, R395, R397): `ready` names the channels whose burst is ready; `host` is what host memory answered
the winner's reads: a burst's source bytes in destination order, for UNPACK its source words. -/
def beaverBurst (ready : BitVec 32) (host : List Byte) (err : DmaErr) (d : Dev) : Dev :=
  match dmaWinner d ready with
  | none => d
  | some n =>
    let d := d.setBeaver { d.beaver with last := n, urgent := d.beaver.urgent.filter (fun m => m ≠ n) }
    chanBurst n host err d

/-- A waiting burst becomes urgent (R383), × 0.1 µs. -/
def beaverPromote (n : Fin 32) (waited : Nat) (d : Dev) : Dev :=
  if waited < d.cfg F.BEAVER_ARB_AGE || !chanMoving d n || d.beaver.urgent.contains n then d
  else d.setBeaver { d.beaver with urgent := d.beaver.urgent ++ [n] }

/-! ### Write-back (R389, R390, R398) -/

/-- A delivered block leaves its source (R399). -/
def blockTaken (src : Option (Option (Fin 4))) (d : Dev) (n : Fin 32) : Dev :=
  match src with
  | none => d
  | some (some p) => redDelivered p d
  | some none =>
    match d.badger.outQ.find? (fun o => o.chan == n.val) with
    | some o => showBadger (d.setBadger { d.badger with outQ := d.badger.outQ.erase o })
    | none => d

/-- DESC_WRITEBACK (R390): STATUS and DONE_LEN, then CTRL with OWN cleared, then the channel goes on, goes idle or halts. A refused
write-back (R42) halts with HOLE; under ABORT the channel halts after it (R403). -/
def descWriteback (n : Fin 32) (d : Dev) : Dev :=
  let c := d.beaver.chans.get n
  match c.desc, c.wb with
  | some x, some code =>
    let a := chanCur d n
    if hostBlocked d a then d else
    let refused := !spaceWritable d a 64
    let d := acceptedStore false d (a + 0x38) (leBytes 2 code ++ zeros 2 ++ leBytes 4 c.done)
    let d := acceptedStore false d a (leBytes 4 (setBits x.ctrl 31 31 0))
    let d := if x.ev && !refused then d.post .c evDmaDesc n.val x.tag else d
    if code ≠ 0 then chanHalt n code d
    else if refused then chanHalt n 0x1104 d
    else
      let aborted := d.unitState (.beaver n) = stAborting
      let d := (blockTaken c.blockPipe d n).count (R.BEAVER_CH_n_DONE_CNT n)
      let d := d.setChan n { hops := c.hops + 1 }
      let d := d.wr64 (R.BEAVER_CH_n_CUR_LO n) x.next
      if aborted then chanHalt n 0x110A d
      else if x.last then chanIdle n d
      else if d.unitState (.beaver n) = stDraining then chanIdle n (chanCfg n d)
      else d
  | _, _ => d

/-- DMA_TIMEOUT (R396): a request had no response in 2^TO_LOG µs: 0 a descriptor read, 1 a write-back, 2 data; `responds` says
whether the descriptor memory does. -/
def dmaTimeout (n : Fin 32) (kind : Fin 3) (waited : Nat) (responds : Bool) (d : Dev) : Dev :=
  let c := d.beaver.chans.get n
  if waited < 2 ^ d.cfg (F.BEAVER_CH_n_CFG_TO_LOG n) || d.unitState (.beaver n) = stOff then d
  else match kind.val with
    | 0 => if c.desc.isNone then chanHalt n 0x1106 d else d
    | 1 => if c.wb.isSome then chanHalt n 0x1106 d else d
    | _ =>
      if !chanMoving d n then d
      else if chanClassD d n || !responds then chanHalt n 0x1107 d
      else d.setChan n { c with wb := some 0x1107 }

/-! ### Blocks from RED and BADGER (R399) -/

/-- What waits for a channel: BADGER's results for it first in its queue, then blocks of pipes with KIND 0. -/
def offeredBlock (d : Dev) (n : Fin 32) : Option (Option (Fin 4) × List Byte) :=
  match d.badger.outQ.find? (fun o => o.chan == n.val) with
  | some o => some (none, o.bytes)
  | none => pipes.findSome? fun (p : Fin 4) =>
      if d.cfg (F.RED_p_DST_KIND p) = 0 && d.cfg (F.RED_p_DST_CHAN p) = n.val then
        (d.red.get p).ready.head?.map (fun b => (some p, b.bytes)) else none

/-- The channel holds a FEED descriptor that waits for a block. -/
def wantsBlock (d : Dev) (n : Fin 32) : Bool :=
  let c := d.beaver.chans.get n
  c.wb.isNone && c.block.isNone && (match c.desc with | some x => x.feed | none => false)

/-- Place a block into the channel's FEED descriptor; one that is too short ends with FEED_SHORT and the block waits on. -/
def placeBlock (n : Fin 32) (src : Option (Fin 4)) (bs : List Byte) (d : Dev) : Dev :=
  let c := d.beaver.chans.get n
  match c.desc with
  | none => d
  | some x => if x.dstLen < bs.length then descEnds n 0x110B d else d.setChan n { c with block := some bs, blockPipe := some src }

/-- BLOCK_OFFER (R399). -/
def blockOffer (n : Fin 32) (d : Dev) : Dev :=
  if !wantsBlock d n then d
  else match offeredBlock d n with
    | some (src, bs) => placeBlock n src bs d
    | none => d

/-- RED_BLOCK_HANDOFF (R204): to the BEAVER channel, to the BADGER lanes, or counted and discarded. -/
def redBlockHandoff (p : Fin 4) (d : Dev) : Dev :=
  match (d.red.get p).ready.head? with
  | none => d
  | some b =>
    match d.cfg (F.RED_p_DST_KIND p) with
    | 0 =>
      let n : Fin 32 := Fin.ofNat 32 (d.cfg (F.RED_p_DST_CHAN p))
      if wantsBlock d n && !(d.badger.outQ.any (fun o => o.chan == n.val)) then placeBlock n (some p) b.bytes d else d
    | 1 =>
      let lanes : List (Fin 8) := [0, 1, 2, 3, 4, 5, 6, 7]
      match lanes.findSome? (fun l => if (d.badger.lanes.get l).isNone then (pipeOffer d l p).map (fun j => (l, j)) else none) with
      | some (l, j) => if d.cfgB F.BADGER_CTRL_EN && d.unitState .badger ≠ stAborting then laneStart l j [] d else d
      | none => d
    | _ => redDelivered p d

/-! ### Disable and ABORT (R403) -/

/-- BEAVER_CH_ABORT. -/
def beaverChAbort (n : Fin 32) (d : Dev) : Dev :=
  let c := d.beaver.chans.get n
  if d.unitState (.beaver n) = stOff then d
  else
    let d := d.setUnit (.beaver n) stAborting
    match c.desc with
    | none => chanHalt n 0x110A d
    | some x =>
      if c.wb.isSome then d
      else if (x.feed && c.block.isNone) || c.done = 0 then descEnds n 0x110A d
      else d.setChan n { c with aborting := true }

/-- BEAVER_ABORT. -/
def beaverAbort (d : Dev) : Dev := dmaChannels.foldl (fun d (n : Fin 32) => beaverChAbort n d) d

/-- COMMIT_APPLY of a channel's CFG: at the next fetch, at once with no descriptor in progress; a disable drains. -/
def beaverChApply (n : Fin 32) (d : Dev) : Dev :=
  if d.unitState (.beaver n) = stOff then showBeaver (applyUnit d (.beaverCh n))
  else if partEn d (.beaverCh n) (R.BEAVER_CH_n_CFG n) 31 = some false then
    let d := if d.unitState (.beaver n) = stOn then d.setUnit (.beaver n) stDraining else d
    if (d.beaver.chans.get n).desc.isNone && !chanClassD d n then chanIdle n (applyUnit d (.beaverCh n)) else d
  else if (d.beaver.chans.get n).desc.isNone then applyUnit d (.beaverCh n)
  else d

/-- COMMIT_APPLY of CTRL and ARB; EN at 0 drains every channel and stops the schedule. -/
def beaverApply (d : Dev) : Dev :=
  let d := applyUnit d .beaver
  if d.cfgB F.BEAVER_CTRL_EN then showBeaver d
  else
    let d := d.setBeaver { d.beaver with sched := { d.beaver.sched with on := false } }
    let d := d.put F.BEAVER_SCHED_STATUS_STATE stOff
    showBeaver (dmaChannels.foldl (fun d (n : Fin 32) =>
      if d.unitState (.beaver n) ≠ stOn then d
      else if (d.beaver.chans.get n).desc.isNone then if chanClassD d n then runStops n d else chanIdle n d
      else d.setUnit (.beaver n) stDraining) d)

/-! ### Schedules (R400 to R402) -/

/-- The current step begins a run on its channel. -/
def schedRun (d : Dev) : Dev :=
  let s := d.beaver.sched
  let n : Fin 32 := Fin.ofNat 32 (schedChannel d s.off s.step)
  let d := d.setBeaver { d.beaver with sched := { s with running := true } }
  let d := (d.setChan n { schedIdx := schedDesc d s.off s.step }).putB (F.BEAVER_CH_n_STATUS_CLASS_D n) true
  showBeaver ((d.put (F.BEAVER_CH_n_STATUS_RUN n) runSched).setUnit (.beaver n) stOn)

/-- The channel of the current step can take a run. -/
def schedFree (d : Dev) : Bool :=
  let n : Fin 32 := Fin.ofNat 32 (schedChannel d d.beaver.sched.off d.beaver.sched.step)
  chanRun d n = runSched && d.unitState (.beaver n) = stOff

/-- Step 0 becomes current (R401). -/
def schedFirst (d : Dev) : Dev :=
  let d := d.setBeaver { d.beaver with sched := { d.beaver.sched with step := 0, run := 0, running := false, waiting := 0, done := false, rearm := false } }
  ((d.put F.BEAVER_SCHED_STATUS_STEP 0).putB F.BEAVER_SCHED_STATUS_DONE false).put F.BEAVER_SCHED_STATUS_STATE stOn

/-- The schedule at an arm (R400 to R402). -/
def schedArm (d : Dev) : Dev :=
  if d.beaver.sched.running then d.setBeaver { d.beaver with sched := { d.beaver.sched with rearm := true } }
  else
    let d := takeLatched d .beaverSched
    let off := d.cfg F.BEAVER_SCHED_OFFSET * 64
    let want := d.cfgB F.BEAVER_SCHED_EN
    let ok := want && schedOk d off
    let on := ok && d.cfgB F.BEAVER_CTRL_EN
    let d := d.setBeaver { d.beaver with sched :=
      { d.beaver.sched with on := on, serves := ok, off := off, arm := (d.rd R.CAP_ACQ).toNat } }
    let d := if want && !ok then d.put F.BEAVER_SCHED_STATUS_LAST_CODE 0x1111 else d
    let d := dmaChannels.foldl (fun d (n : Fin 32) =>
      let r := chanRun d n
      if schedNames d n && (r = runIdle || r = runHalted) then d.put (F.BEAVER_CH_n_STATUS_RUN n) runSched
      else if !schedNames d n && r = runSched then d.put (F.BEAVER_CH_n_STATUS_RUN n) runIdle else d) d
    if on then
      let d := (schedFirst d).put F.BEAVER_SCHED_STATUS_LAST_CODE 0
      if schedEvent d off 0 = 0 && schedFree d then schedRun d else d
    else d.put F.BEAVER_SCHED_STATUS_STATE stOff

/-- FOX_ARM_ARM: FOX arms, and the schedule follows the arm (R141, R402). -/
def armFull (d : Dev) : Dev :=
  let e := arm d
  if e.armed then schedArm e else e

/-! ### Requests of FOX_ARM (R141, R522) -/

def foxAct : FoxAct → Dev → Dev
  | .arm => armFull
  | .disarm => disarm
  | .force => force

/-- A request reaches FOX: it acts at the next boundary between spans of vectors (R522; DEDUCED, log 150). -/
def foxRequest (a : FoxAct) (d : Dev) : Dev :=
  if midSpan d || !d.fox.due.isEmpty then d.setFox { d.fox with due := d.fox.due ++ [a] } else foxAct a d

/-- At a boundary between spans the requests that waited for it act, oldest first. -/
def settleDue (d : Dev) : Dev :=
  if midSpan d then d else d.fox.due.foldl (fun d a => foxAct a d) (d.setFox { d.fox with due := [] })

/-- FOX_ARM written (R140, R141): DISARM, then ARM, then FORCE; with ARM the request waits for the first armed vector. -/
def foxArmWrite (v : Nat) (d : Dev) : Dev :=
  let d := if bitsOf v 1 1 = 1 then foxRequest .disarm d else d
  let d := if bitsOf v 0 0 = 1 then foxRequest .arm d else d
  if bitsOf v 2 2 = 1 then foxRequest .force d else d

/-- SCHED_STEP_LAUNCH (R401): an occurrence of event `num`; with 0, a step that waits for none starts, or one whose occurrences were
counted while its channel was taken. -/
def schedStepLaunch (num : BitVec 12) (d : Dev) : Dev :=
  let s := d.beaver.sched
  let free := !s.running && schedFree d
  if !s.on || s.done then d
  else if num = 0 then
    if !free then d
    else if schedEvent d s.off s.step = 0 then schedRun d
    else if s.waiting = 0 then d
    else schedRun (d.setBeaver { d.beaver with sched := { s with waiting := s.waiting - 1 } })
  else if schedEvent d s.off s.step ≠ num.toNat then d
  else if free && s.waiting = 0 then schedRun d
  else if 65535 ≤ s.waiting then
    let d := d.setBeaver { d.beaver with sched := { s with on := false } }
    (d.put F.BEAVER_SCHED_STATUS_LAST_CODE 0x1112).put F.BEAVER_SCHED_STATUS_STATE stOff
  else d.setBeaver { d.beaver with sched := { s with waiting := s.waiting + 1 } }

/-- After the last run of a step: EV_DMA_STEP, then the next step or the schedule's end (R402). -/
def schedStepEnds (runs : Nat) (d : Dev) : Dev :=
  let s := d.beaver.sched
  let d := d.post .c evDmaStep 0 (s.step + runs * 2 ^ 32)
  if bitsOf (schedFlags d s.off s.step) 0 0 = 1 then
    let d := d.setBeaver { d.beaver with sched := { s with running := false, waiting := 0, done := true } }
    ((d.putB F.BEAVER_SCHED_STATUS_DONE true).put F.BEAVER_SCHED_STATUS_STATE stOff).post .c evDmaSchedDone 0 s.arm
  else
    let d := d.setBeaver { d.beaver with sched := { s with running := false, waiting := 0, step := s.step + 1, run := 0 } }
    let d := d.put F.BEAVER_SCHED_STATUS_STEP (s.step + 1)
    if schedEvent d s.off (s.step + 1) = 0 && schedFree d then schedRun d else d

/-- SCHED_RUN_DONE (R402). -/
def schedRunDone (n : Fin 32) (d : Dev) : Dev :=
  let s := d.beaver.sched
  if !(d.beaver.chans.get n).runDone then d
  else
    let d := (d.setChan n {}).putB (F.BEAVER_CH_n_STATUS_CLASS_D n) false
    let d := chanRest n (chanCfg n d)
    if s.rearm then schedArm (d.setBeaver { d.beaver with sched := { s with running := false, rearm := false } })
    else if !s.on then d.setBeaver { d.beaver with sched := { s with running := false } }
    else
      let runs := s.run + 1
      if schedRepeat d s.off s.step ≤ runs then schedStepEnds runs d
      else
        let d := d.setBeaver { d.beaver with sched := { s with run := runs, running := false, waiting := s.waiting - 1 } }
        if schedEvent d s.off s.step = 0 || s.waiting ≠ 0 then schedRun d else d

end Sys2Proof.Machine
end

