-- ==== Sys2Proof/Machine/Ifl.lean ====
section
/-! DEFINITION. IFL, the Ifeong Link: rings, time transfer, scheduled triggers and messages (chapter 18). -/
namespace Sys2Proof.Machine

def evRingPort : Nat := 0x4C1
def evRingFold : Nat := 0x4C2
def evRingHeal : Nat := 0x4C3
def evRingQuarantine : Nat := 0x4C4
def evRingTime : Nat := 0x4C5
def evRingGm : Nat := 0x4C6
def evRingAsym : Nat := 0x4C7
def evRingRx : Nat := 0x4C8
def evRingOvf : Nat := 0x4C9
def evRingSent : Nat := 0x4CA

def Dev.setIfl (d : Dev) (i : Ifl) : Dev := { d with ifl := i }
def iflCode (c : Nat) (d : Dev) : Dev := d.put F.IFL_STATUS_LAST_CODE c
def pairCode (x : Fin 3) (c : Nat) (d : Dev) : Dev := iflCode c (d.put (F.IFL_x_STATUS_LAST_CODE x) c)

/-! ### Ports -/

/-- A port by its code of R442: 2 × pair + side, W 0 and E 1. -/
abbrev Port := Fin 6

namespace Port
def pair (p : Port) : Fin 3 := ⟨p.val / 2, by omega⟩
def east (p : Port) : Bool := p.val % 2 == 1
/-- The other port of the pair. -/
def other (p : Port) : Port := ⟨if p.val % 2 = 0 then p.val + 1 else p.val - 1, by split <;> omega⟩
def of (x : Fin 3) (east : Bool) : Port := ⟨2 * x.val + east.toNat, by cases east <;> simp <;> omega⟩
def up (p : Port) : Field := if p.east then F.IFL_x_STATUS_E_UP p.pair else F.IFL_x_STATUS_W_UP p.pair
def reason (p : Port) : Field := if p.east then F.IFL_x_STATUS_QREASON_E p.pair else F.IFL_x_STATUS_QREASON_W p.pair
def nbr (p : Port) : Nat := if p.east then R.IFL_x_NBR_E p.pair else R.IFL_x_NBR_W p.pair
def asym (p : Port) : Nat := if p.east then R.IFL_x_ASYM_E p.pair else R.IFL_x_ASYM_W p.pair
end Port

def Dev.port (d : Dev) (p : Port) : IflPort := d.ifl.ports.get p
def Dev.setPort (d : Dev) (p : Port) (v : IflPort) : Dev := d.setIfl { d.ifl with ports := d.ifl.ports.set p.val v }
def transmit (p : Port) (t : RingTx) (d : Dev) : Dev := d.setPort p { d.port p with out := t :: (d.port p).out }

def allPorts : List Port := [0, 1, 2, 3, 4, 5]
def allPairs : List (Fin 3) := [0, 1, 2]

/-- The pair's bypass is open (R427). -/
def joined (d : Dev) (x : Fin 3) : Bool := !d.flag (F.IFL_x_STATUS_BYPASS x)
def portUp (d : Dev) (p : Port) : Bool := d.flag (Port.up p)
def quarantined (d : Dev) (p : Port) : Bool := d.get (Port.reason p) != 0

/-- A second in ticks. -/
def tickSecond : Nat := 312500000

/-- The port's hop is being measured: from here, or by the neighbour for the 100 µs for which this module opens its termination
(R445). -/
def hopMeasured (d : Dev) (p : Port) : Bool :=
  (d.port p).measuring || (match (d.port p).honoured with | some t => decide (nowTick d < t + 31250) | none => false)

/-- The port carries traffic: up, not held after a fold (R440), its hop not being measured (R445). -/
def carries (d : Dev) (p : Port) : Bool := joined d p.pair && portUp d p && !(d.port p).hold && !hopMeasured d p

/-- The port is in use, though its hop may carry nothing while it is measured (R440, R445). -/
def inUse (d : Dev) (p : Port) : Bool := joined d p.pair && portUp d p && !(d.port p).hold

def pairRing (d : Dev) (x : Fin 3) : Nat := d.get (F.IFL_x_STATUS_RING x)
def rOff : Nat := 0
def rForming : Nat := 1
def rClosed : Nat := 2
def rFolded : Nat := 3

/-! ### Addresses and scopes (R424, R433) -/

def ownAddr (d : Dev) : Nat := d.cfg F.IFL_ADDR_ADDR

/-- The index of an address in its ring of a level, and the fields that the members of that ring share (Table 18.1). -/
def ringIndex (x : Fin 3) (a : Nat) : Nat := a / 64 ^ x.val % 64
def ringUpper (x : Fin 3) (a : Nat) : Nat := a / 64 ^ (x.val + 1)

/-- R433. -/
def inScope (a dest mask : Nat) : Bool := a &&& mask == dest &&& mask

def singleScope (mask : Nat) : Bool := mask == 0x3FFFF

/-- The ring of level x that address `a` belongs to may hold, at index k or below it, a module of the scope. -/
def mayHold (x : Fin 3) (a dest mask k : Nat) : Bool :=
  let m := mask / 64 ^ x.val
  (ringUpper x a * 64 + k) &&& m == (dest / 64 ^ x.val) &&& m

def scopeMeetsRing (x : Fin 3) (a dest mask : Nat) : Bool := ringUpper x a &&& (mask / 64 ^ (x.val + 1)) == (dest / 64 ^ (x.val + 1)) &&& (mask / 64 ^ (x.val + 1))

/-- The scope holds modules outside the ring of level x and what lies below it. -/
def reachesOut (x : Fin 3) (a dest mask : Nat) : Bool :=
  !(mask / 64 ^ (x.val + 1) == 0x3FFFF / 64 ^ (x.val + 1) && dest / 64 ^ (x.val + 1) == ringUpper x a)

/-! ### Routing (R434, R435) -/


/-- A copy to send: its port, FLAGS and HOPS. -/
structure Copy where
  port : Port
  flags : Nat
  hops : Nat
deriving DecidableEq, Repr

/-- The ring is folded, or one of its hops here is being measured and is routed around (R435, R445). -/
def routesFolded (d : Dev) (x : Fin 3) : Bool :=
  pairRing d x == rFolded || hopMeasured d (Port.of x false) || hopMeasured d (Port.of x true)

/-- The place of an index along a folded ring, counted eastward from its east fold end. -/
def foldPlace (d : Dev) (x : Fin 3) (k : Nat) : Nat :=
  let own := ringIndex x (ownAddr d)
  let fe := if hopMeasured d (Port.of x false) then own else d.get (F.IFL_x_FOLD_FOLD_E x)
  let fw := if hopMeasured d (Port.of x true) then own else d.get (F.IFL_x_FOLD_FOLD_W x)
  let start := if fe < 64 then fe else if fw < 64 then fw + 1 else 0
  (k + 64 - start % 64) % 64

/-- The copies that the origin of a traversal of ring x sends (R434 step 2, R435); `upward` when the frame originated in the
ring or came up through it. -/
def originate (d : Dev) (x : Fin 3) (h : RouteHead) : List Copy :=
  let own := ownAddr d
  let i := ringIndex x own
  let folded := routesFolded d x
  let upward := ringUpper x h.src == ringUpper x own
  let wants (k : Nat) : Bool := k ≠ i && (mayHold x own h.dest h.mask k || (upward && k = 0 && reachesOut x own h.dest h.mask))
  let eastIn (k : Nat) : Bool := let j := (k + 64 - i) % 64; 1 ≤ j && j ≤ (if folded then 63 else 31)
  let westIn (k : Nat) : Bool := let j := (i + 64 - k) % 64; 1 ≤ j && j ≤ (if folded then 63 else 32)
  let ks := (List.range 64).filter wants
  let single := singleScope h.mask && folded
  let toEast (k : Nat) : Bool := decide (foldPlace d x i < foldPlace d x k)
  let e := ks.any (fun k => eastIn k && (!single || toEast k))
  let w := ks.any (fun k => westIn k && (!single || !toEast k))
  let cs : List Copy := (if e then [⟨Port.of x true, 0, 1⟩] else []) ++ (if w then [⟨Port.of x false, 2, 1⟩] else [])
  cs.filter (fun c => carries d c.port)

/-- A gateway passes a copy up (R434 step 4), and what came up goes on up. -/
def passUp (d : Dev) (x : Fin 3) (h : RouteHead) : List Copy :=
  let own := ownAddr d
  let upFrom (y z : Fin 3) : Bool := joined d y && joined d z && ringUpper y h.src == ringUpper y own && reachesOut y own h.dest h.mask
  match x with
  | 0 => if upFrom 0 1 then originate d 1 h ++ (if upFrom 1 2 then originate d 2 h else []) else []
  | 1 => if upFrom 1 2 then originate d 2 h else []
  | 2 => []

/-- A gateway passes a copy down into the rings below (R434 step 5), never where it came from. -/
def passDown (d : Dev) (x : Fin 3) (h : RouteHead) : List Copy :=
  let own := ownAddr d
  ((allPairs.filter (fun y => decide (y.val < x.val) && joined d y && ringUpper y h.src != ringUpper y own
      && scopeMeetsRing y own h.dest h.mask)).map (fun y => originate d y h)).flatten

/-- What a member does with a copy that a port received: whether it delivers it, the copies it sends, whether it drops one
that R435 counts. A single-module copy ends at its module. -/
def routeCopy (d : Dev) (p : Port) (h : RouteHead) : Bool × List Copy × Bool :=
  let x := p.pair
  let own := ownAddr d
  let k := ringIndex x own
  let i := if ringUpper x h.src = ringUpper x own then ringIndex x h.src else 0
  let folded := routesFolded d x
  let inRange := h.looped || (if h.west then let j := (i + 64 - k) % 64; 1 ≤ j && j ≤ (if folded then 63 else 32)
    else let j := (k + 64 - i) % 64; 1 ≤ j && j ≤ (if folded then 63 else 31))
  if !inRange then (false, [], false)
  else
    let mine := inScope own h.dest h.mask
    let levels := passUp d x h ++ passDown d x h
    if singleScope h.mask && mine then (true, [], false)
    else if carries d p.other then (mine, ⟨p.other, h.flags, min 255 (h.hops + 1)⟩ :: levels, false)
    else if singleScope h.mask && !h.looped && carries d p then (mine, ⟨p, h.flags + 1, min 255 (h.hops + 1)⟩ :: levels, false)
    else (mine, levels, true)

/-- What the sender does: whether it delivers to itself, and the copies it sends. -/
def routeSend (d : Dev) (h : RouteHead) : Bool × List Copy :=
  (inScope (ownAddr d) h.dest h.mask, originate d 0 h ++ passUp d 0 h)

/-! ### Ring state (R436 to R440) -/

def fresh (q : IflPort) : Bool := match q.annAge with | some a => decide (a ≤ 2) | none => false

/-- R438. -/
def ringReview (x : Fin 3) (d : Dev) : Dev :=
  if !joined d x then d.put (F.IFL_x_STATUS_RING x) rOff
  else
    let w := d.port (Port.of x false)
    let e := d.port (Port.of x true)
    let wu := portUp d (Port.of x false) && !w.hold
    let eu := portUp d (Port.of x true) && !e.hold
    let lone (p q : IflPort) : Bool := fresh p && decide (2 < q.silent)
    d.put (F.IFL_x_STATUS_RING x)
      (if wu && eu then (if fresh w && fresh e then rClosed else if lone w e || lone e w then rFolded else rForming)
       else if wu != eu then rFolded else rForming)

def iflFoldArg (d : Dev) (x : Fin 3) : Nat := (d.rd (R.IFL_x_FOLD x)).toNat % 2 ^ 16
def sayFold (x : Fin 3) (d : Dev) : Dev := d.post .t evRingFold x.val (iflFoldArg d x)

/-- RING_OK, shown by STAG too; a change posts EV_RING_TIME (R446). -/
def setRingOk (ok : Bool) (d : Dev) : Dev :=
  if d.flag F.IFL_STATUS_RING_OK = ok then d
  else
    let d := (d.putB F.IFL_STATUS_RING_OK ok).putB F.STAG_STATUS_RING_OK ok
    d.post .t evRingTime (d.get F.IFL_STATUS_TIME_PORT) ok.toNat

/-- The time port by its code, none for 7. -/
def timePort (d : Dev) : Option Port := allPorts.find? (fun p => p.val == d.get F.IFL_STATUS_TIME_PORT)

/-- A change of time port: RING_OK clears and the exchanges begin anew (R446). -/
def setTimePort (p : Option Port) (d : Dev) : Dev :=
  if timePort d = p then d
  else
    let d := setRingOk false (d.put F.IFL_STATUS_TIME_PORT (match p with | some p => p.val | none => 7))
    d.setIfl { d.ifl with better := 0, req := none, accepted := false, run := 0, rejects := 0, missed := 0, offsets := [], delays := [] }

/-- The pair whose port is the time port: the highest joined at which the module is not ring master (R442). -/
def timePair (d : Dev) : Option (Fin 3) := [2, 1, 0].find? (fun x => joined d x && !d.flag (F.IFL_x_STATUS_MASTER x))

/-- The port of a pair to take time from: the lower HOPS, W on a tie. -/
def bestPort (d : Dev) (x : Fin 3) : Option Port :=
  let w := Port.of x false
  let e := Port.of x true
  match inUse d w && fresh (d.port w), inUse d e && fresh (d.port e) with
  | true, true => some (if (d.port e).annHops < (d.port w).annHops then e else w)
  | true, false => some w
  | false, true => some e
  | false, false => none

/-- Leave a time port that no longer serves, and take one where there is none (R442). -/
def reviewTimePort (d : Dev) : Dev :=
  let keep := match timePort d with
    | some p => timePair d = some p.pair && inUse d p && fresh (d.port p) && d.ifl.better < 4
    | none => false
  if keep then d else setTimePort ((timePair d).bind (bestPort d)) d

/-- IFL_GM, and EV_RING_GM when the grand master's address or class changes (R446). -/
def setGm (addr cls hops : Nat) (valid : Bool) (d : Dev) : Dev :=
  let v := valid.toNat * 2 ^ 31 + cls % 4 * 2 ^ 28 + min hops 255 * 2 ^ 20 + addr % 2 ^ 18
  let old := (d.rd R.IFL_GM).toNat
  let d := d.wr R.IFL_GM (BitVec.ofNat 32 v)
  if setBits old 27 20 0 = setBits v 27 20 0 then d else d.post .t evRingGm 0 v

/-- A flit's GM field: address, class, valid. -/
def takeGm (gm hops : Nat) (d : Dev) : Dev := setGm gm (bitsOf gm 19 18) hops (bitsOf gm 31 31 = 1) d

/-- The class of this module as a grand master: REFIN, holdover or free run. -/
def ownClass (d : Dev) : Nat := if d.get F.STAG_STATUS_TB_SRC = 1 then 2 else if d.stag.everLocked then 1 else 0

/-- Without a time port, a module that has joined is the grand master of those below it. -/
def reviewGm (d : Dev) : Dev :=
  if (timePort d).isNone && allPairs.any (joined d) then setGm (ownAddr d) (ownClass d) 0 (d.cfgB F.IFL_ADDR_VALID) d else d

/-- The GM field that this module's TIME flits carry. -/
def gmField (d : Dev) : Nat :=
  d.get F.IFL_GM_ADDR + d.get F.IFL_GM_CLASS * 2 ^ 18 + d.get F.IFL_GM_VALID * 2 ^ 31

/-- A port is down (R436): it is left at once, and an edge of a CLOSED ring waits to become a fold end. -/
def portFalls (p : Port) (d : Dev) : Dev :=
  if !portUp d p then d
  else
    let closed := pairRing d p.pair = rClosed
    let d := (d.putB (Port.up p) false).post .t evRingPort p.val 0
    let q := d.port p
    let d := d.setPort p { q with hold := false, foldDue := closed, annAge := none, measuring := false, acked := false, prevA := none }
    let d := ringReview p.pair d
    let d := if timePort d = some p then reviewTimePort d else d
    reviewGm d

/-- PORT_DOWN (R436). -/
def portDown (p : Port) (d : Dev) : Dev := portFalls p d

/-- Quarantine a port (R457). -/
def quarantine (p : Port) (reason : Nat) (d : Dev) : Dev :=
  if !joined d p.pair || quarantined d p then d
  else portFalls p ((d.put (Port.reason p) reason).post .t evRingQuarantine p.val reason)

/-- RELEASE_W and RELEASE_E (R457): the port may come up anew. -/
def release (p : Port) (d : Dev) : Dev :=
  if !quarantined d p then d
  else
    let q := d.port p
    (d.put (Port.reason p) 0).setPort p { q with ratedAt := [], authAt := [], badAt := [], rated := false, creditAt := nowTick d }

/-- The ticks of a list that lie within the last second. -/
def lastSecond (d : Dev) (l : List Nat) : List Nat := l.filter (fun t => decide (nowTick d < t + tickSecond))

/-- Something exceeded a rate limit on a port (Table 18.5, RATE). -/
def rateLimited (p : Port) (d : Dev) : Dev :=
  let d := d.count (R.IFL_x_RATE_CNT p.pair)
  d.setPort p { d.port p with rated := true }

/-- An authentication or replay failure on a port (R454, R455). -/
def authFailed (p : Port) (d : Dev) : Dev :=
  let d := d.count (R.IFL_x_AUTH_CNT p.pair)
  let l := nowTick d :: lastSecond d (d.port p).authAt
  let d := d.setPort p { d.port p with authAt := l }
  if 16 ≤ l.length then quarantine p 1 d else d

/-- Flits were discarded for headers or CRC (R429, R430). -/
def flitsBad (p : Port) (n : Nat) (d : Dev) : Dev :=
  if n = 0 then d
  else
    let d := d.count (R.IFL_x_ERR_CNT p.pair) n
    let l := (nowTick d, n) :: (d.port p).badAt.filter (fun e => decide (nowTick d < e.1 + tickSecond))
    let d := d.setPort p { d.port p with badAt := l }
    if 1024 ≤ (l.map (·.2)).sum then quarantine p 4 d else d

/-- TOKEN_REFILL (R449): 16 ticks have passed; 1 ms of limited intervals within 1 s quarantines. -/
def tokenRefill (p : Port) (d : Dev) : Dev :=
  let q := d.port p
  let l := (if q.rated then [nowTick d] else []) ++ lastSecond d q.ratedAt
  let d := d.setPort p { q with tokens := min 64 (q.tokens + 1), rated := false, ratedAt := l }
  if 312500 ≤ 16 * l.length then quarantine p 3 d else d

/-! ### Asymmetry (R445) -/

/-- A measurement begins, with ASYM_SRC at 0. -/
def asymStart (p : Port) (d : Dev) : Dev :=
  if joined d p.pair && portUp d p && !d.cfgB (F.IFL_x_CFG_ASYM_SRC p.pair) && !(d.port p).measuring then
    transmit p .reflectReq (d.setPort p { d.port p with measuring := true, acked := false })
  else d

/-- ASYM_CAL_W and ASYM_CAL_E. -/
def asymCal (x : Fin 3) (east : Bool) (d : Dev) : Dev := asymStart (Port.of x east) d

/-- REFLECT_REQ_RX: honoured at most once per second. -/
def reflectReqRx (p : Port) (d : Dev) : Dev :=
  if !joined d p.pair || quarantined d p then d
  else
    let ok := match (d.port p).honoured with | some t => decide (t + tickSecond ≤ nowTick d) | none => true
    if ok then transmit p .reflectAck (d.setPort p { d.port p with honoured := some (nowTick d) }) else rateLimited p d

def asymEnd (p : Port) (d : Dev) : Dev := d.setPort p { d.port p with measuring := false, acked := false }

/-- ASYM_DONE: the port's own TXDLY was measured, × 2^−16 tick; A is stored or discarded. -/
def asymDone (p : Port) (txDly : Int) (d : Dev) : Dev :=
  let q := d.port p
  if !(q.measuring && q.acked) then d
  else
    let a := txDly - q.nbrTxDly
    let far := match q.prevA with | some b => decide (65536 < (a - b).natAbs * 200) | none => false
    let d := asymEnd p (d.setPort p { q with txDly := txDly })
    if 65536 < a.natAbs * 25 || far then pairCode p.pair 0x130A d
    else if d.cfgB (F.IFL_x_CFG_ASYM_SRC p.pair) then d
    else
      let w := BitVec.ofInt 32 a
      let d := ((d.wr (Port.asym p) w).efw (Port.asym p) w).setPort p { d.port p with prevA := some a }
      d.post .t evRingAsym p.val (encodeSigned 64 a)

/-- ASYM_TIMEOUT: no REFLECT_ACK within 1 ms. -/
def asymTimeout (p : Port) (d : Dev) : Dev :=
  if (d.port p).measuring && !(d.port p).acked then pairCode p.pair 0x130A (asymEnd p d) else d

/-! ### Ports coming up (R436, R440) -/

/-- What the neighbour's LINK flits say of its level and address: the quarantine reason, or 0 (Table 18.5). -/
def neighbourFault (d : Dev) (p : Port) : Nat :=
  let n := (d.rd (Port.nbr p)).toNat
  let a := n % 2 ^ 18
  let own := ownAddr d
  let x := p.pair
  match (d.port p).level with
  | none => 0
  | some l =>
    if l ≠ x.val || bitsOf n 31 31 = 0 || ringUpper x a ≠ ringUpper x own then 5
    else if ringIndex x a = ringIndex x own then 6
    else if !p.east && portUp d p && ringIndex x own < ringIndex x a && d.ifl.heard.get x && d.ifl.since.get x ≤ 2 then 7
    else 0

/-- PORT_UP (R436): the conditions held for 100 µs. On a FOLDED pair the port stays out of use for HEAL_HOLD (R440). -/
def portComesUp (p : Port) (d : Dev) : Dev :=
  if !joined d p.pair || portUp d p || quarantined d p || (d.port p).level.isNone then d
  else if neighbourFault d p ≠ 0 then quarantine p (neighbourFault d p) d
  else
    let folded := pairRing d p.pair = rFolded
    let d := (d.putB (Port.up p) true).post .t evRingPort p.val 1
    let d := d.setPort p { d.port p with hold := folded, foldDue := false, annAge := none, silent := 0, prevA := none
                                         sent := 0, freed := 0, returned := 0, creditAt := nowTick d }
    ringReview p.pair (asymStart p d)

/-- FOLD_END (R439): within 5 µs. -/
def foldEnd (p : Port) (d : Dev) : Dev :=
  if !(joined d p.pair && (d.port p).foldDue) then d
  else
    let k := ringIndex p.pair (ownAddr d)
    let d := d.setPort p { d.port p with foldDue := false }
    let d := if p.east then d.put (F.IFL_x_FOLD_FOLD_W p.pair) k else d.put (F.IFL_x_FOLD_FOLD_E p.pair) k
    sayFold p.pair (ringReview p.pair d)

/-- HEAL (R440): HEAL_HOLD has ended. -/
def healPort (p : Port) (d : Dev) : Dev :=
  if !(joined d p.pair && portUp d p && (d.port p).hold) then d
  else
    let d := d.setPort p { d.port p with hold := false, annAge := some 0, silent := 0 }
    let d := d.wr (R.IFL_x_FOLD p.pair) 0xFFFF#32
    let d := d.put (F.IFL_x_STATUS_RING p.pair) (if carries d p.other then rClosed else rFolded)
    d.post .t evRingHeal p.pair.val 0

/-- A fold index as a neighbour tells it: FOLD_W comes from the east, FOLD_E from the west (R439). -/
def learnFold (p : Port) (w e : BitVec 8) (d : Dev) : Dev :=
  let x := p.pair
  let own := ringIndex x (ownAddr d)
  let f := if p.east then F.IFL_x_FOLD_FOLD_W x else F.IFL_x_FOLD_FOLD_E x
  let v := if p.east then w.toNat else e.toNat
  let old := d.get f
  if old = v || old = own || (d.port p).hold then d
  else
    let d := d.put f v
    if v ≠ 255 then sayFold x d
    else if iflFoldArg d x = 0xFFFF then (ringReview x d).post .t evRingHeal x.val 0
    else d

/-- LINK_RX (R425, R430, R436, R439, R453). -/
def linkRx (p : Port) (f : LinkFlit) (bad : Nat) (d : Dev) : Dev :=
  if !joined d p.pair then d
  else
    let d := flitsBad p bad d
    let d := d.wr (Port.nbr p) (BitVec.ofNat 32 (f.valid.toNat * 2 ^ 31 + f.addr % 2 ^ 18))
    let q := d.port p
    let q := { q with level := some f.level, acked := q.acked || (q.measuring && f.ack), nbrTxDly := f.txDly }
    let q := if q.returned = f.credits then q else { q with returned := f.credits, creditAt := nowTick d }
    let d := d.setPort p q
    if neighbourFault d p ≠ 0 then quarantine p (neighbourFault d p) d
    else if quarantined d p || !portUp d p then d
    else learnFold p f.foldW f.foldE d

/-! ### ANNOUNCE and the exchange period (R437, R442) -/

/-- The lowest index heard within two periods on a pair. -/
def lowestHeard (d : Dev) (x : Fin 3) : Option Nat :=
  let l := ([d.port (Port.of x false), d.port (Port.of x true)].filter fresh).map (·.annIdx)
  l.min?

/-- ANNOUNCE_RX: the announcing member's index, HOPS, GM, GM_HOPS, STEPS and SLEW. -/
def announceRx (p : Port) (idx hops : Fin 256) (gm : Word) (gmHops : Fin 256) (steps : BitVec 16) (slew : Bool) (d : Dev) : Dev :=
  let x := p.pair
  let k := ringIndex x (ownAddr d)
  let low := match lowestHeard d x with | some l => decide (idx.val ≤ l) | none => true
  if !carries d p || k < idx.val || !low then d
  else
    let d := d.setPort p { d.port p with annAge := some 0, silent := 0, annIdx := idx.val, annHops := hops.val }
    if idx.val = k then ringReview x d
    else
      let d := d.setIfl { d.ifl with since := d.ifl.since.set x.val 0, heard := d.ifl.heard.set x.val true }
      let d := d.putB (F.IFL_x_STATUS_MASTER x) false
      let d := if carries d p.other then
          transmit p.other (.announce idx.val (min 255 (hops.val + 1)) gm.toNat gmHops.val steps.toNat slew) d else d
      let d := ringReview x d
      if timePort d = some p then takeGm gm.toNat (gmHops.val + hops.val) d else d

/-- The pair's part of an exchange period: who is ring master, and its own ANNOUNCE. -/
def announcePair (x : Fin 3) (d : Dev) : Dev :=
  if !joined d x then d
  else
    let since := d.ifl.since.get x + 1
    let d := d.setIfl { d.ifl with since := d.ifl.since.set x.val since }
    let heard := d.ifl.heard.get x && since ≤ 2
    let d := d.putB (F.IFL_x_STATUS_MASTER x) (!heard && 2 ≤ since)
    if heard then d
    else [Port.of x false, Port.of x true].foldl (fun d p =>
      if carries d p then transmit p (.announce (ringIndex x (ownAddr d)) 1 (gmField d) (d.get F.IFL_GM_HOPS) d.ifl.steps.toNat
        (d.flag F.STAG_STATUS_SLEWING)) d else d) d

/-- Count the periods since a port's latest ANNOUNCE, and begin its allowance of REQs anew. -/
def agePort (d : Dev) (p : Port) : Dev :=
  let q := d.port p
  d.setPort p { q with annAge := q.annAge.map (· + 1), silent := q.silent + 1, answered := 0 }

/-- The exchange of the last period ended without a result (R446). -/
def exchangeOver (d : Dev) : Dev :=
  if d.ifl.req.isNone && !d.ifl.accepted then d
  else if d.ifl.accepted then d.setIfl { d.ifl with missed := 0 }
  else
    let d := d.setIfl { d.ifl with missed := d.ifl.missed + 1, run := 0 }
    if 4 ≤ d.ifl.missed then setRingOk false d else d

/-- The other port of the pair has been lower by two hops for one more period (R442). -/
def countBetter (d : Dev) : Dev :=
  match timePort d with
  | none => d
  | some p =>
    let q := d.port p.other
    let b := inUse d p.other && fresh q && q.annHops + 2 ≤ (d.port p).annHops
    d.setIfl { d.ifl with better := if b then d.ifl.better + 1 else 0 }

/-- EXCHANGE_PERIOD (R437, R442, R443): 2^TT_LOG ticks have passed; `t1` is the departure TS of the REQ. -/
def exchangePeriod (t1 : TS) (d : Dev) : Dev :=
  let d := allPorts.foldl agePort (exchangeOver d)
  let d := allPairs.foldl (fun d x => ringReview x (announcePair x d)) d
  let d := reviewGm (reviewTimePort (countBetter d))
  match timePort d with
  | none => d
  | some p =>
    if !carries d p then d.setIfl { d.ifl with req := none, accepted := false }
    else
      let seq := d.ifl.reqSeq + 1
      let d := d.setIfl { d.ifl with reqSeq := seq, req := some t1, accepted := false }
      transmit p (.req seq.toNat t1) d

/-! ### Time transfer (R443, R444) -/

/-- TIME_REQ_RX: a REQ with its SEQ and t1 arrived at `t2`; the RESP leaves at `t3`. -/
def timeReqRx (p : Port) (seq : BitVec 16) (t1 t2 t3 : TS) (d : Dev) : Dev :=
  if !carries d p then d
  else if 4 ≤ (d.port p).answered then rateLimited p d
  else
    let d := d.setPort p { d.port p with answered := (d.port p).answered + 1 }
    transmit p (.resp seq.toNat t1 t2 t3 (gmField d) (d.get F.IFL_GM_HOPS) d.ifl.steps.toNat (d.flag F.STAG_STATUS_SLEWING)) d

/-- An exchange is rejected and counted; sixteen in a row quarantine the port. -/
def exchangeReject (p : Port) (d : Dev) : Dev :=
  let d := d.count (R.IFL_x_TT_REJ p.pair)
  let d := d.setIfl { d.ifl with req := none, run := 0, rejects := d.ifl.rejects + 1, missed := d.ifl.missed + 1 }
  let d := if 4 ≤ d.ifl.missed then setRingOk false d else d
  if 16 ≤ d.ifl.rejects then quarantine p 2 (d.setIfl { d.ifl with rejects := 0 }) else d

/-- Offset and delay of an exchange, × 2^−32 tick; the halves are rounded down. -/
def exchangeOf (t1 t2 t3 t4 : TS) (a : Int) : Int × Int :=
  let x : Int := (t4.toNat : Int) - t3.toNat
  let y : Int := (t2.toNat : Int) - t1.toNat
  ((x - y + a * 2 ^ 16) / 2, (y + x) / 2)

/-- More than OUTLIER × 10 ps, for a difference × 2^−32 tick. -/
def isOutlier (d : Dev) (x : Int) : Bool := decide (d.cfg F.IFL_TT_OUTLIER * 2 ^ 32 < x.natAbs * 320)

/-- TIME_RESP_RX: SEQ, t2 and t3 of the RESP, its arrival t4, and its GM, GM_HOPS, STEPS and SLEW. -/
def timeRespRx (p : Port) (seq : BitVec 16) (t2 t3 t4 : TS) (gm : Word) (gmHops : Fin 256) (steps : BitVec 16) (slew : Bool)
    (d : Dev) : Dev :=
  if !carries d p || timePort d ≠ some p then d
  else
    match d.ifl.req with
    | none => d
    | some t1 =>
      let i := d.ifl
      let stepped := steps ≠ i.steps
      let quiet := if stepped then 16 else i.quiet
      let d := d.setIfl { i with steps := steps, quiet := quiet - 1, present := i.present || stepped }
      let d := takeGm gm.toNat (gmHops.val + 1) d
      let (o, dl) := exchangeOf t1 t2 t3 t4 (signedOf 32 (d.ef (Port.asym p)).toNat)
      let bw := d.cfg F.IFL_TT_BW
      let tested := 16 ≤ i.offsets.length && !slew && quiet = 0
      let outlier := isOutlier d (o - Config.iflFilter bw i.offsets) || isOutlier d (dl - Config.iflFilter bw i.delays)
      if seq ≠ i.reqSeq || 256 * 2 ^ 32 < (t4.toNat : Int) - t1.toNat || dl < 0 || 2 ^ 48 < dl || (tested && outlier) then
        exchangeReject p d
      else
        let d := (d.wr64 R.IFL_TIME_OFFSET_LO (encodeSigned 64 o)).wr64 R.IFL_TIME_DELAY_LO (encodeSigned 64 dl)
        let present := d.ifl.present
        let d := d.setIfl { d.ifl with req := none, accepted := true, run := d.ifl.run + 1, rejects := 0, missed := 0, present := false
                                       offsets := o :: d.ifl.offsets, delays := dl :: d.ifl.delays }
        let d := if present && d.get F.STAG_STATUS_TB_SRC = 2 then refJump 2 (-o) d else d
        if 16 ≤ d.ifl.run then setRingOk true d else d

/-- The offset of ring time that STAG follows: the filter's output (R443). -/
def ringOffset (d : Dev) : Int := Config.iflFilter (d.cfg F.IFL_TT_BW) d.ifl.offsets

/-! ### Scheduled triggers (R139, R448, R449) -/

/-- A scheduled trigger reaches FOX: it waits for its vector, or comes too late (R139). Where no vector has come, in COUNT, on BYCLK
after a loss of lock and before a mode's first vector, it is late when its TS lies before the latest tick: DESIGN CHOICE (log 145). -/
def ringCandidate (ts : Nat) (d : Dev) : Dev :=
  let t := tsInstant d ts
  let spanEnd := d.fox.vecK + 256 * foxStride d
  let nexts := (foxSampled d).map fun i => d.conv.next.toList.getD i none
  let late := if takesAtOnce d || nexts.all (·.isNone) then decide (ts < d.stag.now.toNat)
    else decide (t.k < d.fox.vecK) || (nexts.all (· == some spanEnd) && decide (t.k < spanEnd))
  if !late then d.setFox { d.fox with sched := d.fox.sched ++ [ts] }
  else if !srcEnabled d srcRing then d
  else (foxCode 0x0706 (d.count R.FOX_LATE_CNT)).post .c evSchedLate 0

/-- SCHED_SEND (R448). -/
def schedSend (d : Dev) : Dev :=
  let ts : TS := BitVec.ofNat 96
    ((d.rd (R.IFL_SCHED_TS 0)).toNat + 2 ^ 32 * (d.rd (R.IFL_SCHED_TS 1)).toNat + 2 ^ 64 * (d.rd (R.IFL_SCHED_TS 2)).toNat)
  let dest := d.get F.IFL_SCHED_DEST_VALUE
  let mask := d.get F.IFL_SCHED_MASK_VALUE
  let now := nowTick d
  if TS.ticks ts < now + d.cfg F.IFL_SCHED_LEAD_MIN_LEAD then iflCode 0x1301 d
  else if now + 2 ^ 32 < TS.ticks ts then iflCode 0x1302 d
  else if d.ifl.sched.isSome then iflCode 0x1303 d
  else if !(singleScope mask && dest = ownAddr d) && !joined d 0 then iflCode 0x1304 d
  else
    let d := d.setIfl { d.ifl with sched := some (dest, mask, ts) }
    if inScope (ownAddr d) dest mask then ringCandidate ts.toNat d else d

def sendSched (h : RouteHead) (ts : TS) (d : Dev) (c : Copy) : Dev :=
  transmit c.port (.sched c.flags c.port.pair.val c.hops h.dest h.mask h.src ts) d

/-- The ring keys with those that take effect at the next tick (R482). -/
def Ifl.takenKeys (i : Ifl) : Vector (Option (List Byte)) 2 := i.keyDue.foldl (fun ks e => ks.set e.1.val e.2) i.keys

/-- IFL at a tick: a key loaded since the last is in use (R482), and an accepted SEND leaves (R448). -/
def iflTick (d : Dev) : Dev :=
  let d := if d.ifl.keyDue.isEmpty then d else d.setIfl { d.ifl with keys := d.ifl.takenKeys, keyDue := [] }
  match d.ifl.sched with
  | none => d
  | some (dest, mask, ts) =>
    let h : RouteHead := { dest := dest, mask := mask, src := ownAddr d }
    let cs := if joined d 0 then (routeSend d h).2 else []
    cs.foldl (sendSched h ts) (d.setIfl { d.ifl with sched := none })

/-- SCHED_RX (R449): FLAGS, LEVEL, HOPS, DEST, MASK, SRC and TS of a SCHED flit. -/
def schedRx (p : Port) (h : RouteHead) (level : Nat) (ts : TS) (d : Dev) : Dev :=
  if !carries d p then d
  else if (d.port p).tokens = 0 then rateLimited p d
  else
    let d := d.setPort p { d.port p with tokens := (d.port p).tokens - 1 }
    let now := nowTick d
    if level ≠ p.pair.val || TS.ticks ts + 1024 < now || now + 2 ^ 32 < TS.ticks ts then d.count (R.IFL_x_DROP_CNT p.pair)
    else
      let (mine, copies, dropped) := routeCopy d p h
      let d := if mine then ringCandidate ts.toNat d else d
      let d := copies.foldl (sendSched h ts) d
      if dropped then d.count (R.IFL_x_DROP_CNT p.pair) else d

/-! ### Frames (R432, R451 to R455) -/

def frameField (b : List Byte) (o n : Nat) : Nat := leNat ((b.drop o).take n)
def frameType (b : List Byte) : Nat := frameField b 0 1
def frameLen (b : List Byte) : Nat := frameField b 2 2
def frameHead (b : List Byte) : RouteHead :=
  { flags := frameField b 1 1, hops := frameField b 0x1A 1, dest := frameField b 4 4, mask := frameField b 8 4, src := frameField b 0x0C 4 }

/-- Data flits of a frame with its CRC (R432). -/
def frameFlits (b : List Byte) : Nat := divUp (b.length + 4) 64

/-- A frame with a field replaced. -/
def patch (b : List Byte) (o : Nat) (v : List Byte) : List Byte := b.take o ++ v ++ b.drop (o + v.length)

def frameFormOk (b : List Byte) : Bool :=
  (frameType b = 1 || frameType b = 2) && frameLen b ≤ 1024 && frameField b 4 4 < 2 ^ 18 && frameField b 8 4 < 2 ^ 18
    && frameField b 0x1B 1 = 0 && frameField b 0x3C 4 = 0

/-- The GMAC tag of an MGMT frame under a key (R454). -/
def frameTag (key b : List Byte) : List Byte :=
  let aad := patch (patch (patch (patch b 1 [0]) 0x19 [0]) 0x1A [0]) 0x20 (List.replicate 16 0)
  Config.gmac key ((b.drop 0x0C).take 12) aad

/-- Queue a copy of a frame at its port. -/
def queueFrame (b : List Byte) (own : Option Nat) (passed : Bool) (d : Dev) (c : Copy) : Dev :=
  let f := patch (patch b 1 [BitVec.ofNat 8 c.flags]) 0x19 [BitVec.ofNat 8 c.port.pair.val, BitVec.ofNat 8 c.hops]
  d.setPort c.port { d.port c.port with queue := (d.port c.port).queue ++ [{ bytes := f, own, passed }] }

/-- Write a delivered frame into the receive ring (R452); `code` is the arrival port's. -/
def deliverFrame (b : List Byte) (code : Nat) (ts : TS) (d : Dev) : Dev :=
  let wrp := (d.rd R.IFL_RX_WR).toNat
  let size := 2 ^ d.cfg F.IFL_RX_CFG_SIZE_LOG
  if size ≤ (wrp + 2 ^ 32 - (d.rd R.IFL_RX_RD).toNat) % 2 ^ 32 then
    let d := d.count R.IFL_RX_LOST
    if d.ifl.saidLost then d else (d.setIfl { d.ifl with saidLost := true }).post .t evRingOvf 0 0
  else
    let a := d.cf64 R.IFL_RX_BASE_LO + 2048 * (wrp % size)
    let put (d : Dev) (a : Nat) (bs : List Byte) : Dev := if inDramOrData d a (max 1 bs.length) then fabricStore d a bs else d
    let d := put d (a + 64) (b.drop 64)
    let d := put d (a + 0x7F0) (leBytes 12 ts.toNat ++ [BitVec.ofNat 8 code, 0, 0, 0])
    let d := put d a (b.take 64)
    let d := d.wr R.IFL_RX_WR (BitVec.ofNat 32 (wrp + 1))
    d.post .t evRingRx (frameType b) (d.rd R.IFL_RX_WR).toNat

/-- FRAME_SEND (R451, R455). -/
def frameSend (d : Dev) : Dev :=
  let a := d.rd64 R.IFL_TX_ADDR_LO / 64 * 64
  if !joined d 0 then iflCode 0x1304 d
  else if 8 ≤ d.ifl.sends.length then iflCode 0x1307 d
  else if !noHole d a 64 || a % 2 ^ 63 ≠ a then iflCode 0x1308 d
  else
    let head := d.loadBytes a 64
    if !frameFormOk head then iflCode 0x1305 d
    else if !noHole d a (64 + frameLen head) then iflCode 0x1308 d
    else
      let slot := d.cfg F.IFL_MGMT_TX_KEY
      let key := if slot = 0 then d.ifl.keys.get 0 else d.ifl.keys.get 1
      let mgmt := frameType head = 2
      if mgmt && key.isNone then iflCode 0x1306 d
      else
        let seq := max (d.ifl.seq + 1) (nowTick d)
        let b := head ++ d.loadBytes (a + 64) (frameLen head)
        let b := patch (patch b 1 [0]) 0x0C (leBytes 4 (ownAddr d) ++ leBytes 8 seq ++ leBytes 1 (if mgmt then slot else 0) ++ [0, 0])
        let b := patch (patch b 0x20 (List.replicate 16 0)) 0x30 (leBytes 12 d.stag.now.toNat)
        let b := match key with | some k => if mgmt then patch b 0x20 (frameTag k b) else b | none => b
        let (mine, copies) := routeSend d (frameHead b)
        let id := seq
        let d := d.setIfl { d.ifl with seq := seq }
        let d := if mine then deliverFrame b 7 d.stag.now d else d
        if copies.isEmpty then d.post .t evRingSent (frameType b) (frameField b 0x1C 4)
        else
          let d := d.setIfl { d.ifl with sends := d.ifl.sends ++ [(id, frameType b, frameField b 0x1C 4, copies.length)] }
          copies.foldl (queueFrame b (some id) false) d

/-- A copy of a frame sent from here has left or is discarded; the last one that leaves posts EV_RING_SENT (R451). -/
def copyGone (own : Option Nat) (d : Dev) : Dev :=
  match own with
  | none => d
  | some id =>
    match d.ifl.sends.find? (fun s => s.1 == id) with
    | none => d
    | some (_, ty, ch, n) =>
      if n ≤ 1 then
        (d.setIfl { d.ifl with sends := d.ifl.sends.filter (fun s => s.1 != id) }).post .t evRingSent ty ch
      else d.setIfl { d.ifl with sends := d.ifl.sends.map (fun s => if s.1 = id then (id, ty, ch, n - 1) else s) }

/-- The frame a port serves next (R38, R453): urgent ones oldest first, then forwarded ones, then those sent here or passed
between levels. -/
def nextFrame (l : List IflFrame) : Option Nat :=
  (l.findIdx? (·.urgent)).orElse fun _ => (l.findIdx? (fun f => f.own.isNone && !f.passed)).orElse fun _ => if l.isEmpty then none else some 0

/-- Credits that a transmit port holds, in data flits (R453). -/
def credits (q : IflPort) : Nat := 256 - (q.sent - q.returned).toNat

/-- FRAME_SENT (R451, R453): a port transmits its next frame while it holds credits for it. -/
def frameSent (p : Port) (d : Dev) : Dev :=
  let q := d.port p
  match nextFrame q.queue with
  | none => d
  | some i =>
    match q.queue[i]? with
    | none => d
    | some f =>
      if !carries d p || credits q < frameFlits f.bytes then d
      else
        let b := f.bytes ++ leBytes 4 (crc32 f.bytes).toNat
        let d := d.setPort p { q with queue := q.queue.eraseIdx i, sent := q.sent + BitVec.ofNat 16 (frameFlits f.bytes) }
        copyGone f.own (transmit p (.frame b) d)

/-- FRAME_AGE_DROP (R453): a frame has waited 10 ms; ten more without a credit quarantine the port (Table 18.5). -/
def frameAgeDrop (p : Port) (i : Nat) (d : Dev) : Dev :=
  let q := d.port p
  match q.queue[i]? with
  | none => d
  | some f =>
    let d := (d.setPort p { q with queue := q.queue.eraseIdx i }).count (R.IFL_x_DROP_CNT p.pair)
    let d := copyGone f.own d
    if carries d p && q.creditAt + 3125000 ≤ nowTick d && credits q < frameFlits f.bytes then quarantine p 8 d else d

/-- A frame at a transmit port becomes urgent after IFL_RING.AGE µs (R38, R453); `waited` in 0.1 µs. -/
def framePromote (p : Port) (i waited : Nat) (d : Dev) : Dev :=
  let q := d.port p
  if 10 * d.cfg F.IFL_RING_AGE ≤ waited then
    d.setPort p { q with queue := q.queue.modify i (fun f => { f with urgent := true }) }
  else d

/-- An MGMT frame passes authentication and the SEQ window (R454, R455). -/
def mgmtOk (d : Dev) (b : List Byte) : Bool :=
  let slot := frameField b 0x18 1
  let key := if slot = 0 then d.ifl.keys.get 0 else if slot = 1 then d.ifl.keys.get 1 else none
  let seq := frameField b 0x10 8
  let w := 2 ^ d.cfg F.IFL_MGMT_WINDOW_LOG
  match key with
  | none => false
  | some k => frameTag k b == (b.drop 0x20).take 16 && seq ≤ nowTick d + w && nowTick d ≤ seq + w

/-- What the sender table says of an MGMT frame at its destination (R455): 0 delivered, 1 replayed, 2 the table is full. -/
def replayCheck (b : List Byte) (d : Dev) : Dev × Nat :=
  let src := frameField b 0x0C 4
  let seq := frameField b 0x10 8
  let live := d.ifl.senders.filter (fun e => decide (nowTick d < e.2.2 + 2 ^ d.cfg F.IFL_MGMT_WINDOW_LOG))
  match live.find? (fun e => e.1 == src) with
  | some (_, last, _) =>
    if seq ≤ last then (d.setIfl { d.ifl with senders := live }, 1)
    else (d.setIfl { d.ifl with senders := live.map (fun e => if e.1 = src then (src, seq, nowTick d) else e) }, 0)
  | none =>
    if 1024 ≤ live.length then (iflCode 0x1309 (d.setIfl { d.ifl with senders := live }), 2)
    else (d.setIfl { d.ifl with senders := live ++ [(src, seq, nowTick d)] }, 0)

/-- FRAME_RX (R432, R434, R452 to R455): a frame as received, header, payload and CRC, and its arrival TS. -/
def frameRx (p : Port) (bytes : List Byte) (ts : TS) (d : Dev) : Dev :=
  if !carries d p then d
  else
    let len := frameLen bytes
    let b := bytes.take (64 + len)
    let d := d.setPort p { d.port p with freed := (d.port p).freed + BitVec.ofNat 16 (frameFlits b) }
    let whole := bytes.length = 68 + len && leNat (bytes.drop (64 + len)) = (crc32 b).toNat && frameFormOk b
      && frameField b 1 1 < 4 && frameField b 0x0C 4 < 2 ^ 18
      && (frameType b = 2 || (frameField b 0x18 1 = 0 && frameField b 0x20 16 = 0))
    if !whole then d.count (R.IFL_x_ERR_CNT p.pair)
    else if frameType b = 2 && !mgmtOk d b then authFailed p d
    else
      let (mine, copies, dropped) := routeCopy d p (frameHead b)
      let (d, verdict) := if mine && frameType b = 2 then replayCheck b d else (d, 0)
      let d := if verdict = 1 then authFailed p d else d
      let d := if mine && verdict = 0 then deliverFrame b p.val ts d else d
      let d := copies.foldl (fun d c => queueFrame b none (c.port.pair ≠ p.pair) d c) d
      if dropped then d.count (R.IFL_x_DROP_CNT p.pair) else d

/-! ### Joining and leaving (R427, R441) -/

def iflShow (d : Dev) : Dev := d.put F.IFL_STATUS_STATE (if allPairs.any (joined d) then stOn else stOff)

/-- The bypass of a pair opens. -/
def iflJoin (x : Fin 3) (d : Dev) : Dev :=
  let d := [Port.of x false, Port.of x true].foldl (fun d p => d.setPort p { out := (d.port p).out, creditAt := nowTick d }) d
  let d := d.setIfl { d.ifl with since := d.ifl.since.set x.val 0, heard := d.ifl.heard.set x.val false }
  let d := ((d.putB (F.IFL_x_STATUS_BYPASS x) false).put (F.IFL_x_STATUS_RING x) rForming).setUnit (.ifl x) stOn
  iflShow d

/-- The bypass of a pair closes: its ports are gone and what they held is discarded. -/
def iflLeave (x : Fin 3) (d : Dev) : Dev :=
  let ps := [Port.of x false, Port.of x true]
  let own := (ps.map (fun p => (d.port p).queue.map (·.own))).flatten
  let d := ps.foldl (fun d p => portFalls p d) d
  let d := ps.foldl (fun d p => ((d.put (Port.reason p) 0).wr (Port.nbr p) 0).setPort p { out := (d.port p).out }) d
  let d := own.foldl (fun d o => copyGone o d) d
  let d := (d.putB (F.IFL_x_STATUS_BYPASS x) true).putB (F.IFL_x_STATUS_MASTER x) false
  let d := ((d.put (F.IFL_x_STATUS_RING x) rOff).wr (R.IFL_x_FOLD x) 0xFFFF#32).setUnit (.ifl x) stOff
  reviewGm (reviewTimePort (iflShow d))

/-- An ABORT of the work in flight (R57): the frame that each port transmits is cut, and the far side sees a bad one (Table 2.8). -/
def iflCut (x : Fin 3) (d : Dev) : Dev :=
  [Port.of x false, Port.of x true].foldl (fun d p =>
    let q := d.port p
    match nextFrame q.queue with
    | none => d
    | some i => match q.queue[i]? with
      | none => d
      | some f =>
        if !carries d p || credits q < frameFlits f.bytes then d
        else copyGone f.own (d.setPort p { q with queue := q.queue.eraseIdx i, sent := q.sent + BitVec.ofNat 16 (frameFlits f.bytes) })) d

/-- IFL_ABORT (R441). -/
def iflAbort (x : Fin 3) (d : Dev) : Dev := if joined d x then iflLeave x d else d

/-- The pair has drained to its flit boundary (R63, R441): it closes, and opens again when JOIN was committed meanwhile. -/
def iflDrained (x : Fin 3) (d : Dev) : Dev :=
  if d.unitState (.ifl x) ≠ stDraining then d
  else
    let d := iflLeave x d
    if d.cfgB (F.IFL_x_CFG_JOIN x) then iflJoin x d else d

/-- COMMIT_APPLY of IFL's fields at the tick after the commit: A is taken only where it is declared (Table 18.13), and JOIN
opens or drains a pair. -/
def iflApply (d : Dev) : Dev :=
  let joinNow : List (Fin 3) := allPairs.filter (fun (x : Fin 3) => d.cfgc.parts.any (fun w => w.tgt == .ifl && w.addr == R.IFL_x_CFG x.val))
  let asyms := allPorts.map (fun p => (p, d.ef (Port.asym p)))
  let d := applyUnit d .ifl
  let d := asyms.foldl (fun d (p, v) =>
    if d.cfgB (F.IFL_x_CFG_ASYM_SRC p.pair) then d else (d.efw (Port.asym p) v).wr (Port.asym p) v) d
  joinNow.foldl (fun d (x : Fin 3) =>
    if d.cfgB (F.IFL_x_CFG_JOIN x) then (if d.unitState (.ifl x) = stOff then iflJoin x d else d)
    else if d.unitState (.ifl x) = stOn then d.setUnit (.ifl x) stDraining else d) d

/-- COMMIT_APPLY of the receive ring: while no pair is joined. -/
def iflRxApply (d : Dev) : Dev := if allPairs.any (joined d) then d else applyUnit d .iflRx

/-! ### Flits (R429 to R432) -/

/-- A control flit: its named bytes, zeros up to byte 60, and the CRC-32 over them (R430). -/
def controlFlit (b : List Byte) : List Byte := withCrc (padTo 60 b)

/-- A TIME flit (Table 18.2): bytes 1 to 12, then TA, TB and TC. -/
def timeFlit (kind seq gm hops gmHops steps : Nat) (slew : Bool) (ta tb tc : TS) : List Byte :=
  controlFlit ([0x10, BitVec.ofNat 8 kind] ++ leBytes 2 seq ++ leBytes 4 gm ++ leBytes 1 hops ++ leBytes 1 gmHops ++ leBytes 2 steps
    ++ leBytes 1 slew.toNat ++ zeros 3 ++ leBytes 12 ta.toNat ++ leBytes 12 tb.toNat ++ leBytes 12 tc.toNat)

/-- The 64-byte flits of a list of bytes, padded with zeros (R432). -/
def flitsOf : Nat → List Byte → List (List Byte)
  | 0, _ => []
  | n + 1, b => if b.isEmpty then [] else padTo 64 (b.take 64) :: flitsOf n (b.drop 64)

/-- The flits by which a port sends what it sends; a reflection request and its answer travel in LINK flits (R445). -/
def txFlits : RingTx → List (List Byte)
  | .announce _ hops gm gmHops steps slew => [timeFlit 2 0 gm hops gmHops steps slew 0 0 0]
  | .req seq t1 => [timeFlit 0 seq 0 0 0 0 false 0 0 t1]
  | .resp seq ta tb tc gm gmHops steps slew => [timeFlit 1 seq gm 0 gmHops steps slew ta tb tc]
  | .sched flags level hops dest mask src ts =>
    [controlFlit ([0x20, BitVec.ofNat 8 flags, BitVec.ofNat 8 level, BitVec.ofNat 8 hops] ++ leBytes 4 dest ++ leBytes 4 mask
      ++ leBytes 4 src ++ leBytes 12 ts.toNat)]
  | .frame bytes => flitsOf 18 bytes
  | .reflectReq | .reflectAck => []

/-- The bytes of the LINK flit that a port sends now (Table 18.2). -/
def linkBytes (d : Dev) (p : Port) (deviceId : Nat) : List Byte :=
  let x := p.pair
  let q := d.port p
  let flags := d.get (F.IFL_x_STATUS_MASTER x) + 2 * (quarantined d p).toNat + 4 * q.measuring.toNat
    + 8 * (match q.honoured with | some t => decide (nowTick d < t + 31250) | none => false).toNat
  controlFlit <| [2, BitVec.ofNat 8 x.val, BitVec.ofNat 8 (pairRing d x), BitVec.ofNat 8 flags]
    ++ leBytes 4 (d.cfg F.IFL_ADDR_VALID * 2 ^ 31 + ownAddr d) ++ leBytes 8 deviceId ++ leBytes 2 q.freed.toNat ++ [0, 0]
    ++ [BitVec.ofNat 8 (d.get (F.IFL_x_FOLD_FOLD_W x)), BitVec.ofNat 8 (d.get (F.IFL_x_FOLD_FOLD_E x)), 0, 0]
    ++ leBytes 4 (encodeSigned 32 q.txDly)

end Sys2Proof.Machine
end

