-- ==== Sys2Proof/Machine/Modes.lean ====
section
/-! DEFINITION. Mode requests and transitions (chapter 2), and how FOX, SDEC and ILV take a commit. -/
namespace Sys2Proof.Machine

/-! ### Commits at FOX, SDEC and ILV (R125, R135, R149, R166) -/

/-- An event unit restarts; of a WINDOW duration in progress under its old settings it keeps the side (R125). -/
def restartUnit (old : UnitCfg) (u : EventUnit) : EventUnit :=
  if old.ty = 2 && old.rel ≠ 0 && !u.fired then { since := u.since, state := u.state } else {}

/-- FOX takes its committed configuration: what is in progress restarts; time holdoff, the armed state and pretrigger fill stay
(R125). -/
def foxApply (d : Dev) : Dev :=
  let kernel := d.cfgc.parts.any (fun w => w.tgt == .fox && w.addr == R.FOX_KERNEL)
  let old := (unitCfg d 0, unitCfg d 1)
  let d := applyUnit d .fox
  let v := d.cfg F.FOX_HOLDOFF_HI_VALUE * 2 ^ 32 + (d.ef R.FOX_HOLDOFF_LO).toNat
  let f := d.fox
  let count := if f.holdCount = 0 || d.cfg F.FOX_HOLDOFF_HI_MODE = 0 then 0 else v
  let d := closeSeq (d.setFox { f with a := restartUnit old.1 f.a, b := restartUnit old.2 f.b, owlEvs := [], holdCount := count, lastBad := none })
  let d := if f.holdCount = 0 then d else d.putB F.FOX_STATUS_HOLDOFF (count ≠ 0)
  let d :=
    if !kernel then d
    else
      let bad := d.cfg F.FOX_KERNEL_KSEL = 2 && !kernelOk d (16 * d.cfg F.FOX_KERNEL_OFFSET)
      let d := d.setFox { d.fox with cubic := bad }
      if bad then foxCode 0x0708 d else d
  trigoutMinRecompute (trigoutRefresh d)

/-- COMMIT_APPLY of a decoder (R166): when it is idle or unsynchronised, or the commit changes nothing but what it matches; in a frame
the end of the frame applies it. A disable drains it (R63). -/
def sdecApply (n : Fin 4) (d : Dev) : Dev :=
  let st := d.unitState (.sdec n)
  if st = stDraining || st = stAborting then d
  else if st = stOn && sdecDisabling d n then d.setUnit (.sdec n) stDraining
  else if st = stOn && sdecInFrame d n && sdecRetuned d n then d
  else trigoutMinRecompute (sdecTake n d)

/-- ILV takes ILV_CTRL between two vectors. -/
def ilvApply (d : Dev) : Dev :=
  let d := applyUnit d .ilvCtrl
  if d.cfgB F.ILV_CTRL_EST_EN then d else estRestart d

/-! ### Units leaving service (R53, R55, R62, Table 2.8) -/

/-- CAP under ABORT: the open unit closes with what it holds (R199); one that an overflow has just closed is marked (R197). -/
def capAbort (d : Dev) : Dev :=
  let d := { addFlags flAborted none d with cap := { (addFlags flAborted none d).cap with tail := none } }
  match d.cap.unit with
  | none => d
  | some u =>
    let m := openSamples d
    let d :=
      if u.kind == CapKind.block && m = 0 then dropBlock d u
      else
        closeUnit (fineLoss d u m) m (if m < u.need then flAborted else 0) 0
          (if m = 0 then none else some (m - 1))
    let d := if u.mode = mStack then stkBoundary (if m < u.need then stkRejectUnit 0x0D02 d else stkTake d
        (settleUnit d { u with samples := m, closed := true })) else d
    let d := (d.setFox { d.fox with busy := false, busyEnd := none }).putB F.FOX_STATUS_BUSY false
    let d := armEnds d
    d.put F.CAP_STATUS_STATE stAborting

/-- A unit in service is aborted. -/
def abortUnit (d : Dev) : UnitId → Dev
  | .cap => capAbort d
  | .stk => stkAbort d
  | .red p => redAbort p d
  | .sdec n => if d.unitState (.sdec n) = stOff then d else (sdecRestart n d).setUnit (.sdec n) stAborting
  | .badger => badgerAbort d
  | .beaver n => beaverChAbort n d
  | .lynx n => lynxAbort n d
  | .pulse u => pulseAbort u d
  | .cal => if d.unitState .cal = stOff then d else d.setUnit .cal stAborting
  | .ifl x => iflCut x d
  | .ilv | .fox | .ddr _ | .owl _ => d

/-- The work of a unit has ended. CAP shows OFF once it is disarmed and holds no open unit. -/
def unitOff (d : Dev) (u : UnitId) : Bool :=
  match u with
  | .cap => capState d == stOff
  | _ => d.unitState u == stOff

/-- A unit taken out of service drains, or aborts when HOW is 1. -/
def leaveUnit (how : Bool) (d : Dev) (u : UnitId) : Dev :=
  if unitOff d u || d.unitState u = stAborting then d
  else if how then abortUnit d u
  else match u with
    | .cap => d
    | _ => d.setUnit u stDraining

/-- A foreground procedure runs. -/
def calRunning (d : Dev) : Bool := d.cal.begun

/-- The units with work in flight that a target mode takes out of service or reconfigures (Table 2.3); in the current mode
and arrangement with HOW at 1, every unit that the mode runs (R57). -/
def leavers (d : Dev) (mode arr : Nat) (how : Bool) : List UnitId :=
  let same := mode = d.mode && (arr = d.arr || mode = mSentry || mode = mCount)
  let capture := isCapture mode
  let cap := if d.cap.unit.isSome then [UnitId.cap] else []
  let stk := if (d.stk.fold.isSome || d.unitState .stk = stOn) && ((same && how) || mode ≠ d.mode || arr ≠ d.arr) then [UnitId.stk] else []
  let red := (pipes.filter (fun p => d.unitState (.red p) ≠ stOff && ((same && how) || !capture || mode = mFine))).map UnitId.red
  let sdec := (pipes.filter (fun n => d.unitState (.sdec n) ≠ stOff && ((same && how) || mode = mCalibrate))).map UnitId.sdec
  let cal := if calRunning d then [UnitId.cal] else []
  let rest := if same && how then
      (if d.unitState .badger = stOff then [] else [UnitId.badger])
        ++ (dmaChannels.filter (fun (n : Fin 32) => d.unitState (.beaver n) ≠ stOff)).map UnitId.beaver
        ++ (lynxInputs.filter (fun n => d.unitState (.lynx n) ≠ stOff)).map UnitId.lynx
        ++ (pipes.filter (fun u => (d.pulse.get u).active)).map UnitId.pulse
    else []
  cap ++ stk ++ red ++ sdec ++ cal ++ rest

def setPhase (p : Nat) (d : Dev) : Dev := d.put F.GLB_MODE_STATUS_PHASE p
def setTarget (mode arr : Nat) (d : Dev) : Dev :=
  (d.put F.GLB_MODE_STATUS_TGT_MODE mode).put F.GLB_MODE_STATUS_TGT_ARR arr

/-- The module drains toward a target (R53): FOX is disarmed, at the end of a span of vectors in progress, what leaves service
drains or aborts, and the trim registers address the target's set (R79). -/
def beginMode (mode arr : Nat) (how : Bool) (d : Dev) : Dev :=
  let same := mode = d.mode && (arr = d.arr || mode = mSentry || mode = mCount)
  let d := setPhase 1 (setTarget mode arr d)
  let d := if how then d else if midSpan d then d.setFox { d.fox with due := d.fox.due ++ [.disarm] } else disarm d
  let us := leavers d mode arr how
  let d := addressSet arr { d with mod := { d.mod with leaving := us, wake := false } }
  let d := us.foldl (leaveUnit how) d
  if !how then d
  else
    let d := if same then allPairs.foldl (fun d x => abortUnit d (.ifl x)) d else d
    disarm (d.setFox { d.fox with due := [] })

/-- Where a drained module goes: SWITCHING, or WAIT_CLOCK when the target converts and the sample loop is not locked. -/
def afterDrain (d : Dev) : Dev :=
  if converts (d.get F.GLB_MODE_STATUS_TGT_MODE) && !d.flag F.STAG_STATUS_SL_LOCK then setPhase 3 d else setPhase 2 d

/-! ### Requests (R52, R55, R57, R58) -/

def modeCode (c : Nat) (d : Dev) : Dev := (d.put F.GLB_MODE_STATUS_LAST_CODE c).put F.GLB_STATUS_LAST_CODE c

/-- A request ends refused: LAST_CODE and EV_MODE_REFUSED. -/
def refuseMode (c : Nat) (d : Dev) : Dev := (modeCode c d).post .q evModeRefused 0 c

def sayModeDone (d : Dev) : Dev :=
  let d := modeCode 0 d
  d.post .q evModeDone 0 (d.rd R.GLB_MODE_STATUS).toNat

/-- The code of the first cause of refusal that applies (R58), or 0. -/
def modeRefusal (d : Dev) (mode arr : Nat) : Nat :=
  if !d.flag F.GLB_STATUS_READY then 0x15
  else if d.phase = 2 then 0x11
  else if arr = 3 || (mode = mFine && arr ≠ 0) then 0x10
  else if converts mode && !slEnabled d then 0x12
  else 0

/-- CAL's own request has been replaced: the procedure that had not begun is aborted (R55, R324). -/
def dropCalRequest (d : Dev) : Dev :=
  if d.mod.forCal then
    ({ d with mod := { d.mod with forCal := false }, cal := { d.cal with proc := none, begun := false, home := none } }.setUnit .cal stOff).put
      F.CAL_STATUS_LAST_CODE 0x0E08
  else d

/-- A request that replaces a pending one (R55). -/
def supersede (mode arr : Nat) (how : Bool) (d : Dev) : Dev :=
  let waiting := d.phase = 3
  let d := dropCalRequest (refuseMode 0x14 d)
  let old := d.mod.leaving.filter (fun u => !unitOff d u)
  let new := (leavers d mode arr how).filter (fun u => !old.contains u)
  let d := setTarget mode arr d
  let d := addressSet arr { d with mod := { d.mod with leaving := old ++ new } }
  let d := if how then old.foldl (leaveUnit true) d else d
  let d := new.foldl (leaveUnit how) d
  let d := if how then disarm (d.setFox { d.fox with due := [] }) else d
  if !waiting then d else if (old ++ new).isEmpty then afterDrain d else setPhase 1 d

/-- A request of a mode and arrangement, from GLB_MODE, MODE or CAL; answers whether it was taken. -/
def takeMode (mode arr : Nat) (how : Bool) (d : Dev) : Dev :=
  let same := mode = d.mode && (arr = d.arr || mode = mSentry || mode = mCount)
  if d.phase ≠ 0 then supersede mode arr how d
  else if same && !how then
    sayModeDone (setTarget mode arr (enterArr arr d))
  else beginMode mode arr how d

/-- MODE_REQUEST (R52): a write of GLB_MODE, which reads back as written even when it is refused (R58). -/
def modeRequest (v : Nat) (d : Dev) : Dev :=
  let d := d.wr R.GLB_MODE (BitVec.ofNat 32 (v &&& 0x337))
  let mode := v % 8
  let arr := bitsOf v 5 4
  let c := modeRefusal d mode arr
  if c ≠ 0 then refuseMode c d else takeMode mode arr (bitsOf v 9 9 = 1) d

/-! ### The phases (R53, R54) -/

/-- CAP's drain is over: no unit is open, and the post-trigger count of one that an overflow closed has passed (R66). -/
def capDrained (d : Dev) : Bool :=
  d.cap.unit.isNone && (match d.cap.tail with | some k => decide (k ≤ d.fox.vecK + 256) | none => true)

/-- FOX has disarmed and the span of vectors in progress is complete (R53, R522). -/
def foxDrained (d : Dev) : Bool := !midSpan d && d.fox.due.isEmpty

/-- DRAIN_END (R53). -/
def drainEnd (d : Dev) : Dev :=
  if d.phase = 1 && d.mod.leaving.all (unitOff d) && capDrained d && foxDrained d then afterDrain d
  else d

/-- WAIT_CLOCK_LOCK (R53, R65). -/
def waitClockLock (d : Dev) : Dev := if d.phase = 3 && d.flag F.STAG_STATUS_SL_LOCK then setPhase 2 d else d

/-- A unit that a mode runs follows its own enable again (R48); `us` are those that left service. -/
def followEnables (us : List UnitId) (d : Dev) : Dev :=
  let d := pipes.foldl (fun d n =>
    if d.mode = mCalibrate then (sdecRestart n d).setUnit (.sdec n) stOff
    else if d.cfgB (F.SDEC_d_CFG_EN n) && d.unitState (.sdec n) = stOff then sdecCheck n (sdecRestart n (d.setUnit (.sdec n) stOn))
    else sdecCheck n (if sdecClass d n = 0 then sdecRestart n d else d)) d
  let d := pipes.foldl (fun d u =>
    if us.contains (.pulse u) && d.cfgB (F.PULSE_u_CFG_EN u) && d.unitState (.pulse u) = stOff then d.setUnit (.pulse u) stOn else d) d
  if d.mode = mStack then d else d.setUnit .stk stOff

end Sys2Proof.Machine
end

