-- ==== Sys2Proof/Machine/Hedge.lean ====
section
/-! DEFINITION. HEDGE: boot, signatures, fuses, commands and sealed records (chapter 19). -/
namespace Sys2Proof.Machine

def evHedgeBoot : Nat := 0x501
def evHedgeDone : Nat := 0x502
def evHedgeSeal : Nat := 0x503
def evHedgeFuse : Nat := 0x505

def Dev.setHedge (d : Dev) (h : Hedge) : Dev := { d with hedge := h }
def hedgeCode (c : Nat) (d : Dev) : Dev := d.put F.HEDGE_STATUS_LAST_CODE c

def textBytes : List Nat → List Byte := List.map (BitVec.ofNat 8)
/-- The context strings of Table 19.1. -/
def ctxPrg : List Byte := textBytes [0x50, 0x42, 0x58, 0x2D, 0x50, 0x52, 0x47]
def ctxCal : List Byte := textBytes [0x50, 0x42, 0x58, 0x2D, 0x43, 0x41, 0x4C]
def ctxFw : List Byte := textBytes [0x50, 0x42, 0x58, 0x2D, 0x46, 0x57]
def ctxId : List Byte := textBytes [0x50, 0x42, 0x58, 0x2D, 0x49, 0x44]
def ctxAtt : List Byte := textBytes [0x50, 0x42, 0x58, 0x2D, 0x41, 0x54, 0x54]
def ctxRec : List Byte := textBytes [0x50, 0x42, 0x58, 0x2D, 0x52, 0x45, 0x43]

/-! ### Signatures (R459, R460, Table 10.2) -/

/-- M′ of the Ed25519 signature. -/
def edMessage (ctx h : List Byte) : List Byte := 0 :: BitVec.ofNat 8 ctx.length :: ctx ++ h

/-- A signature block (Table 10.2). -/
def sigBlock (keyId : Nat) (ed ml : List Byte) : List Byte :=
  leBytes 4 0xFC534947 ++ leBytes 4 3392 ++ leBytes 4 keyId ++ leBytes 4 0
    ++ (ed ++ List.replicate 64 0).take 64 ++ (ml ++ List.replicate 3309 0).take 3309 ++ List.replicate 3 0

/-- The signature block over an object's signed bytes, under a pair's seeds and 32 random bytes. -/
def signBlock (edSeed mlSeed ctx signed rnd : List Byte) (keyId : Nat) : List Byte :=
  sigBlock keyId (Config.ed25519Sign edSeed (edMessage ctx (sha512 signed))) (Config.mldsaSign mlSeed ctx (sha512 signed) rnd)

/-- Steps 2, 3, 5 and 6 of R460 around step 4: the code of the first that fails, or 0. The key pair is a public key pair where
it is present, and whether it is revoked. -/
def checkBlock (keyId : Nat) (pk : Option (List Byte)) (revoked svnOk : Bool) (ctx signed block : List Byte) : Nat :=
  let h := sha512 signed
  if hdrField block 0 4 ≠ 0xFC534947 || hdrField block 4 4 ≠ 3392 || hdrField block 8 4 ≠ keyId || hdrField block 12 4 ≠ 0
      || hdrField block 0xD3D 3 ≠ 0 then 0x1403
  else match pk with
    | none => 0x1404
    | some k =>
      if revoked then 0x1405
      else if !svnOk then 0x1406
      else if !Config.ed25519Ok (k.take 32) (edMessage ctx h) ((block.drop 0x10).take 64) then 0x1407
      else if !Config.mldsaOk (k.drop 32) ctx h ((block.drop 0x50).take 3309) then 0x1408
      else 0

/-- The first 32 bytes of a key blob's digest, as fuses hold them. -/
def keyDigest (blob : List Byte) : List Byte := (sha512 blob).take 32

/-- The key pair of owner slot s, 1 to 4: present when it is enrolled and its digest is the fused one, where one is fused. -/
def ownerKey (d : Dev) (s : Nat) : Option (List Byte) × Bool :=
  if h : 1 ≤ s ∧ s ≤ 4 then
    let o := d.hedge.owners.get ⟨s - 1, by omega⟩
    let blob := match o.fused, o.blob with
      | some f, some b => if keyDigest b = f then some b else none
      | _, b => b
    (blob, o.revoked || o.broken)
  else (none, false)

/-! ### Device keys (R461) -/

def dikSeed : List Byte := hmacSha512 Config.deviceSecret (textBytes [0x50, 0x42, 0x58, 0x2D, 0x44, 0x49, 0x4B])

/-- The seeds of AK under the running firmware. -/
def akSeed (d : Dev) : List Byte :=
  hmacSha512 Config.deviceSecret
    (textBytes [0x50, 0x42, 0x58, 0x2D, 0x41, 0x4B] ++ d.hedge.fwDigest ++ leBytes 4 (d.rd R.HEDGE_FW_SVN).toNat)

def akReady (d : Dev) : Bool := d.hedge.running.isSome

def akSign (d : Dev) (ctx signed rnd : List Byte) : List Byte :=
  signBlock ((akSeed d).take 32) (((akSeed d).drop 32).take 32) ctx signed rnd 0x201

/-- The lifecycle state the module acts in (R469). -/
def lifecycle (d : Dev) : Nat := d.get F.HEDGE_STATUS_LC

/-- A certificate's signed bytes (Table 19.5), with the public keys of the subject's seeds. -/
def certBody (kind issuer life svn : Nat) (digest seeds : List Byte) : List Byte :=
  leBytes 4 0xFC545243 ++ leBytes 2 1 ++ leBytes 2 kind ++ leBytes 4 2080 ++ leBytes 4 issuer ++ leBytes 8 Config.deviceId.toNat
    ++ leBytes 1 Config.variantM.toNat ++ leBytes 1 0xB0 ++ leBytes 1 life ++ leBytes 1 0 ++ leBytes 4 svn
    ++ (digest ++ List.replicate 64 0).take 64 ++ (Config.ed25519Key (seeds.take 32) ++ List.replicate 32 0).take 32
    ++ (Config.mldsaKey ((seeds.drop 32).take 32) ++ List.replicate 1952 0).take 1952

/-- The identity certificate with its signature block (R475): the factory CA's over DIK. -/
def identityCert : List Byte :=
  certBody 1 (0x300 + Config.caNumber) 0 0 [] dikSeed ++ sigBlock (0x300 + Config.caNumber) Config.caEd25519 Config.caMldsa

/-- The alias certificate with its signature block (R475): DIK's over AK, as the boot issued it (R461). -/
def aliasCert (d : Dev) : List Byte :=
  let body := certBody 2 0x200 d.hedge.lcBoot (d.rd R.HEDGE_FW_SVN).toNat d.hedge.fwDigest (akSeed d)
  body ++ signBlock (dikSeed.take 32) ((dikSeed.drop 32).take 32) ctxId body d.hedge.aliasRnd 0x200

/-! ### Fuses in the registers (Tables 19.11, 19.13) -/

def ownerSlots : List (Fin 4) := [0, 1, 2, 3]

def ownerBits (d : Dev) (f : OwnerSlot → Bool) : Nat :=
  ownerSlots.foldl (fun acc s => acc + (f (d.hedge.owners.get s)).toNat * 2 ^ s.val) 0

def showFuses (d : Dev) : Dev :=
  let h := d.hedge
  let d := (d.putB F.HEDGE_STATUS_DEBUG_LOCK h.debugLock).putB F.HEDGE_STATUS_SEAL_PENDING (h.lc = 3 && lifecycle d ≠ 3)
  let d := d.wr R.HEDGE_CTRS (BitVec.ofNat 32 (h.calCtr * 65536 + h.prgCtr * 256 + h.fwCtr))
  d.wr R.HEDGE_OWNER (BitVec.ofNat 32 (ownerBits d (·.broken) * 4096 + ownerBits d (·.revoked) * 256
    + ownerBits d (·.fused.isSome) * 16 + ownerBits d (·.blob.isSome)))

/-! ### Boot (R463 to R467) -/

/-- A firmware key set is revoked: its FW_REVOKE fuse is burnt (Table 19.3). -/
def fwRevoked (d : Dev) (n : Nat) : Bool := d.hedge.fwRevoke.getLsbD n

/-- A firmware slot is valid: its image passes R460; `readable` is whether the boot store returned it intact. -/
def fwValid (d : Dev) (s : Fin 2) (readable : Bool) : Bool :=
  match d.hedge.slots.get s with
  | some f => readable && d.hedge.fwCtr ≤ f.svn && !fwRevoked d f.keySet
  | none => false

/-- The slot to boot: a TRIAL slot first, once; then the higher SVN, slot A on a tie. The slot of a trial that failed or ended
without FW_COMMIT gives way to the other slot, where that one is valid (R463, R465). -/
def fwChoice (d : Dev) (a b : Bool) : Option (Fin 2) :=
  let valid (s : Fin 2) : Bool := fwValid d s (if s = 0 then a else b)
  let ok (s : Fin 2) : Bool := valid s && d.hedge.tried ≠ some s
  let svn (s : Fin 2) : Nat := match d.hedge.slots.get s with | some f => f.svn | none => 0
  let trial (s : Fin 2) : Bool := match d.hedge.slots.get s with | some f => f.trial | none => false
  if ok 0 && trial 0 then some 0
  else if ok 1 && trial 1 then some 1
  else if ok 0 && ok 1 then some (if svn 0 < svn 1 then 1 else 0)
  else if ok 0 then some 0
  else if ok 1 then some 1
  else if valid 0 then some 0
  else if valid 1 then some 1
  else none

/-- The slot whose TRIAL this boot makes, whether or not its image is valid (R463, R465). -/
def fwTrial (d : Dev) : Option (Fin 2) :=
  let due (s : Fin 2) : Bool :=
    (match d.hedge.slots.get s with | some f => f.trial | none => false) && d.hedge.tried ≠ some s
  if due 0 then some 0 else if due 1 then some 1 else d.hedge.tried

/-- A slot whose burn was cut short and completed from its record; BROKEN where the record needs a 0 and a fuse reads 1 (R467). -/
def completeSlot (broken : BitVec 4) (old new : Vector OwnerSlot 4) (s : Fin 4) : OwnerSlot :=
  if broken.getLsbD s.val && (new.get s).fused ≠ (old.get s).fused then { new.get s with fused := none, broken := true } else new.get s

/-- The boot completes the burns that a reset cut short (R467). -/
def completeBurns (broken : BitVec 4) (h : Hedge) (f : Fuses) : Hedge :=
  { h with lc := f.lc, debugLock := f.debugLock, fwCtr := f.fwCtr, prgCtr := f.prgCtr, calCtr := f.calCtr
           owners := Vector.ofFn (completeSlot broken h.owners f.owners) }

/-- BOOT (R463 to R467): which slots' images the boot store returned intact, how many half-burnt fuse bits were completed, and
which cut slots need a 0 where a fuse reads 1. A burn that had not begun when a reset cut its command leaves no such bit. -/
def hedgeBoot (aOk bOk : Bool) (completed : Nat) (broken : BitVec 4) (d : Dev) : Dev :=
  let h := match d.hedge.after with
    | some f => if completed = 0 then d.hedge else completeBurns broken d.hedge f
    | none => d.hedge
  let h := { h with after := none, lcBoot := h.lc }
  let d := ((d.setHedge h).put F.HEDGE_STATUS_LC h.lc).wr64 R.HEDGE_DEVICE_ID_LO Config.deviceId.toNat
  let d := showFuses d
  let d := if completed = 0 then d else d.post .k evHedgeFuse 0 completed
  let tried := fwTrial d
  match fwChoice d aOk bOk with
  | none => (d.setHedge { d.hedge with running := none, tried }).putB F.HEDGE_STATUS_RECOVERY true
  | some s =>
    match d.hedge.slots.get s with
    | none => d
    | some f =>
      let rnd := leBytes 32 (Config.bootEntropy d.freeCtr).toNat
      let d := d.nextFree.setHedge { d.hedge with running := some s, fwDigest := f.digest, tried, aliasRnd := rnd }
      let d := ((d.put F.HEDGE_STATUS_FW_SLOT s.val).putB F.HEDGE_STATUS_FW_TRIAL f.trial).wr R.HEDGE_FW_SVN (BitVec.ofNat 32 f.svn)
      (d.putB F.HEDGE_STATUS_BOOT_DONE true).post .k evHedgeBoot s.val f.svn

/-! ### Commands (R483) -/

/-- The attestation report's fields, taken in one K cycle (R476). The live trim image's digest is `trim`. -/
def attReport (d : Dev) (nonce trim : List Byte) : List Byte :=
  let h := d.hedge
  let revoked := ownerBits d (fun o => o.revoked || o.broken)
  let flags := h.debugLock.toNat + 2 * d.get F.HEDGE_STATUS_SEAL_PENDING + 4 * d.get F.HEDGE_STATUS_PRG_VERIFIED
    + 8 * d.get F.HEDGE_STATUS_FW_TRIAL + 16 * d.sealing.on.toNat
  let prg := match h.prg with | some p => p | none => ⟨0, 0, List.replicate 64 0⟩
  leBytes 4 0xFC545441 ++ leBytes 2 1 ++ leBytes 2 0 ++ leBytes 4 320 ++ leBytes 4 (d.rd R.CAL_COUNT).toNat
    ++ leBytes 8 Config.deviceId.toNat ++ leBytes 1 (lifecycle d) ++ leBytes 1 flags ++ leBytes 1 (d.get F.STAG_STATUS_TB_SRC)
    ++ leBytes 1 (ownerBits d (·.fused.isSome) + 16 * revoked) ++ leBytes 1 h.fwCtr ++ leBytes 1 h.prgCtr ++ leBytes 1 h.calCtr
    ++ leBytes 1 0 ++ nonce ++ leBytes 4 0 ++ leBytes 8 d.aqs.tick.toNat ++ leBytes 4 prg.svn ++ leBytes 4 prg.key ++ leBytes 12 0
    ++ (h.fwDigest ++ List.replicate 64 0).take 64 ++ (prg.digest ++ List.replicate 64 0).take 64 ++ (trim ++ List.replicate 64 0).take 64

/-- A write of HEDGE_CMD.OP: refused while BUSY, else the command runs; PRG_VERIFY first locks program SRAM, ATTEST takes the
fields of its report (`trim` is the digest of the live trim image). -/
def hedgeStart (trim : List Byte) (op : Nat) (d : Dev) : Dev :=
  if d.flag F.HEDGE_STATUS_BUSY then hedgeCode 0x1401 d
  else
    let addr := d.rd64 R.HEDGE_ADDR_LO
    let report := if op = 2 then attReport d (d.loadBytes addr 64) trim else []
    let d := d.setHedge { d.hedge with cmd := some ⟨op, (d.rd R.HEDGE_ARG).toNat, addr, report⟩ }
    let d := if op = 3 && !d.flag F.HEDGE_STATUS_RECOVERY then d.putB F.HEDGE_STATUS_PRG_LOCKED true else d
    d.putB F.HEDGE_STATUS_BUSY true

/-- An operand range can be read or written by HEDGE (R483). -/
def hedgeRange (d : Dev) (a n : Nat) (write : Bool) : Bool := if write then canWrite d a n else noHole d a n

/-- The check of the program image in program SRAM (R260, R460, R472): its code, SVN, KEY_ID and digest. -/
def checkProgram (d : Dev) : Nat × PrgImage :=
  let h := d.loadBytes programBase 64
  let words := hdrField h 0x0C 4
  let len := hdrField h 0x10 4
  let key := hdrField h 0x18 4
  let entryOk (i : Nat) : Bool :=
    let e := hdrField h (0x20 + 4 * i) 4
    bitsOf e 30 19 = 0 && (bitsOf e 31 31 = 0 || (16 ≤ bitsOf e 18 0 && bitsOf e 18 0 ≤ 15 + words))
  if hdrField h 0 4 ≠ 0xFC505247 || hdrField h 4 2 ≠ 1 || hdrField h 6 2 ≠ 0x40 || hdrField h 8 4 ≠ 1 || words = 0
      || 524288 < 16 + words + 848 || len ≠ 64 + 4 * words || hdrField h 0x1C 4 ≠ 0 || !(List.range 8).all entryOk then
    (0x1403, ⟨0, 0, []⟩)
  else
    let signed := d.loadBytes programBase len
    let (pk, revoked) := ownerKey d key
    let code := checkBlock key pk revoked (d.hedge.prgCtr ≤ hdrField h 0x14 4) ctxPrg signed (d.loadBytes (programBase + len) 3392)
    (code, ⟨hdrField h 0x14 4, key, sha512 signed⟩)

/-- PRG_VERIFY ends (R472). -/
def endPrgVerify (d : Dev) : Dev × Nat :=
  let (code, img) := checkProgram d
  if code = 0 then
    (({ d with aqs := { d.aqs with verified := true }, hedge := { d.hedge with prg := some img } }.putB F.HEDGE_STATUS_PRG_VERIFIED true).wr
      R.HEDGE_PRG_SVN (BitVec.ofNat 32 img.svn), 0)
  else ((clearVerified d).putB F.HEDGE_STATUS_PRG_LOCKED false, code)

/-- A counter is raised (R473): the new value and the code. -/
def raiseCounter (ctr want : Nat) : Nat × Nat := if 64 ≤ want && ctr = 64 then (ctr, 0x1410) else (max ctr (min want 64), 0)

/-- FW_UPDATE ends (R465). In recovery the image lies in AQS data SRAM (R464). -/
def endFwUpdate (addr : Nat) (d : Dev) : Dev × Nat :=
  if !noHole d addr 64 then (d, 0x1412)
  else if d.flag F.HEDGE_STATUS_RECOVERY && regionOf d addr ≠ some .data then (d, 0x1402)
  else match Config.fwHeader (d.loadBytes addr 64) with
    | none => (d, 0x1403)
    | some (len, svn, key) =>
      if 1572864 < len then (d, 0x1403)
      else if !noHole d addr (len + 3392) then (d, 0x1412)
      else
        let signed := d.loadBytes addr len
        let n := key - 0x100
        let pk := if key = 0x100 || key = 0x101 then some (Config.fwKey n) else none
        let code := checkBlock key pk (fwRevoked d n) (d.hedge.fwCtr ≤ svn) ctxFw signed (d.loadBytes (addr + len) 3392)
        if code ≠ 0 then (d, code)
        else
          let s : Fin 2 := if d.hedge.running = some 0 then 1 else 0
          let h := d.hedge
          (d.setHedge { h with slots := h.slots.set s.val (some ⟨sha512 signed, svn, n, true⟩)
                               tried := if h.tried = some s then none else h.tried }, 0)

/-- FW_COMMIT ends (R465). -/
def endFwCommit (d : Dev) : Dev × Nat :=
  match d.hedge.running with
  | none => (d, 0)
  | some s =>
    match d.hedge.slots.get s with
    | none => (d, 0)
    | some f =>
      if !f.trial then (d, 0)
      else
        let h := d.hedge
        let d := d.setHedge { h with slots := h.slots.set s.val (some { f with trial := false }), tried := none, fwCtr := max h.fwCtr (min f.svn 64) }
        ((showFuses d).putB F.HEDGE_STATUS_FW_TRIAL false, 0)

/-- The owner slot that an operand names. -/
def slotOf (arg : Nat) : Option (Fin 4) := if h : 1 ≤ arg % 8 ∧ arg % 8 ≤ 4 then some ⟨arg % 8 - 1, by omega⟩ else none

/-- ENROLL ends (R471). -/
def endEnroll (c : HedgeCmd) (fuseFail : Bool) (d : Dev) : Dev × Nat :=
  match slotOf c.arg with
  | none => (d, 0x1402)
  | some s =>
    let o := d.hedge.owners.get s
    if lifecycle d = 3 then (d, 0x140E)
    else if o.fused.isSome then (d, 0x140D)
    else if !noHole d c.addr 1984 then (d, 0x1412)
    else
      let blob := d.loadBytes c.addr 1984
      let burnt := d.hedge.lc = 2 || d.hedge.lc = 3
      let o := { o with blob := some blob, fused := if burnt && !fuseFail then some (keyDigest blob) else none }
      (showFuses (d.setHedge { d.hedge with owners := d.hedge.owners.set s.val o }), if burnt && fuseFail then 0x140F else 0)

/-- Slots that stay usable when `gone` is revoked. -/
def usable (d : Dev) (gone : Option (Fin 4)) (fusedOnly : Bool) : Bool :=
  ownerSlots.any fun s =>
    let o := d.hedge.owners.get s
    gone ≠ some s && !o.revoked && !o.broken && (if fusedOnly then o.fused.isSome else o.blob.isSome)

/-- REVOKE ends (R471). -/
def endRevoke (c : HedgeCmd) (fuseFail : Bool) (d : Dev) : Dev × Nat :=
  match slotOf c.arg with
  | none => (d, 0x1402)
  | some s =>
    if lifecycle d = 3 && !usable d (some s) true then (d, 0x140C)
    else if fuseFail && !(d.hedge.owners.get s).revoked then (d, 0x140F)
    else (showFuses (d.setHedge { d.hedge with owners := d.hedge.owners.set s.val { d.hedge.owners.get s with revoked := true } }), 0)

/-- The confirmation of R469. -/
def confirmed (c : HedgeCmd) : Bool := c.arg / 65536 = Config.deviceId.toNat % 65536

/-- LC_ADVANCE ends (R469). -/
def endLcAdvance (c : HedgeCmd) (fuseFail : Bool) (d : Dev) : Dev × Nat :=
  let target := c.arg % 4
  if !confirmed c then (d, 0x1409)
  else if !((target = 2 || target = 3) && d.hedge.lc + 1 = target) then (d, 0x140A)
  else if target = 3 && Config.variantM = 0 then (d, 0x140B)
  else if !usable d none false then (d, 0x140C)
  else if fuseFail then (d, 0x140F)
  else if target = 2 then
    let fuse (o : OwnerSlot) : OwnerSlot := { o with fused := match o.blob with | some b => some (keyDigest b) | none => o.fused }
    (showFuses ((d.setHedge { d.hedge with lc := 2, owners := d.hedge.owners.map fuse }).put F.HEDGE_STATUS_LC 2), 0)
  else (showFuses (d.setHedge { d.hedge with lc := 3, debugLock := true }), 0)

/-- RING_KEY ends (R482): the 32 bytes are loaded, for the next tick on, and overwritten, or the slot is cleared. -/
def endRingKey (c : HedgeCmd) (d : Dev) : Dev × Nat :=
  let slot := c.arg % 2
  let set (v : Option (List Byte)) (d : Dev) : Dev :=
    (d.setIfl { d.ifl with keyDue := d.ifl.keyDue ++ [(Fin.ofNat 2 slot, v)] }).put F.IFL_MGMT_KEY_LOADED (setBits (d.get F.IFL_MGMT_KEY_LOADED) slot slot v.isSome.toNat)
  if bitsOf c.arg 8 8 = 1 then (set none d, 0)
  else if !canWrite d c.addr 32 then (d, 0x1412)
  else (fabricStore (set (some (d.loadBytes c.addr 32)) d) c.addr (List.replicate 32 0), 0)

/-- The effect of a command at its end, and its code. `rnd` is the entropy of a signature. -/
def hedgeEnds (c : HedgeCmd) (fuseFail : Bool) (rnd : List Byte) (d : Dev) : Dev × Nat :=
  if c.addr % 64 ≠ 0 && [1, 2, 6, 8, 12].contains c.op then (d, 0x1402)
  else if d.flag F.HEDGE_STATUS_RECOVERY && c.op ≠ 6 then (d, if c.op = 2 || c.op = 14 then 0x1414 else 0x1402)
  else match c.op with
    | 1 =>
      if c.arg ≠ 1 && c.arg ≠ 2 then (d, 0x1402)
      else if !canWrite d c.addr 5472 then (d, 0x1412)
      else (fabricStore d c.addr (((if c.arg = 1 then identityCert else aliasCert d) ++ List.replicate 5472 0).take 5472), 0)
    | 2 =>
      if !noHole d c.addr 64 || !canWrite d (c.addr + 64) 3712 then (d, 0x1412)
      else (fabricStore d (c.addr + 64) (c.report ++ akSign d ctxAtt c.report rnd), 0)
    | 3 => endPrgVerify d
    | 4 => if anyCtxActive d then (d, 0x1411) else ((clearVerified d).putB F.HEDGE_STATUS_PRG_LOCKED false, 0)
    | 5 =>
      match d.hedge.prg with
      | none => (d, 0x1402)
      | some p =>
        let (v, code) := raiseCounter d.hedge.prgCtr p.svn
        if fuseFail && v ≠ d.hedge.prgCtr then (d, 0x140F) else (showFuses (d.setHedge { d.hedge with prgCtr := v }), code)
    | 6 => endFwUpdate c.addr d
    | 7 =>
      let (e, code) := endFwCommit d
      if fuseFail && e.hedge.fwCtr ≠ d.hedge.fwCtr then (d, 0x140F) else (e, code)
    | 8 => endEnroll c fuseFail d
    | 9 => endRevoke c fuseFail d
    | 10 => endLcAdvance c fuseFail d
    | 11 =>
      if !confirmed c then (d, 0x1409)
      else if fuseFail && !d.hedge.debugLock then (d, 0x140F)
      else (showFuses (d.setHedge { d.hedge with debugLock := true }), 0)
    | 12 => endRingKey c d
    | 13 =>
      let (v, code) := raiseCounter d.hedge.calCtr (c.arg % 64)
      if fuseFail && v ≠ d.hedge.calCtr then (d, 0x140F) else (showFuses (d.setHedge { d.hedge with calCtr := v }), code)
    | 14 => ({ d with sealing := { d.sealing with flush := true } }, 0)
    | _ => (d, 0x1402)

/-- HEDGE_CMD_DONE (R483): operand memory did not respond; a burn failed its read-back; 32 bytes of entropy. -/
def hedgeCmdDone (timeout fuseFail : Bool) (rnd : BitVec 256) (d : Dev) : Dev :=
  match d.hedge.cmd with
  | none => d
  | some c =>
    let usesMem := [1, 2, 3, 6, 8, 12].contains c.op
    let (d, code) := if timeout && usesMem then
        (if c.op = 3 then (clearVerified d).putB F.HEDGE_STATUS_PRG_LOCKED false else d, 0x1413)
      else hedgeEnds c fuseFail (leBytes 32 rnd.toNat) d
    let d := (d.setHedge { d.hedge with cmd := none }).putB F.HEDGE_STATUS_BUSY false
    (hedgeCode code d).post .k evHedgeDone c.op code

/-! ### Sealed records (R479 to R481) -/

/-- The body bytes of input i of a leaf; a held record's continue at the start of the partition (R178, R479). -/
def leafBody (d : Dev) (l : Leaf) (i : Nat) : List Byte :=
  let n := divUp l.samples 3 * 4
  if l.hold then
    let o := (l.bodyAddr - captureBase) % l.part
    (List.range n).map (fun j => d.byte (captureBase + i * l.part + (o + j) % l.part))
  else d.loadBytes (l.bodyAddr + i * l.inStride) n

/-- The digest of a leaf (R479). -/
def leafDigest (d : Dev) (l : Leaf) : List Byte :=
  sha512 (BitVec.ofNat 8 l.ty :: leBytes 4 l.stream ++ leBytes 4 l.num ++ d.loadBytes l.hdrAddr l.hdrLen
    ++ (if l.ty = 2 then [] else ((List.range l.inputs).map (leafBody d l)).flatten)
    ++ (if l.ty = 3 then d.loadBytes l.tlistAddr (16 * l.ntrig) else []))

/-- The header in memory is still the leaf's (R177, R480). -/
def leafHeaderHolds (d : Dev) (l : Leaf) : Bool :=
  if l.ty = 4 then d.load l.hdrAddr 4 ≠ 0xFFFFFFFF
  else d.load l.hdrAddr 4 = 0x52434147 && d.load (l.hdrAddr + 0x9C) 4 = sealWord l.stream (l.num + 1)

def codeValue (code : Nat) : List Byte := leBytes 2 code ++ List.replicate 62 0

/-- Leaf values go to the leaf ring in leaf order, as far as they are known. -/
def writeLeaves : List Leaf → Dev → Dev
  | [], d => { d with sealing := { d.sealing with waiting := [] } }
  | l :: ls, d =>
    let v := if l.value.isEmpty && l.code ≠ 0 then codeValue l.code else l.value
    if v.isEmpty then { d with sealing := { d.sealing with waiting := l :: ls } }
    else
      let a := d.rd64 R.HEDGE_LEAF_BASE_LO / 64 * 64 + 64 * (l.num % 2 ^ d.sealing.leafLog)
      let d := if inDramOrData d a 64 then fabricStore d a v else d
      writeLeaves ls { d with sealing := { d.sealing with ready := d.sealing.ready ++ [⟨l.stream, l.num, v, l.code ≠ 0, l.final⟩] } }

/-- The addresses and lengths that HEDGE reads for a leaf (R479). -/
def leafRanges (l : Leaf) : List (Nat × Nat) :=
  let n := divUp l.samples 3 * 4
  (l.hdrAddr, l.hdrLen) :: (if l.ty = 3 then [(l.tlistAddr, 16 * l.ntrig)] else [])
    ++ (if l.ty = 2 || l.hold then [] else (List.range l.inputs).map (fun i => (l.bodyAddr + i * l.inStride, n)))

/-- LEAF_HASHED (R479, R480): one of the eight engines ends with leaf `n`; whether its reads were served, and whether both
reads of the header agreed. -/
def leafHashed (n : Nat) (served same : Bool) (d : Dev) : Dev :=
  match ((d.sealing.waiting.filter (·.unhashed)).take 8).find? (fun l => l.num == n && l.written) with
  | none => d
  | some l =>
    let readable := (leafRanges l).all (fun r => noHole d r.1 r.2 && !burstPoisoned d r.1 r.2)
    let code := if !served || !readable then 0x1417 else if !same || !leafHeaderHolds d l then 0x1416 else 0
    let l' := { l with code := code, value := if code = 0 then leafDigest d l else codeValue code }
    let d := { d with sealing := { d.sealing with waiting := d.sealing.waiting.map (fun x => if x = l then l' else x) } }
    let d := if code = 0 then d else countSkip (hedgeCode code d) n
    showPend (writeLeaves d.sealing.waiting d)

/-- The leaves that the next seal covers: those of the oldest leaf's stream, 65,536 at most (Table 19.7). -/
def sealed (s : Seal) : List LeafValue :=
  match s.ready with
  | [] => []
  | l :: _ => (s.ready.takeWhile (fun x => x.stream == l.stream)).take 65536

/-- SEAL_DECISION (R481): a batch is ready, an arm's last unit is hashed, SEAL_FLUSH was given, or the oldest leaf has waited
PERIOD. No seal is decided while the seal ring is full. -/
def sealDecision (aged : Bool) (d : Dev) : Dev :=
  let d := writeLeaves d.sealing.waiting d
  let s := d.sealing
  let full : Bool := decide (2 ^ s.ringLog ≤ ((d.rd R.HEDGE_SEAL_WR).toNat + 2 ^ 32 - (d.rd R.HEDGE_SEAL_RD).toNat) % 2 ^ 32)
  let due := s.batch ≤ s.ready.length || (0 < s.mark && s.mark ≤ s.ready.length) || s.flush || (aged && d.get F.HEDGE_SEAL_PERIOD_MS ≠ 0)
  if !akReady d || full || s.decided.isSome || !due then d
  else
    let n := (sealed s).length
    if n = 0 then { d with sealing := { s with flush := false } }
    else
      let ts : TS := BitVec.ofNat 96 (d.aqs.tick.toNat * 2 ^ 32)
      { d with sealing := { s with decided := some (n, (sealed s).any (·.final), ts, (d.rd R.CAL_COUNT).toNat)
                                   flush := s.flush && decide (n < s.ready.length) } }

/-- SEAL_WRITTEN (R481, Table 19.7), with the entropy of its signature. -/
def sealWritten (rnd : BitVec 256) (d : Dev) : Dev :=
  let s := d.sealing
  match s.decided, s.ready with
  | some (n, last, ts, cal), l :: _ =>
    let ls := s.ready.take n
    let root := sha512 (ls.map (·.value)).flatten
    let unhashed := (ls.filter (·.coded)).length
    let body := leBytes 4 0xFC4C4553 ++ leBytes 2 1 ++ leBytes 2 last.toNat ++ leBytes 4 192 ++ leBytes 4 l.stream
      ++ leBytes 8 Config.deviceId.toNat ++ leBytes 4 l.num ++ leBytes 4 n ++ leBytes 12 ts.toNat ++ leBytes 4 unhashed ++ leBytes 4 cal
      ++ leBytes 12 0 ++ (root ++ List.replicate 64 0).take 64 ++ (s.prev ++ List.replicate 64 0).take 64
    let slot := body ++ akSign d ctxRec body (leBytes 32 rnd.toNat) ++ List.replicate 512 0
    let wrp := (d.rd R.HEDGE_SEAL_WR).toNat
    let a := d.rd64 R.HEDGE_SEAL_BASE_LO / 4096 * 4096 + 4096 * (wrp % 2 ^ s.ringLog)
    let d := if inDramOrData d a 4096 then fabricStore d a slot else d
    let d := { d with sealing := { s with decided := none, ready := s.ready.drop n, mark := s.mark - n, prev := sha512 body } }
    (d.wr R.HEDGE_SEAL_WR (BitVec.ofNat 32 (wrp + 1))).post .k evHedgeSeal 0 (l.num % 2 ^ 24 + n * 2 ^ 32)
  | _, _ => d

/-! ### Bundles (R474) -/

/-- HEDGE's verification of a calibration bundle: the code of R337, or 0. -/
def checkBundle (d : Dev) (a : Nat) : Nat :=
  let h := d.loadBytes a 64
  let key := hdrField h 0x1C 4
  let seq := hdrField h 0x18 4
  if !inDramOrData d a 19840 || a % 64 ≠ 0 then 0x0E0E
  else if hdrField h 0 4 ≠ 0xFC444E42 || hdrField h 4 2 ≠ 1 || hdrField h 6 2 ≠ 0x40 || hdrField h 8 4 ≠ 16448 || 32 ≤ hdrField h 0x0C 4
      || hdrField h 0x20 32 ≠ 0 then 0x0E0E
  else
    let (pk, revoked) := ownerKey d key
    if checkBlock key pk revoked true ctxCal (d.loadBytes a 16448) (d.loadBytes (a + 0x4040) 3392) ≠ 0 then 0x0E0E
    else if hdrField h 0x10 8 ≠ Config.deviceId.toNat then 0x0E0B
    else if seq ≤ d.hedge.bundleSeq || bitsOf seq 31 26 < d.hedge.calCtr then 0x0E0F
    else 0

end Sys2Proof.Machine
end

