-- ==== Sys2Proof/Machine/Cal.lean ====
section
/-! DEFINITION. CAL (chapter 13): procedures, applying results, staleness, the trim image and bundles; and the end of start-up,
which the first calibration brings. -/
namespace Sys2Proof.Machine

def evCalDone : Nat := 0x381
def evCalFail : Nat := 0x382
def evCalStale : Nat := 0x383
def evCalRestored : Nat := 0x384

def calCode (c : Nat) (d : Dev) : Dev := d.put F.CAL_STATUS_LAST_CODE c
def Dev.setCal (d : Dev) (c : Cal) : Dev := { d with cal := c }
def procFull : Nat := 0
def procInterleave : Nat := 1
def procThreshold : Nat := 2
def procTimebase : Nat := 3

/-- CAL is busy with a procedure, requested or running, or with a bundle; SAVE and RESTORE are one step each. -/
def calBusy (d : Dev) : Bool := d.cal.proc.isSome || d.cal.bundle.isSome

/-! ### The trim image (R332, R333) -/

/-- The header of the live image (Table 13.3). -/
def imageHeader (d : Dev) : List Byte :=
  leBytes 4 0x494C4143 ++ leBytes 2 1 ++ leBytes 2 0x40 ++ leBytes 4 16384 ++ leBytes 4 (d.rd R.CAL_COUNT).toNat
    ++ leBytes 8 Config.deviceId.toNat ++ leBytes 1 Config.variantM.toNat ++ leBytes 1 0xB0 ++ zeros 38

/-- One arrangement set of the live image (Table 13.4): what is in effect, proposals included. -/
def imageSet (d : Dev) (s : Nat) : List Byte :=
  let base := calSetBase s
  leBytes 1 (bitsOf (d.get F.CAL_STATUS_SET_VALID) s s) ++ liveBytes d (base + 1) 3
    ++ [0, 1, 2, 3].flatMap (fun b => leBytes 1 ((d.ef (retireKey s b)).toNat % 64)) ++ liveBytes d (base + 8) 0x38
    ++ [0, 1, 2, 3].flatMap (fun b => leBytes 4 (d.ef (setKey s (R.CONV_b_CH_TRIM b))).toNat)
    ++ [0, 1, 2, 3].flatMap (fun b => (List.range 33).flatMap fun k =>
      leBytes 4 (d.ef (setKey s (R.CONV_b_TRIMA b k))).toNat ++ leBytes 4 (d.ef (setKey s (R.CONV_b_TRIMB b k))).toNat)
    ++ zeros 0x390

/-- The live image, with its CRC. -/
def liveImage (d : Dev) : List Byte :=
  withCrc (imageHeader d ++ leBytes 1 (d.get F.CAL_STATUS_TB_VALID) ++ liveBytes d 0x41 0x7F ++ leBytes 1 (d.get F.CAL_STATUS_OWL_VALID)
    ++ liveBytes d 0xC1 0x33F ++ imageSet d 0 ++ imageSet d 1 ++ imageSet d 2 ++ zeros 0x23FC)

/-- The digest that an attestation report gives of the live image (R476). -/
def trimDigest (d : Dev) : List Byte := sha512 (liveImage d)

def bufWord (d : Dev) (k : Nat) : Word := Store.get (fun _ => 0#32) d.cal.buf k
def bufBytes (d : Dev) : List Byte := (List.range 4096).flatMap (fun k => leBytes 4 (bufWord d k).toNat)

def fillBuf : Nat → List Byte → Store Word → Store Word
  | k, b0 :: b1 :: b2 :: b3 :: bs, m => fillBuf (k + 1) bs (Store.set (fun _ => 0#32) m k (BitVec.ofNat 32 (leNat [b0, b1, b2, b3])))
  | _, _, m => m

def toBuf (image : List Byte) (d : Dev) : Dev := d.setCal { d.cal with buf := fillBuf 0 image [] }

/-- CAL_SAVE (R332): the live image, copied between two vectors, goes to the buffer. -/
def calSave (d : Dev) : Dev := if calBusy d then calCode 0x0E01 d else calCode 0 (toBuf (liveImage d) d)

/-! ### Checking and applying an image (R334, R335) -/

/-- A valid set of an image is in range: SKEW within ±200, RETIRE a slot or 63, reserved bytes 0. -/
def setInRange (m : List Byte) (s : Nat) : Bool :=
  let base := calSetBase s
  let retireOk (b : Nat) : Bool := let r := hdrField m (base + 4 + b) 1; decide (r ≤ 31) || r == 63
  let skewOk (i : Nat) : Bool :=
    let x := signedOf 9 (bitsOf (hdrField m (base + 0x54 + 8 * i) 4) 24 16)
    decide (-200 ≤ x) && decide (x ≤ 200)
  hdrField m base 1 ≠ 1
    || ([0, 1, 2, 3].all retireOk && (List.range 132).all skewOk && hdrField m (base + 2) 2 == 0 && hdrField m (base + 0x470) 0x390 == 0)

/-- The code of R334 for an image, or 0; IMAGE_SEALED apart. -/
def imageCode (m : List Byte) : Nat :=
  if hdrField m 0 4 ≠ 0x494C4143 || hdrField m 4 2 ≠ 1 || hdrField m 6 2 ≠ 0x40 || hdrField m 8 4 ≠ 16384
      || crc32 (m.take 0x3FFC) ≠ BitVec.ofNat 32 (hdrField m 0x3FFC 4) then 0x0E0A
  else if hdrField m 0x10 8 ≠ Config.deviceId.toNat || hdrField m 0x18 1 ≠ Config.variantM.toNat || hdrField m 0x19 1 ≠ 0xB0 then 0x0E0B
  else if !(setInRange m 0 && setInRange m 1 && setInRange m 2) then 0x0E0C
  else 0

/-- The words of a set that CONV and ILV hold: key and value. -/
def imageWords (m : List Byte) (s : Nat) : List (Nat × Word) :=
  let base := calSetBase s
  let w (o : Nat) : Word := BitVec.ofNat 32 (hdrField m (base + o) 4)
  [0, 1, 2, 3].map (fun b => (retireKey s b, BitVec.ofNat 32 (hdrField m (base + 4 + b) 1)))
    ++ [0, 1, 2, 3].map (fun b => (setKey s (R.CONV_b_CH_TRIM b), w (0x40 + 4 * b) &&& 0xFFF0FFF#32))
    ++ [0, 1, 2, 3].flatMap (fun b => (List.range 33).flatMap fun k =>
      [(setKey s (R.CONV_b_TRIMA b k), w (0x50 + 0x108 * b + 8 * k) &&& 0x3FF03FF#32),
       (setKey s (R.CONV_b_TRIMB b k), w (0x54 + 0x108 * b + 8 * k) &&& 0x1FF003F#32)])

def bytesAt (m : List Byte) (a n : Nat) : List Byte := (m.drop a).take n

/-- Ticks of a second. -/
def ticksPerSecond : Nat := 312500000

/-- After a restore, age counts from TS_ILV if that has come already, else from now (R330). -/
def ageStart (d : Dev) (m : List Byte) (s : Nat) : Nat :=
  let t := hdrField m (calSetBase s + 0x1C) 12 / 2 ^ 32
  if t ≤ nowTick d then t else nowTick d

def setAge (s t : Nat) (d : Dev) : Dev :=
  d.setCal { d.cal with ageFrom := if s = 0 then d.cal.ageFrom.set 0 t else if s = 1 then d.cal.ageFrom.set 1 t else d.cal.ageFrom.set 2 t }

/-- One arrangement set of an accepted image. -/
def applySet (m : List Byte) (d : Dev) (s : Nat) : Dev :=
  let base := calSetBase s
  if hdrField m base 1 ≠ 1 then setValid s false d
  else
    let d := setAge s (ageStart d m s) d
    if s = d.arr then
      let d := { d with conv := { d.conv with calSet := imageWords m s } }
      d.setCal { d.cal with nextSet := some (s, bytesAt m base 0x40) }
    else
      let e := (imageWords m s).foldl (fun d w => (d.wr w.1 w.2).efw w.1 w.2) d
      setValid s true (putLive (owe (Fin.ofNat 3 s) d e) base (bytesAt m base 0x40))

/-- An accepted image applies, section by section, those that `sections` names (R335). -/
def applyImage (m : List Byte) (sections : Nat) (d : Dev) : Dev :=
  let has (i : Nat) : Bool := bitsOf sections i i == 1
  let d := ([0, 1, 2].filter has).foldl (applySet m) d
  let d := if has 3 then d.setCal { d.cal with timing := some (bytesAt m 0x40 0x50) } else d
  let d := if has 4 then d.setCal { d.cal with owl := some (bytesAt m 0xC0 0x60) } else d
  d.count R.CAL_COUNT

/-- At a tick: a restored OWL section applies, and a restored timing section while nothing is armed or open (R335). -/
def calTick (d : Dev) : Dev :=
  let d := match d.cal.owl with
    | none => d
    | some bs =>
      let ok := hdrField bs 0 1 == 1
      let d := (d.setCal { d.cal with owl := none }).putB F.CAL_STATUS_OWL_VALID ok
      if ok then putLive d 0xC0 bs else d
  match d.cal.timing with
  | none => d
  | some bs =>
    if d.armed || capOpen d then d
    else
      let ok := hdrField bs 0 1 == 1
      let d := (d.setCal { d.cal with timing := none }).putB F.CAL_STATUS_TB_VALID ok
      if ok then putLive d 0x40 bs else d

/-- CAL_RESTORE (R334, R335). -/
def calRestore (d : Dev) : Dev :=
  if calBusy d then calCode 0x0E01 d
  else
    let m := bufBytes d
    let code := imageCode m
    let code := if code = 0 && d.sealedState then 0x0E0D else code
    if code ≠ 0 then calCode code d
    else (calCode 0 (applyImage m 0x1F d)).post .q evCalRestored 0 0x1F

/-! ### Bundles (R336, R337) -/

/-- CAL_BUNDLE: HEDGE is to verify the bundle at the latched address. -/
def calBundle (d : Dev) : Dev :=
  if calBusy d then calCode 0x0E01 d else d.setCal { d.cal with bundle := some (d.rd64 R.CAL_BUNDLE_ADDR_LO) }

/-- BUNDLE_DONE. -/
def bundleDone (d : Dev) : Dev :=
  match d.cal.bundle with
  | none => d
  | some a =>
    let d := d.setCal { d.cal with bundle := none }
    let code := checkBundle d a
    let m := d.loadBytes (a + 0x40) 16384
    let code := if code = 0 then imageCode m else code
    if code ≠ 0 then calCode code d
    else
      let h := d.loadBytes a 64
      let sections := hdrField h 0x0C 4
      let d := { d with hedge := { d.hedge with bundleSeq := hdrField h 0x18 4 } }
      (calCode 0 (applyImage m sections d)).post .q evCalRestored 1 sections

/-! ### Staleness (R330) -/

/-- The conditions of R330 for the set in use: bit 0 invalid, bit 1 age, bit 2 temperature. -/
def staleBits (d : Dev) : Nat :=
  let s := d.arr
  let from' := match s with | 0 => d.cal.ageFrom.get 0 | 1 => d.cal.ageFrom.get 1 | _ => d.cal.ageFrom.get 2
  let age := d.cfg F.CAL_STALE_CFG_AGE
  let temp := d.cfg F.CAL_STALE_CFG_TEMP
  let at' := signedOf 16 (leNat (liveBytes d (calSetBase s + 0x2A) 2))
  (bitsOf (d.get F.CAL_STATUS_SET_VALID) s s == 0).toNat
    + 2 * (age != 0 && decide (age * ticksPerSecond < nowTick d - from')).toNat
    + 4 * (temp != 0 && decide (temp * 4 < (d.getS F.PWR_TEMP_CAL_TEMP - at').natAbs)).toNat

/-- CAL_STALE_EVAL, once per millisecond. -/
def calStaleEval (d : Dev) : Dev :=
  let d := if hasPart d .calStale then applyUnit d .calStale else d
  let bits := staleBits d
  let was := d.flag F.CAL_STATUS_STALE
  let d := d.putB F.CAL_STATUS_STALE (bits != 0)
  if bits ≠ 0 && !was then d.post .q evCalStale d.arr bits else d

/-! ### Procedures (R320 to R329) -/

/-- The code of R321 for a request, or 0. -/
def calRefusal (d : Dev) (v : Nat) : Nat :=
  let proc := v % 8
  let arr := bitsOf v 5 4
  if calBusy d then 0x0E01
  else if d.mode = mCount || d.phase ≠ 0 || !d.flag F.GLB_STATUS_READY then 0x0E02
  else if 4 ≤ proc || (arr = 3 && proc ≠ procThreshold) then 0x0E03
  else if (proc = procInterleave || proc = procTimebase) && bitsOf (d.get F.CAL_STATUS_SET_VALID) arr arr = 0 then 0x0E04
  else 0

/-- The module leaves CALIBRATE for the mode and arrangement it came from, unless a request already takes it elsewhere (R60). -/
def calReturn (d : Dev) : Dev :=
  let home := d.cal.home
  let d := (d.setCal { d.cal with proc := none, begun := false, home := none }).setUnit .cal stOff
  match home with
  | none => d
  | some (mode, arr) => if d.phase = 0 then beginMode mode arr false d else d

/-- A procedure fails (R324). The FULL of a start-up is retried up to twice (R331); while the sample loop is not locked each
retry fails at once too. -/
def calFailedN : Nat → Nat → Dev → Dev
  | 0, _, d => d
  | k + 1, code, d =>
    match d.cal.proc with
    | none => d
    | some (proc, _, _) =>
      let d := (calCode code d).post .q evCalFail proc code
      if d.cal.startup && d.cal.tries < 2 then
        let d := d.setCal { d.cal with tries := d.cal.tries + 1 }
        if d.flag F.STAG_STATUS_SL_LOCK then d else calFailedN k 0x0E07 d
      else calReturn d

def calFailed (code : Nat) (d : Dev) : Dev := calFailedN 3 code d

/-- A procedure begins: CAL_CTRL and CAL_REF_VALUE are taken; without a locked sample loop it fails at once, but for
THRESHOLD. A procedure aborted before it began only returns. -/
def calBegin (d : Dev) : Dev :=
  match d.cal.proc with
  | none => if d.cal.home.isSome then calReturn d else d
  | some (proc, _, _) =>
    let d := takeLatched d .cal
    let d := ((d.setCal { d.cal with begun := true }).put F.CAL_STATUS_PROC proc).putB F.CAL_STATUS_MEASURE_ONLY d.sealedState
    if proc ≠ procThreshold && !d.flag F.STAG_STATUS_SL_LOCK then calFailed 0x0E07 d else d

/-- CAL_START (R321): a write of the request register. -/
def calStart (v : Nat) (d : Dev) : Dev :=
  let c := calRefusal d v
  if c ≠ 0 then calCode c d
  else
    let proc := v % 8
    let d := d.setUnit .cal stOn
    let d := d.setCal { d.cal with proc := some (proc, bitsOf v 5 4 % 3, bitsOf v 15 8), begun := false, home := none }
    if d.mode = mCalibrate then calBegin d
    else
      let d := d.setCal { d.cal with home := some (d.mode, d.arr) }
      let d := beginMode mCalibrate d.arr false d
      { d with mod := { d.mod with forCal := true } }

/-- CAL_ABORT (R324): the procedure ends within the time of Table 2.8. -/
def calAbortCmd (d : Dev) : Dev := if d.cal.proc.isSome then abortUnit d .cal else d

/-- The abort of a procedure has ended. -/
def calAborted (d : Dev) : Dev :=
  if d.unitState .cal ≠ stAborting then d
  else
    let d := calCode 0x0E08 d
    if d.cal.begun then calReturn d else (d.setCal { d.cal with proc := none }).setUnit .cal stOff

/-- CAL_FAIL: with `reading`, the voltage in µV that phase 2 of FULL found across CAL_REFP and CAL_REFN (R323); without, the
sample loop has lost lock (R324). -/
def calFail (reading : Option Nat) (d : Dev) : Dev :=
  match d.cal.proc with
  | none => d
  | some (proc, _, _) =>
    if !d.cal.begun || d.unitState .cal = stAborting then d
    else match reading with
      | none => if proc ≠ procThreshold && !d.flag F.STAG_STATUS_SL_LOCK then calFailed 0x0E07 d else d
      | some r =>
        let v := d.cfg F.CAL_REF_VALUE_UV
        if proc ≠ procFull || d.cal.startup || d.cfgB F.CAL_CTRL_REF_SRC then d
        else if r < 500000 then calFailed 0x0E05 d
        else if v < ((r : Int) - v).natAbs * 50 then calFailed 0x0E06 d
        else d

/-- SL_UNLOCK (R114, R324). -/
def slUnlock (d : Dev) : Dev := if d.flag F.STAG_STATUS_SL_LOCK then calFail none (slUnlockCore d) else d

/-- A sub-converter that fails the test of R88 within a procedure: its flag is set, and it is retired in the set directly when
the spare is free (R325, R92). -/
def calRetire (s : Nat) (d : Dev) (f : Fin 4 × Nat) : Dev :=
  let b := f.1.val
  let k := f.2
  let was := if k < 32 then (d.rd (R.ILV_b_FAIL b)).getLsbD k else d.flag (F.ILV_b_SPARE_SPARE_FLAG b)
  let d := if k < 32 then d.wr (R.ILV_b_FAIL b) (d.rd (R.ILV_b_FAIL b) ||| (1#32 <<< k)) else d.putB (F.ILV_b_SPARE_SPARE_FLAG b) true
  let d := if was then d else d.post .c evSubconvFlag b (k + 512)
  if retireOf d s b ≠ 63 then ((ilvCode d 0x0302).putB (F.ILV_b_SPARE_DEGRADED b) true).post .c evConvDegraded b k
  else if d.cfg F.ILV_CTRL_SWAP = 0 || 32 ≤ k then d
  else
    let d := (d.wr (retireKey s b) (BitVec.ofNat 32 k)).efw (retireKey s b) (BitVec.ofNat 32 k)
    if s = d.arr then followRetire true d b else d

/-- A trim proposal's codes at a procedure's end: the fields that the procedure sets. -/
def calTrim (proc s : Nat) (d : Dev) (p : TrimProp) : Dev :=
  let q := (clampProp p).1
  let ka := setKey s (R.CONV_b_TRIMA p.bank p.sub)
  let kb := setKey s (R.CONV_b_TRIMB p.bank p.sub)
  let oldB := (d.ef kb).toNat
  let bw : Int := if proc = procFull then q.bw else signedOf 6 oldB
  let b := BitVec.ofNat 32 (encodeSigned 9 q.skew * 2 ^ 16 + encodeSigned 6 bw)
  let d := if proc = procTimebase then d else (d.wr ka (propWordA q)).efw ka (propWordA q)
  (d.wr kb b).efw kb b

def overChan (c : Fin 4 × Int × Int) : Bool := c.2.1 < -2048 || 2047 < c.2.1 || c.2.2 < -2048 || 2047 < c.2.2

/-- One input's channel trims: gain and offset codes. -/
def calChan (s : Nat) (d : Dev) (c : Fin 4 × Int × Int) : Dev :=
  let k := setKey s (R.CONV_b_CH_TRIM c.1)
  let w := BitVec.ofNat 32 (encodeSigned 12 (clampInt (-2048) 2047 c.2.1) * 2 ^ 16 + encodeSigned 12 (clampInt (-2048) 2047 c.2.2))
  (d.wr k w).efw k w

def owlEntry (x : Fin 8 × Int × Int × Int × Int) : List Byte :=
  intBytes 2 x.2.1 ++ intBytes 2 x.2.2.1 ++ intBytes 2 x.2.2.2.1 ++ intBytes 2 x.2.2.2.2

/-- The timing section (Table 13.3). -/
def calTiming (delays : List Int) (d : Dev) : Dev :=
  let trace := match d.get F.STAG_STATUS_TB_SRC with | 1 => 1 | 2 => 2 | _ => 0
  let d := putLive d 0x40 (leBytes 1 1 ++ leBytes 1 trace ++ zeros 2 ++ leBytes 2 (d.get F.PWR_TEMP_CAL_TEMP) ++ zeros 2 ++ tsBytes d.stag.now)
  let d := putLive d 0x58 (((delays ++ List.replicate 7 0).take 7).flatMap (intBytes 8))
  d.putB F.CAL_STATUS_TB_VALID true

/-- The OWL section (Table 13.3): the monitors of the mask. -/
def calOwl (mask : Nat) (owls : List (Fin 8 × Int × Int × Int × Int)) (d : Dev) : Dev :=
  let d := putLive d 0xC0 (leBytes 1 1 ++ zeros 1 ++ leBytes 2 (d.get F.PWR_TEMP_CAL_TEMP) ++ zeros 4 ++ tsBytes d.stag.now)
  let d := owls.foldl (fun d x => if bitsOf mask x.1 x.1 = 1 then putLive d (0xE0 + 8 * x.1.val) (owlEntry x) else d) d
  d.putB F.CAL_STATUS_OWL_VALID true

/-- All results of a procedure applied together (R327): trims, corrections, count, timestamps and temperatures. -/
def calApply (proc s mask : Nat) (r : CalResult) (d : Dev) : Dev :=
  let base := calSetBase s
  let full := proc = procFull
  let ilv := full || proc = procInterleave
  let ext := !d.cal.startup && !d.cfgB F.CAL_CTRL_REF_SRC
  let temp := d.get F.PWR_TEMP_CAL_TEMP
  let d := d.count R.CAL_COUNT
  let count := (d.rd R.CAL_COUNT).toNat
  let d := if full then r.chans.foldl (calChan s) d else d
  let d := if proc = procThreshold then d else r.trims.foldl (calTrim proc s) d
  let d := if !ilv then d else
    let failed := r.failed ++ ((r.trims.filter (fun p => (clampProp p).2)).map (fun p => (p.bank, p.sub))).filter (fun x => !r.failed.contains x)
    failed.foldl (calRetire s) d
  let d := if full then
      putLive (setValid s true d) (base + 1) (leBytes 1 (if ext then 2 else 1))
    else d
  let d := if full then
      putLive (putLive (putLive d (base + 8) (leBytes 4 (if ext then d.cfg F.CAL_REF_VALUE_UV else r.refUv)))
        (base + 0x10) (tsBytes d.stag.now)) (base + 0x28) (leBytes 2 temp)
    else d
  let d := if ilv then setAge s (nowTick d) (putLive (putLive d (base + 0x1C) (tsBytes d.stag.now)) (base + 0x2A) (leBytes 2 temp)) else d
  let d := if proc = procThreshold then d else putLive d (base + 0x0C) (leBytes 4 count)
  let d := if full || proc = procTimebase then
      calTiming r.delays (r.planes.foldl (fun d x => putLive d (base + 0x2C + 4 * x.1.val) (intBytes 4 x.2)) d)
    else d
  let d := if full then calOwl 255 r.owls d else if proc = procThreshold then calOwl mask r.owls d else d
  let d := d.put F.CAL_LAST_TEMP_TEMP temp
  [0, 1, 2].foldl (fun d k => d.wr (R.CAL_LAST_TS k) (BitVec.ofNat 32 (d.stag.now.toNat / 2 ^ (32 * k)))) d

/-- CAL_DONE (R325, R327, R329): a procedure ends. Under SEALED it applies nothing, and the image it would have produced goes to
the buffer. -/
def calDone (r : CalResult) (d : Dev) : Dev :=
  match d.cal.proc with
  | none => d
  | some (proc, s, mask) =>
    if !d.cal.begun || d.unitState .cal = stAborting then d
    else
      let sat (x : Nat) : Nat := min x 65535
      let d := (d.wr R.CAL_RESULT0 (BitVec.ofNat 32 (sat r.gainPpm * 65536 + sat r.offsetUv))).wr R.CAL_RESULT1
        (BitVec.ofNat 32 (sat r.skewFs * 65536 + sat r.thresh))
      let lim := (proc = procFull && r.chans.any overChan) || (proc ≠ procThreshold && r.trims.any (fun p => (clampProp p).1 != p))
      let e := calApply proc s mask r d
      let e := owe (Fin.ofNat 3 s) d e
      let d := if d.sealedState then toBuf (liveImage e) d else e
      let d := calCode (if lim then 0x0E09 else 0) d
      calReturn (d.post .q evCalDone proc (if d.sealedState then 0 else (d.rd R.CAL_COUNT).toNat))

/-! ### Start-up (R331, R494) -/

def evPwrReady : Nat := 0x541

/-- E7 of Table 20.4: a module whose training and loops are done enters CALIBRATE for FULL on QUAD. -/
def startupCal (d : Dev) : Dev :=
  if d.pwr.up && !d.flag F.GLB_STATUS_READY && !d.cal.startup && d.phase = 0 && d.ddr.training.isNone && d.get F.PWR_STATUS_PHASE = 6 then
    let d := (d.put F.PWR_STATUS_PHASE 7).setUnit .cal stOn
    let d := d.setCal { d.cal with proc := some (procFull, 0, 255), begun := false, home := some (mSentry, 0), startup := true, tries := 0 }
    let d := beginMode mCalibrate 0 false d
    { d with mod := { d.mod with forCal := true } }
  else d

/-- E8: SENTRY, disarmed, READY. -/
def startupEnd (d : Dev) : Dev :=
  let d := d.setCal { d.cal with startup := false, tries := 0 }
  let d := ((d.put F.PWR_STATUS_PHASE 8).putB F.PWR_STATUS_READY true).putB F.GLB_STATUS_READY true
  d.post .k evPwrReady 0 (d.get F.DDR_READY_READY + 65536 * bitsOf (d.get F.CAL_STATUS_SET_VALID) 0 0 + 131072 * (!tbUnref d).toNat)

end Sys2Proof.Machine
end

