-- ==== Sys2Proof/Machine/Cfgc.lean ====
section
/-! DEFINITION. CFGC (chapter 10): staging and clamps of configuration writes, commits, table checks, and handing a commit out
to the units. -/
namespace Sys2Proof.Machine

def Dev.setCfgc (d : Dev) (c : Cfgc) : Dev := { d with cfgc := c }
def clRange : Nat := 0x0101
def clCode : Nat := 0x0102
def clAlign : Nat := 0x0103
def clDependent : Nat := 0x0104
def clReserved : Nat := 0x0105

/-! ### Sequence numbers, keys, values -/

/-- The value of the sequence counter after `s`: it skips values whose low 16 bits are 0 (R272). -/
def seqAfter (s : Nat) : Nat := let t := (s + 1) % 2 ^ 32; if t % 65536 = 0 then t + 1 else t

/-- Assign the next sequence number. -/
def takeSeq (d : Dev) : Dev × Nat :=
  let s := d.cfgc.next
  ((d.setCfgc { d.cfgc with next := seqAfter s }).wr R.CFGC_SEQ (BitVec.ofNat 32 s), s)

/-- ILV_b_SPARE, whose only committed field is RETIRE. -/
def spareBank (a : Nat) : Option (Fin 4) :=
  if a = R.ILV_b_SPARE 0 then some 0 else if a = R.ILV_b_SPARE 1 then some 1
  else if a = R.ILV_b_SPARE 2 then some 2 else if a = R.ILV_b_SPARE 3 then some 3 else none

/-- The key under which the committed value of a configuration register is kept: trims and retired slots belong to the set
addressed (R79). -/
def cfgKey (d : Dev) (a : Nat) : Nat :=
  match spareBank a with
  | some b => retireKey d.conv.addressed.val b
  | none => trimKey d a

/-- The register that a key stands for. -/
def keyReg (k : Nat) : Nat := k % 2 ^ 32

/-- The staged value of a register, else its committed value (R10, R276). -/
def cfgValue (d : Dev) (a : Nat) : Nat :=
  match d.cfgc.staged.find? (fun w => w.addr == a) with
  | some w => w.val.toNat
  | none => match spareBank a with
    | some b => (d.rd (retireKey d.conv.addressed.val b)).toNat % 64
    | none => (d.rd (trimKey d a)).toNat

/-- What CFGC_STATUS shows. -/
def showCfgc (d : Dev) : Dev :=
  let d := (d.put F.CFGC_STATUS_STAGED d.cfgc.staged.length).putB F.CFGC_STATUS_BUSY (!d.cfgc.commits.isEmpty)
  d.putB F.CFGC_STATUS_PENDING (!d.cfgc.commits.isEmpty || !d.cfgc.waits.isEmpty)

/-- LAST_CODE shows the codes of host accesses. -/
def hostCode (r : Requester) (c : Nat) (d : Dev) : Dev := if r = .host then d.put F.CFGC_STATUS_LAST_CODE c else d

/-- A report against a register (Table 10.9); the values of a pair are 64 bits wide. -/
def reportAt (d : Dev) (seq a req app code : Nat) : Dev :=
  fileReport d (seq % 65536) (a % 0x100000 / 4) (req % 2 ^ 32) (app % 2 ^ 32) (req / 2 ^ 32 != app / 2 ^ 32) (a / 0x100000) code

/-! ### Clamps of single fields (R273) -/

/-- A rule on a register's value: the code of its report and the value that stands. -/
abbrev ClampRule := Nat × (Nat → Nat)

def onField (hi lo : Nat) (f : Nat → Nat) (v : Nat) : Nat := setBits v hi lo (f (bitsOf v hi lo))
/-- A field's range, and a code from which on another stands. -/
def inRange (hi lo a b : Nat) : ClampRule := (clRange, onField hi lo (clampNat a b))
def badCode (hi lo first good : Nat) : ClampRule := (clCode, onField hi lo (fun x => if first ≤ x then good else x))
/-- Codes of `n` equal subfields of `w` bits from bit 0. -/
def subCodes (n w first good : Nat) : ClampRule :=
  (clCode, fun v => (List.range n).foldl (fun v i => onField (i * w + w - 1) (i * w) (fun x => if first ≤ x then good else x) v) v)
/-- A line of SDEC_d_CFG: the codes that its CLASS allows (Table 6.10). -/
def lineCode (hi lo : Nat) : ClampRule :=
  (clCode, fun v => onField hi lo (fun x => if x < (if bitsOf v 27 27 = 1 then 8 else 4) || x = 15 then x else 15) v)

/-- The rules of the registers that stand alone, by the offset of their first copy. -/
def singleRules (off : Nat) : List ClampRule :=
  if off = R.CONV_b_TRIMB 0 0 then [(clRange, onField 24 16 (fun x => encodeSigned 9 (clampInt (-200) 200 (signedOf 9 x))))]
  else if off = R.ILV_CTRL then [inRange 8 4 16 26, badCode 3 2 3 2]
  else if off = R.ILV_b_SPARE 0 then [badCode 5 0 32 63]
  else if off = R.STAG_TB_CTRL then [inRange 31 24 1 200, badCode 19 18 3 2, badCode 9 8 3 2]
  else if off = R.STAG_SL_DIV then [inRange 30 0 (52 * 2 ^ 24) (67 * 2 ^ 24 + 3355443)]
  else if off = R.PULSE_u_CFG 0 then [badCode 29 28 3 0]
  else if off = R.FOX_x_CFG 0 then [badCode 31 28 9 0, badCode 27 24 12 0, badCode 23 22 3 2]
  else if off = R.FOX_PATTERN then [subCodes 4 3 5 0]
  else if off = R.FOX_QUAL then [subCodes 12 2 3 0]
  else if off = R.FOX_SEQ_COUNT then [inRange 31 0 1 (2 ^ 32 - 1)]
  else if off = R.FOX_EXT then [badCode 1 0 3 2]
  else if off = R.FOX_KERNEL then [badCode 1 0 3 1]
  else if off = R.FOX_TRIGOUT then [badCode 29 28 3 0, inRange 15 0 2 65535]
  else if off = R.SDEC_d_CFG 0 then [badCode 30 28 6 0, lineCode 23 20, lineCode 19 16, lineCode 15 12, lineCode 11 8]
  else if off = R.SDEC_d_MATCH 0 then [badCode 26 24 6 1]
  else if off = R.LYNX_n_CFG 0 then
    [badCode 29 28 3 0, badCode 27 26 3 2, (clCode, onField 20 16 (fun x => if x = 0x17 || 0x1A ≤ x then 0 else x))]
  else if off = R.LYNX_n_EPOCH 0 then [inRange 4 0 10 24]
  else if off = R.LYNX_n_WM 0 then [inRange 12 0 0 4096]
  else if off = R.CAP_CTRL then [inRange 12 8 0 24]
  else if off = R.RED_p_CFG 0 then [badCode 27 26 3 0, badCode 25 24 3 0, badCode 23 22 3 2, inRange 20 16 4 16]
  else if off = R.RED_p_GROUP 0 then [inRange 16 0 2 65536]
  else if off = R.RED_p_DST 0 then [badCode 31 30 3 0]
  else if off = R.STK_TARGET then [inRange 24 0 1 (2 ^ 24)]
  else if off = R.STK_HIST then [inRange 26 16 1 1024, inRange 3 0 6 10]
  else if off = R.CAL_REF_VALUE then [inRange 20 0 900000 1100000]
  else if off = R.BADGER_CTRL then [inRange 15 8 1 255]
  else if off = R.BADGER_PIPE 0 then
    [badCode 9 8 3 2, (clCode, onField 7 0 (fun x => if x % 4 = 0 then 0 else x))]
  else if off = R.BADGER_r_CFG 0 then [(clCode, onField 23 16 (fun x => if x = 0 then 255 else x)), inRange 3 0 4 12]
  else if off = R.DDR_CTRL then [inRange 12 8 8 16]
  else if off = R.DDR_ARB then [inRange 25 16 1 1000, inRange 5 0 1 50]
  else if off = R.DDR_RATE_CFG then [inRange 20 16 10 20, inRange 10 0 0 1024]
  else if off = R.BEAVER_ARB then [inRange 6 0 1 100]
  else if off = R.BEAVER_CH_n_CFG 0 then [inRange 20 16 0 20]
  else if off = R.IFL_TT then [inRange 15 8 1 255, badCode 5 4 3 2, inRange 3 0 10 15]
  else if off = R.IFL_RING then [inRange 31 24 1 255, inRange 9 0 1 1000]
  else if off = R.IFL_MGMT then [inRange 4 0 16 24]
  else if off = R.IFL_SCHED_LEAD then [inRange 15 0 64 65535]
  else if off = R.IFL_RX_CFG then [inRange 3 0 4 12]
  else if off = R.PWR_THERM_CFG then
    [inRange 7 0 60 105, (clRange, fun v => onField 15 8 (clampNat (bitsOf v 7 0 + 5) 110) v)]
  else []

/-- The UI of 300 baud, × 2^−32 tick. -/
def uiMax : Nat := 312500000 * 2 ^ 32 / 300

/-- The rules of the register pairs, by the offset of the _LO half of their first copy. -/
def pairRules (off : Nat) : List ClampRule :=
  if off = R.PULSE_u_WIDTH_LO 0 then [inRange 47 0 64 320000000000]
  else if off = R.LYNX_n_GATE_LO 0 then [inRange 47 0 1 (2 ^ 48 - 1)]
  else if off = R.SDEC_d_UI_LO 0 || off = R.SDEC_d_UI2_LO 0 then [inRange 63 0 0x2800000 uiMax]
  else if off = R.FOX_HOLDOFF_LO then [(clRange, fun v => onField 48 0 (min (if bitsOf v 63 63 = 1 then 2 ^ 32 else 2 ^ 48)) v)]
  else if off = R.BADGER_r_BASE_LO 0 then [(clAlign, fun v => v / 64 * 64)]
  else if off = R.STK_SPILL_LO || off = R.STK_HDR_LO then [(clAlign, fun v => v / 64 * 64)]
  else if off = R.IFL_RX_BASE_LO then [(clAlign, fun v => v / 2048 * 2048)]
  else []

/-- The value after the rules, and the codes of those that changed it. -/
def clampBy : List ClampRule → Nat → Nat × List Nat
  | [], v => (v, [])
  | r :: rs, v =>
    let w := r.2 v
    let x := clampBy rs w
    (x.1, if w = v then x.2 else r.1 :: x.2)

/-! ### Configuration writes (R272, R273) -/

def rowBits (r : RegRow) : Nat := (BitVec.ofNat 32 r.rw ||| BitVec.ofNat 32 r.ro ||| BitVec.ofNat 32 r.wo).toNat
def andNat (a b : Nat) : Nat := (BitVec.ofNat 32 a &&& BitVec.ofNat 32 b).toNat

/-- Writes that R80 refuses under SEALED. -/
def sealedWrite (d : Dev) (r : Requester) (a : Nat) : Bool :=
  d.sealedState && (match r with | .host | .ctx _ => true | _ => false) && (isTrim a || (spareBank a).isSome)

/-- Words of the staging set with one more. -/
def stageWord (l : List Staged) (w : Staged) : List Staged := l.filter (fun x => x.addr != w.addr) ++ [w]

def reportAll (seq a req app : Nat) : List Nat → Dev → Dev
  | [], d => d
  | c :: cs, d => reportAll seq a req app cs (reportAt d seq a req app c)

/-- A write that CFGC refuses: its report, and its code. -/
def refuseWrite (r : Requester) (seq a v code : Nat) (d : Dev) : Dev × Nat :=
  (hostCode r code (reportAt d seq a v (cfgValue d a) code), code)

/-- CONFIG_WRITE: a write to a configuration register; its code, 0 when it is staged or, a _LO half, held. -/
def cfgWrite (r : Requester) (a v : Nat) (d : Dev) : Dev × Nat :=
  match findReg a with
  | none => (d, 0x0107)
  | some (row, _) =>
    if !row.cfg then (d, 0x0107)
    else
      let (d, seq) := takeSeq d
      if sealedWrite d r a then refuseWrite r seq a v 0x0106 d
      else match row.part with
        | .lo =>
          let held := d.halves.filter (fun h => !(h.req == r && h.addr == a))
          (hostCode r 0 { d with halves := held ++ [⟨r, a, BitVec.ofNat 32 v, seq⟩] }, 0)
        | .hi =>
          let lo := a - 4
          let half := d.halves.find? (fun h => h.req == r && h.addr == lo)
          let d := { d with halves := d.halves.filter (fun h => !(h.req == r && h.addr == lo)) }
          let loV := match half with | some h => h.val.toNat | none => cfgValue d lo
          let new := [lo, a].filter (fun x => !d.cfgc.staged.any (fun w => w.addr == x))
          if 4096 < d.cfgc.staged.length + new.length then refuseWrite r seq a v 0x0112 d
          else
            let loMask := match findReg lo with | some (x, _) => x.rw | none => 0
            let req := loV + 2 ^ 32 * v
            let kept := andNat loV loMask + 2 ^ 32 * andNat v row.rw
            let (app, codes) := clampBy (match findReg lo with | some (x, _) => pairRules x.off | none => []) kept
            let codes := (if kept = req then [] else [clReserved]) ++ codes
            let staged := stageWord (stageWord d.cfgc.staged ⟨lo, BitVec.ofNat 32 app, seq⟩) ⟨a, BitVec.ofNat 32 (app / 2 ^ 32), seq⟩
            let d := reportAll seq lo req app codes (d.setCfgc { d.cfgc with staged := staged })
            (hostCode r (codes.getLastD 0) (showCfgc d), 0)
        | _ =>
          if !d.cfgc.staged.any (fun w => w.addr == a) && 4096 ≤ d.cfgc.staged.length then refuseWrite r seq a v 0x0112 d
          else
            let (app, codes) := clampBy (singleRules row.off) (andNat v row.rw)
            let codes := (if andNat v (rowBits row) = v then [] else [clReserved]) ++ codes
            let d := d.setCfgc { d.cfgc with staged := stageWord d.cfgc.staged ⟨a, BitVec.ofNat 32 app, seq⟩ }
            (hostCode r (codes.getLastD 0) (showCfgc (reportAll seq a v app codes d)), 0)

/-- CONFIG_WRITE as a step of its own. -/
def configWrite (r : Requester) (a v : Nat) (d : Dev) : Dev := (cfgWrite r a v d).1

/-! ### Commits (R272, R274) -/

def isCfgReg (a : Nat) : Bool := match findReg a with | some (r, _) => r.cfg | none => false

/-- A commit request: its code, and its sequence number. -/
def cfgCommit (r : Requester) (d : Dev) : Dev × Nat × Nat :=
  if 8 ≤ d.cfgc.commits.length then (hostCode r 0x0114 d, 0x0114, 0)
  else
    let (d, seq) := takeSeq d
    let words := d.cfgc.staged.map (fun w => { w with addr := cfgKey d w.addr })
    let c : Commit := ⟨seq, words, d.halves.filter (fun h => isCfgReg h.addr)⟩
    let d := { d with halves := d.halves.filter (fun h => !isCfgReg h.addr) }
    let d := d.setCfgc { d.cfgc with staged := [], commits := d.cfgc.commits ++ [c] }
    (showCfgc (hostCode r 0 (d.wr R.CFGC_COMMIT_SEQ (BitVec.ofNat 32 seq))), 0, seq)

/-- CFGC_COMMIT. -/
def cfgcCommit (r : Requester) (d : Dev) : Dev := (cfgCommit r d).1

/-- CFGC_DISCARD (R272). -/
def cfgcDiscard (r : Requester) (d : Dev) : Dev := showCfgc (hostCode r 0 (d.setCfgc { d.cfgc with staged := [] }))

/-- A write of CFGC_CMD: COMMIT first. -/
def cfgcCmd (r : Requester) (v : Nat) (d : Dev) : Dev :=
  let d := if bitsOf v 0 0 = 1 then cfgcCommit r d else d
  if bitsOf v 1 1 = 1 then showCfgc (d.setCfgc { d.cfgc with staged := [] }) else d

/-! ### Rules that relate fields (R274) -/

/-- The words a commit will hand out, and the reports of its checks: SEQ, key, requested, applied, code. -/
structure CommitView where
  words : List Staged
  reps : List (Nat × Nat × Nat × Nat × Nat)
deriving DecidableEq, Repr

namespace CommitView

def has (v : CommitView) (k : Nat) : Bool := v.words.any (fun w => w.addr == k)
def seqOf (v : CommitView) (k : Nat) : Nat := match v.words.find? (fun w => w.addr == k) with | some w => w.seq | none => 0
/-- The value that will stand after the commit. -/
def reg (d : Dev) (v : CommitView) (k : Nat) : Nat :=
  match v.words.find? (fun w => w.addr == k) with | some w => w.val.toNat | none => (d.rd k).toNat
def fld (d : Dev) (v : CommitView) (f : Field) : Nat := bitsOf (v.reg d f.reg) f.hi f.lo
def reg64 (d : Dev) (v : CommitView) (k : Nat) : Nat := v.reg d k + 2 ^ 32 * v.reg d (k + 4)
def touches (v : CommitView) (block : Nat) : Bool := v.words.any (fun w => keyReg w.addr / 0x100000 == block)
def setWord (v : CommitView) (k x : Nat) : CommitView :=
  let s := v.seqOf k
  { v with words := v.words.filter (fun w => w.addr != k) ++ [⟨k, BitVec.ofNat 32 x, s⟩] }

/-- Let `x` stand for a register, with a report. -/
def put (d : Dev) (v : CommitView) (k x code : Nat) : CommitView :=
  let old := v.reg d k
  if old = x then v else { v.setWord k x with reps := v.reps ++ [(v.seqOf k, k, old, x, code)] }

def put64 (d : Dev) (v : CommitView) (k x code : Nat) : CommitView :=
  let old := v.reg64 d k
  if old = x then v
  else { (v.setWord k (x % 2 ^ 32)).setWord (k + 4) (x / 2 ^ 32) with reps := v.reps ++ [(v.seqOf k, k, old, x, code)] }

def putF (d : Dev) (v : CommitView) (f : Field) (x code : Nat) : CommitView := v.put d f.reg (setBits (v.reg d f.reg) f.hi f.lo x) code

/-- A report against a register whose committed word stands. -/
def complain (d : Dev) (v : CommitView) (k code : Nat) : CommitView :=
  { v with reps := v.reps ++ [(v.seqOf k, k, v.reg d k, v.reg d k, code)] }

/-- A report against a register whose word is refused: the value committed before stands. -/
def refuse (d : Dev) (v : CommitView) (k code : Nat) : CommitView :=
  { v with reps := v.reps ++ [(v.seqOf k, k, v.reg d k, (d.rd k).toNat, code)] }

/-- A unit refuses what was committed for it: its words leave the commit. -/
def drop (v : CommitView) (p : Nat → Bool) : CommitView := { v with words := v.words.filter (fun w => !p w.addr) }

end CommitView

/-- R304. -/
def owlRule (d : Dev) (v : CommitView) (n : Fin 8) : CommitView :=
  let u := v.fld d (F.OWL_n_THRESH_UPPER n)
  let l := v.fld d (F.OWL_n_THRESH_LOWER n)
  if v.fld d (F.OWL_n_CFG_SENSE n) ≤ 1 && signedOf 12 u < signedOf 12 l then v.putF d (F.OWL_n_THRESH_LOWER n) u clDependent else v

/-- R313. -/
def pulseRule (d : Dev) (v : CommitView) (u : Fin 4) : CommitView :=
  let least := v.reg64 d (R.PULSE_u_WIDTH_LO u) + 64
  if v.reg64 d (R.PULSE_u_PERIOD_LO u) < least then v.put64 d (R.PULSE_u_PERIOD_LO u) least clDependent else v

/-- R124, on one event unit. -/
def foxUnitRule (d : Dev) (v : CommitView) (x : Fin 2) : CommitView :=
  let v := if v.fld d (F.FOX_x_CFG_TYPE x) = 2 && 2 ≤ v.fld d (F.FOX_x_CFG_REL x) then v.putF d (F.FOX_x_CFG_REL x) 0 clDependent else v
  let u := v.fld d (F.FOX_x_LEVEL_UPPER x)
  let v := if signedOf 16 u < signedOf 16 (v.fld d (F.FOX_x_LEVEL_LOWER x)) then v.putF d (F.FOX_x_LEVEL_LOWER x) u clDependent else v
  let l := v.reg64 d (R.FOX_x_LIM1_LO x)
  if v.reg64 d (R.FOX_x_LIM2_LO x) < l then v.put64 d (R.FOX_x_LIM2_LO x) l clDependent else v

/-- The module as it will be configured once the commit is in effect, for the minimum delay of R148. -/
def standing (d : Dev) (v : CommitView) : Dev :=
  let fox (k : Nat) : Bool := let b := k / 0x100000; b == 7 || b == 8 || k == R.STAG_SL_DIV
  let regs := (d.regs.filter (fun e => fox e.1)) ++ (v.words.filter (fun w => fox w.addr)).map (fun w => (w.addr, w.val))
  regs.foldl (fun d e => d.efw e.1 e.2) { d with eff := d.eff.filter (fun e => !fox e.1) }

/-- R149: a commit that covers the delay. -/
def trigoutRule (d : Dev) (v : CommitView) : CommitView :=
  if v.has R.FOX_TRIGOUT_DELAY then
    let m := min (2 ^ 20 - 1) (trigoutMin (standing d v))
    if v.fld d F.FOX_TRIGOUT_DELAY_DELAY < m then v.putF d F.FOX_TRIGOUT_DELAY_DELAY m clDependent else v
  else v

/-- R282 and R288. -/
def lynxRule (d : Dev) (v : CommitView) (n : Fin 8) : CommitView :=
  let v := if v.fld d (F.LYNX_n_CFG_PRESCALE n) ≠ 0 && v.fld d (F.LYNX_n_CFG_EDGE n) = 2 then v.putF d (F.LYNX_n_CFG_EDGE n) 0 clDependent else v
  if n.val % 2 = 0 then v
  else
    let v := if v.fld d (F.LYNX_n_CFG_MODE n) = 1 then v.putF d (F.LYNX_n_CFG_MODE n) 0 clDependent else v
    let m : Fin 8 := n - 1
    if v.fld d (F.LYNX_n_CFG_EN m) = 1 && v.fld d (F.LYNX_n_CFG_MODE m) = 1 then v.putF d (F.LYNX_n_CFG_EN n) 0 clDependent else v

/-- CAP_ACQ_HDR is rounded down at commit. -/
def capRule (d : Dev) (v : CommitView) : CommitView :=
  if v.has R.CAP_ACQ_HDR_LO then v.put64 d R.CAP_ACQ_HDR_LO (v.reg64 d R.CAP_ACQ_HDR_LO / 64 * 64) clAlign else v

/-- R211 and R348. -/
def redRule (d : Dev) (v : CommitView) (p : Fin 4) : CommitView :=
  let most := match v.fld d (F.RED_p_CFG_FORMAT p) with | 1 => 10 | 2 => 8 | _ => 16
  let v := if most < v.fld d (F.RED_p_CFG_K p) then v.putF d (F.RED_p_CFG_K p) most clDependent else v
  if v.fld d (F.RED_p_DST_KIND p) = 1 && v.fld d (F.RED_p_DST_LANES p) = 0 then v.putF d (F.RED_p_DST_LANES p) 255 clDependent else v

/-- R363 and R373. -/
def ddrRule (d : Dev) (v : CommitView) : CommitView :=
  let en := v.fld d F.DDR_CTRL_EN
  let held := (BitVec.ofNat 12 en ||| BitVec.ofNat 12 (stripeNamed d)).toNat
  let v := if held ≠ en then v.putF d F.DDR_CTRL_EN held clDependent else v
  let map := v.reg64 d R.DDR_SCRAMBLE_LO
  let nibbles := (List.range 16).map (fun x => map / 16 ^ x % 16)
  if (List.range 16).all nibbles.contains then v else v.put64 d R.DDR_SCRAMBLE_LO 0xFEDCBA9876543210 clDependent

/-- R400: a channel that a step of the committed schedule names stays enabled. -/
def beaverRule (d : Dev) (v : CommitView) : CommitView :=
  let off := v.fld d F.BEAVER_SCHED_OFFSET * 64
  if v.fld d F.BEAVER_SCHED_EN = 0 || !schedOk d off then v
  else dmaChannels.foldl (fun (v : CommitView) (n : Fin 32) =>
    if v.fld d (F.BEAVER_CH_n_CFG_EN n) = 0 && (List.range (schedNstep d off)).any (fun j => schedChannel d off j == n.val)
    then v.putF d (F.BEAVER_CH_n_CFG_EN n) 1 clDependent else v) v

/-- R424. ADDR and VALID stay while a pair has JOIN at 1; a JOIN whose condition fails stays 0. -/
def iflRule (d : Dev) (v : CommitView) : CommitView :=
  let v := if v.has R.IFL_ADDR && allPairs.any (fun (x : Fin 3) => d.flag (F.IFL_x_CFG_JOIN x)) then
      v.put d R.IFL_ADDR (d.rd R.IFL_ADDR).toNat clDependent
    else v
  let valid := v.fld d F.IFL_ADDR_VALID = 1
  let addr := v.fld d F.IFL_ADDR_ADDR
  let may (x : Fin 3) : Bool := valid && (match x with | 0 => true | 1 => addr % 64 = 0 | 2 => addr % 4096 = 0)
  allPairs.foldl (fun (v : CommitView) (x : Fin 3) =>
    if v.fld d (F.IFL_x_CFG_JOIN x) = 1 && !may x then v.putF d (F.IFL_x_CFG_JOIN x) 0 clDependent else v) v

/-- The rules, in ascending block index: those before the capture plan's check (R183), and those after it. -/
def relateBefore (d : Dev) (v : CommitView) : CommitView :=
  let v := if v.touches 5 then monitors.foldl (owlRule d) v else v
  let v := if v.touches 6 then pipes.foldl (pulseRule d) v else v
  let v := if v.touches 7 then trigoutRule d ([0, 1].foldl (foxUnitRule d) v) else v
  let v := if v.touches 9 then lynxInputs.foldl (lynxRule d) v else v
  capRule d v
def relateAfter (d : Dev) (v : CommitView) : CommitView :=
  let v := if v.touches 12 then pipes.foldl (redRule d) v else v
  let v := if v.touches 16 then ddrRule d v else v
  let v := if v.touches 17 then beaverRule d v else v
  if v.touches 19 then iflRule d v else v

/-! ### Table checks (R264, R265) -/

def tableInvalid : Nat := 0x0109

/-- A commit on its way through the checks: the module, the words, the reports filed so far. -/
abbrev Checking := Dev × CommitView × Nat

/-- The capture plan (R183). The clamps of its entries are filed at once. -/
def checkPlanField (s : Checking) : Checking :=
  let (d, v, n) := s
  if !v.has R.CAP_PLAN then s
  else
    let off := 64 * v.fld d F.CAP_PLAN_OFFSET
    let sampled := sampledInputs d.arr
    let picked := sampled.filter (fun i => bitsOf (v.fld d F.CAP_CTRL_INMASK) i i == 1)
    let (d, r, ok) := checkPlan (v.seqOf R.CAP_PLAN) d (if picked.isEmpty then sampled else picked).length d.mode
      (v.fld d F.CAP_PLAN_START) off
    if ok then (useTable 0 tyPlan off d, v, n + r)
    else (capCode d 0x0B01, (v.refuse d R.CAP_PLAN tableInvalid).drop (· == R.CAP_PLAN), n + r)

/-- The FIR stages of a pipe (R210, R264): a stage that fails makes the pipe keep its configuration. They are checked at every commit
of RED_p_FIR, and when FIR_EN is committed at 1. -/
def checkFirField (s : Checking) (p : Fin 4) : Checking :=
  let (d, v, n) := s
  let fir := v.has (R.RED_p_FIR p)
  if !(fir || (v.fld d (F.RED_p_CFG_FIR_EN p) = 1 && v.has (R.RED_p_CFG p))) then s
  else
    let o1 := 64 * v.fld d (F.RED_p_FIR_OFF1 p)
    let o2 := v.fld d (F.RED_p_FIR_OFF2 p)
    let ok1 := firOk d o1
    let ok2 := o2 = 0xFFFF || firOk d (64 * o2)
    if ok1 && ok2 then
      let d := useTable (1 + 2 * p.val) tyFir o1 d
      (if o2 = 0xFFFF then d else useTable (2 + 2 * p.val) tyFir (64 * o2) d, v, n)
    else
      let v := if fir && !ok1 then v.refuse d (R.RED_p_FIR p) tableInvalid else v
      let v := if fir && !ok2 then v.refuse d (R.RED_p_FIR p) tableInvalid else v
      (redCode p 0x0C01 d, v.drop (fun k => R.RED_p_CFG p ≤ k && k < R.RED_p_CFG p + 0x100), n)

/-- The interpolation kernel (R135, R264), at every commit of FOX_KERNEL; FOX falls back when it applies the commit. -/
def checkKernelField (s : Checking) : Checking :=
  let (d, v, n) := s
  let off := 16 * v.fld d F.FOX_KERNEL_OFFSET
  if !v.has R.FOX_KERNEL then s
  else if kernelOk d off then (useTable 9 tyKernel off d, v, n)
  else (forgetTable 9 off d, v.complain d R.FOX_KERNEL tableInvalid, n)

/-- The stripe table (R366), at every commit of DDR_STRIPE: with USE a failure, or a channel that is not READY, leaves the stripe in
effect; a commit of USE 0 selects the built-in stripe whatever OFFSET names. -/
def checkStripeField (s : Checking) : Checking :=
  let (d, v, n) := s
  let off := 64 * v.fld d F.DDR_STRIPE_OFFSET
  let use := v.fld d F.DDR_STRIPE_USE = 1
  if !v.has R.DDR_STRIPE then s
  else if !stripeOk d off then
    (d, if use then (v.refuse d R.DDR_STRIPE tableInvalid).drop (· == R.DDR_STRIPE) else v.complain d R.DDR_STRIPE tableInvalid, n)
  else if use && (BitVec.ofNat 12 (stripeChannels d off) &&& ~~~(BitVec.ofNat 12 (readyMask d))) ≠ 0 then
    (ddrCode 0x1003 d, v.drop (· == R.DDR_STRIPE), n)
  else (useTable 10 tyStripe off d, v, n)

/-- The DMA schedule (R264, R400), at every commit of BEAVER_SCHED. -/
def checkSchedField (s : Checking) : Checking :=
  let (d, v, n) := s
  let off := 64 * v.fld d F.BEAVER_SCHED_OFFSET
  if !v.has R.BEAVER_SCHED then s
  else if schedOk d off then (useTable 11 tySchedule off d, v, n)
  else (forgetTable 11 off (d.put F.BEAVER_SCHED_STATUS_LAST_CODE 0x1111), v.complain d R.BEAVER_SCHED tableInvalid, n)

def checkTables (s : Checking) : Checking :=
  checkSchedField (checkStripeField (pipes.foldl checkFirField (checkKernelField s)))

/-! ### Handing out (R275) -/

/-- The unit, or the part of one, that applies a register. -/
def unitOfReg (a : Nat) : CfgUnit :=
  let o := a % 0x100000
  match a / 0x100000 with
  | 2 => .trims
  | 3 => .ilvCtrl
  | 4 => if o = 0 then .stagTb else .stagSl
  | 5 => .owl (Fin.ofNat 8 (o / 0x100))
  | 6 => .pulse (Fin.ofNat 4 (o / 0x100))
  | 7 => .fox
  | 8 => .sdec (Fin.ofNat 4 (o / 0x100))
  | 9 => if a = R.LYNX_EXT_OFFSET then .lynxExt else .lynx (Fin.ofNat 8 (o / 0x100))
  | 11 => .cap
  | 12 => if 0x400 ≤ o then .redFine else .red (Fin.ofNat 4 (o / 0x100))
  | 13 => .stk
  | 14 => if a = R.CAL_STALE_CFG then .calStale else .cal
  | 15 => if o < 0x100 then .badger else .badgerRing (Fin.ofNat 4 ((o - 0x100) / 0x40))
  | 16 => if a = R.DDR_STRIPE then .ddrStripe else .ddr
  | 17 => if o < 0x10 then .beaver else if o < 0x100 then .beaverSched else .beaverCh (Fin.ofNat 32 ((o - 0x100) / 0x40))
  | 19 => if 0x30 ≤ o && o < 0x3C then .iflRx else .ifl
  | _ => .pwr

/-- Units whose fields wait for an arm, START or CLEAR and count as applied when they are latched. -/
def latches : CfgUnit → Bool
  | .cap | .red _ | .redFine | .stk | .lynx _ | .cal | .beaverSched => true
  | _ => false

def mergeWord (l : List CfgWord) (w : CfgWord) : List CfgWord := l.filter (fun x => !(x.tgt == w.tgt && x.addr == w.addr)) ++ [w]

/-- A committed LYNX EN of 0 takes effect on arrival (R299). -/
def lynxDisable (n : Fin 8) (d : Dev) : Dev :=
  let d := d.efw (R.LYNX_n_CFG n) (d.ef (R.LYNX_n_CFG n) &&& 0x7FFFFFFF#32)
  if d.unitState (.lynx n) ≠ stOn then d
  else if !(d.lynx.get n).measuring then lynxOff n d
  else d.setUnit (.lynx n) stDraining

/-- One committed word goes to its unit; `us` collects the units that still have to apply the commit. SL_PENDING shows a waiting
STAG_SL_CTRL as well: DESIGN CHOICE (log 143). -/
def handWord (s : Dev × List CfgUnit) (w : Staged) : Dev × List CfgUnit :=
  let (d, us) := s
  let a := keyReg w.addr
  let d := d.wr w.addr w.val
  match spareBank a with
  | some b =>
    let set := w.addr / 2 ^ 32 - 1
    let d := d.putB (F.ILV_b_SPARE_DEGRADED b) false
    let slot := w.val.toNat % 64
    (if set = d.arr then requestSwap d b slot else requestLater d b slot set, us)
  | none =>
    let u := unitOfReg a
    let add (us : List CfgUnit) (u : CfgUnit) : List CfgUnit := if us.contains u then us else us ++ [u]
    if latches u then
      let d := if a = R.CAP_PLAN then
          { d with cap := { d.cap with lastPlan := d.cap.plan, plan := some (64 * bitsOf w.val.toNat 15 0, bitsOf w.val.toNat 27 16) } }
        else d
      let d := d.setCfgc { d.cfgc with latched := mergeWord d.cfgc.latched ⟨u, w.addr, w.val⟩ }
      match u with
      | .lynx n => (if a = R.LYNX_n_CFG n && !w.val.getLsbD 31 then lynxDisable n d else d, us)
      | _ => (d, us)
    else if a = R.DDR_CTRL then
      let speed := (d.ef a).toNat % 4
      let d := d.setCfgc { d.cfgc with parts := mergeWord d.cfgc.parts ⟨.ddr, w.addr, BitVec.ofNat 32 (w.val.toNat / 4 * 4 + speed)⟩ }
      let us := add us .ddr
      if w.val.toNat % 4 = speed && !d.cfgc.parts.any (fun x => x.tgt == .ddrSpeed) then (d, us)
      else (d.setCfgc { d.cfgc with parts := mergeWord d.cfgc.parts ⟨.ddrSpeed, w.addr, w.val⟩ }, add us .ddrSpeed)
    else
      let d := d.setCfgc { d.cfgc with parts := mergeWord d.cfgc.parts ⟨u, w.addr, w.val⟩ }
      let d := match u with
        | .stagSl => d.putB F.STAG_STATUS_SL_PENDING true
        | .ddrStripe => d.putB F.DDR_STATUS_STRIPE_PENDING true
        | _ => d
      (d, add us u)

/-- Reports of the relations and table checks. -/
def fileReps : List (Nat × Nat × Nat × Nat × Nat) → Dev → Dev
  | [], d => d
  | (seq, k, req, app, code) :: rs, d => fileReps rs (reportAt d seq (keyReg k) req app code)

/-- _LO halves without their _HI half (R274): the value that stands is the one the commit stages, else the committed one (R276). -/
def dropHalves (words : List Staged) : List HeldHalf → Dev → Dev
  | [], d => d
  | h :: hs, d =>
    let stands := match words.find? (fun w => w.addr == cfgKey d h.addr) with | some w => w.val.toNat | none => cfgValue d h.addr
    dropHalves words hs (reportAt d h.seq h.addr h.val.toNat stands 0x0108)

/-- File the reports collected so far. -/
def fileChecks (s : Checking) : Checking :=
  let (d, v, n) := s
  (fileReps v.reps d, { v with reps := [] }, n + v.reps.length)

/-- The steps of R274 on the words of one commit, each reporting before the next. -/
def checkCommit (c : Commit) (d : Dev) : Checking :=
  let s : Checking := (dropHalves c.words c.halves d, ⟨c.words, []⟩, c.halves.length)
  let (d, v, n) := fileChecks (s.1, relateBefore s.1 s.2.1, s.2.2)
  let (d, v, n) := fileChecks (checkPlanField (d, v, n))
  fileChecks (checkTables (fileChecks (d, relateAfter d v, n)))

/-- COMMIT_CHECK_DONE: the oldest commit is checked, reported on, and handed out; in a mode transition it waits for the target
mode (R64). -/
def commitCheckDone (d : Dev) : Dev :=
  match d.cfgc.commits with
  | [] => d
  | c :: cs =>
    let d := d.setCfgc { d.cfgc with commits := cs }
    let (d, v, filed) := checkCommit c d
    let d := if filed = 0 then d else d.post .q evClamp 0 (c.seq + 2 ^ 32 * min filed 65535)
    let words := v.words.mergeSort (fun a b => a.addr ≤ b.addr)
    if d.phase = 0 then
      let (d, us) := words.foldl handWord (d, [])
      showCfgc (unitApplied (d.setCfgc { d.cfgc with waits := d.cfgc.waits ++ [⟨c.seq, us, false⟩] }) [])
    else
      let d := words.foldl (fun d w => d.wr w.addr w.val) d
      showCfgc (d.setCfgc { d.cfgc with withMode := d.cfgc.withMode ++ [⟨c.seq, words, []⟩]
                                        waits := d.cfgc.waits ++ [⟨c.seq, [], true⟩] })

/-! ### COMMIT_APPLY (R275) -/

/-- A unit, or a part of one, reaches its boundary and applies what it was handed. -/
def commitApply (u : CfgUnit) (d : Dev) : Dev :=
  if !hasPart d u then d
  else match u with
    | .trims => d
    | .ilvCtrl => if midSpan d then d else ilvApply d
    | .stagTb => applyUnit d .stagTb
    | .stagSl => slDivApply d
    | .owl n => owlApply n d
    | .pulse n => pulseApply n d
    | .fox => if midSpan d then d else foxApply d
    | .sdec n => if midSpan d then d else sdecApply n d
    | .lynxExt => applyUnit d .lynxExt
    | .badger => badgerApply d
    | .badgerRing r => badgerRingApply r d
    | .ddr => ddrApply d
    | .ddrStripe => stripeApply d
    | .beaver => beaverApply d
    | .beaverCh n => beaverChApply n d
    | .ifl => iflApply d
    | .iflRx => iflRxApply d
    | .calStale | .pwr | .ddrSpeed => d
    | .cap | .red _ | .redFine | .stk | .lynx _ | .cal | .beaverSched => d

/-- COMMIT_APPLY: CFGC_STATUS follows. -/
def commitApplied (u : CfgUnit) (d : Dev) : Dev := showCfgc (commitApply u d)

/-! ### The end of SWITCHING (R51, R54, R60, R64) -/

/-- What was committed during the transition is handed out and takes effect with the target mode (R64). -/
def takeWithMode (d : Dev) : Dev :=
  let hand (s : Dev × List CfgUnit) (c : Commit) : Dev × List CfgUnit :=
    let (d, us) := c.words.foldl handWord (s.1, [])
    let d := d.setCfgc { d.cfgc with waits := d.cfgc.waits.map fun w => if w.deferred && w.seq = c.seq then ⟨c.seq, us, false⟩ else w }
    (d, s.2 ++ us.filter (fun u => !s.2.contains u))
  let (d, us) := d.cfgc.withMode.foldl hand (d.setCfgc { d.cfgc with withMode := [] }, [])
  us.foldl (fun d u => commitApplied u d) (showCfgc (unitApplied d []))

/-- The module is in its target mode and arrangement, disarmed and STABLE. -/
def enterTarget (d : Dev) : Dev :=
  let mode := d.get F.GLB_MODE_STATUS_TGT_MODE
  let arr := d.get F.GLB_MODE_STATUS_TGT_ARR
  let moved := mode ≠ d.mode || arr ≠ d.arr
  let us := d.mod.leaving
  let d := if moved then releaseHeld d else d
  let d := enterArr arr (setPhase 0 (d.put F.GLB_MODE_STATUS_CUR_MODE mode))
  let d := { d with mod := {}, cap := { d.cap with tail := none } }
  let d :=
    if !moved then { d with conv := { d.conv with hold := true } }
    else
      let props := if mode = mCalibrate then [] else d.conv.proposals
      let d := { d with conv := { d.conv with next := Vector.replicate 4 none, hold := true, proposals := props } }
      let d := if isCapture mode then d else estRestart d
      d.setFox { d.fox with vec := Vector.replicate 4 [] }
  let d := takeWithMode d
  let d := if moved || !us.isEmpty then followEnables us d else d
  if moved then trigoutMinRecompute (foxEnterMode d) else d

/-- SWITCH_DONE (R54): EV_MODE_DONE, and CAL's procedure begins when the transition was for it. -/
def switchDone (d : Dev) : Dev :=
  if d.phase ≠ 2 || d.mod.wake then d
  else
    let forCal := d.mod.forCal
    let d := sayModeDone (enterTarget d)
    if forCal then calBegin d
    else if d.cal.startup && d.mode = mSentry then startupEnd d
    else d

/-- WAKE_SWITCH (R51): the woken module is in SINGLE and arms when WAKE_ARM is set. LAST_CODE then reads OK: DESIGN CHOICE
(log 153). -/
def wakeSwitch (d : Dev) : Dev :=
  if d.phase ≠ 2 || !d.mod.wake then d
  else
    let d := modeCode 0 (enterTarget d)
    if d.flag F.GLB_MODE_WAKE_ARM then armFull d else d

end Sys2Proof.Machine
end

