-- ==== Sys2Proof/Machine/Operands.lean ====
section
/-! DEFINITION. The operands of an AQS instruction: the registers of a context (R232), immediates (R235), addresses (R237, R240),
branch targets (R236) and condition codes (Table 9.3). -/
namespace Sys2Proof.Machine

/-- Gj; G0 reads 0 and discards every write (R232). -/
def Ctx.reg (c : Ctx) (j : Fin 16) : Word64 := if j = 0 then 0 else c.g.get j
def Ctx.setReg (c : Ctx) (j : Fin 16) (v : Word64) : Ctx := if j = 0 then c else { c with g := c.g.set j.val v }

/-- An immediate as an offset or an arithmetic operand, and one in ANDI, ORI and XORI (R235). -/
def sext {k : Nat} (imm : BitVec k) : Word64 := imm.signExtend 64
def zext {k : Nat} (imm : BitVec k) : Word64 := imm.setWidth 64

/-- The address [Ga + imm] (R237, R240). -/
def Ctx.address (c : Ctx) (a : Fin 16) (imm : BitVec 18) : Nat := (c.reg a + sext imm).toNat

/-- The last word of program SRAM (R236). -/
def lastPc : BitVec 19 := 524287

/-- PC + IMM22, where it is a PC (R236). -/
def branchTarget (pc : BitVec 19) (imm : BitVec 22) : Option (BitVec 19) :=
  let t : Int := (pc.toNat : Int) + imm.toInt
  if 0 ≤ t ∧ t ≤ 524287 then some (BitVec.ofNat 19 t.toNat) else none

/-- A register as a PC (R236). -/
def pcOf (v : Word64) : Option (BitVec 19) := if v.toNat ≤ 524287 then some (v.setWidth 19) else none

/-- Table 9.3; none for 0xF. -/
def condition (c : Ctx) (code : BitVec 4) : Option Bool :=
  match code.toNat with
  | 0 => some true
  | 1 => some c.z
  | 2 => some !c.z
  | 3 => some (c.n != c.v)
  | 4 => some (c.n == c.v)
  | 5 => some !c.c
  | 6 => some c.c
  | 7 => some c.n
  | 8 => some !c.n
  | 9 => some c.v
  | 10 => some !c.v
  | 11 => some (!c.z && c.n == c.v)
  | 12 => some (c.z || c.n != c.v)
  | 13 => some (c.c && !c.z)
  | 14 => some (!c.c || c.z)
  | _ => none

end Sys2Proof.Machine
end

