-- ==== Sys2Proof/Machine/Aqs.lean ====
section
/-! DEFINITION. The contexts of AQS and their control (R229 to R232, R253 to R257), and the blocks that CFGL stages (R270, R271).
What one instruction does is in AqsIsa. -/
namespace Sys2Proof.Machine

def evCtxHalt : Nat := 0x281
def evCtxFault : Nat := 0x282
def evCtxBreak : Nat := 0x283
def Dev.ctx (d : Dev) (n : Fin 8) : Ctx := d.aqs.ctxs.get n
def Dev.setCtx (d : Dev) (n : Fin 8) (c : Ctx) : Dev := { d with aqs := { d.aqs with ctxs := d.aqs.ctxs.set n.val c } }
def contexts : List (Fin 8) := [0, 1, 2, 3, 4, 5, 6, 7]

/-- Whether the requester is the host: LAST_CODE shows codes of host accesses only (Table 9.10). -/
def aqsCode (r : Requester) (c : Nat) (d : Dev) : Dev := if r = .host then d.put F.AQS_STATUS_LAST_CODE c else d

/-! ### What the registers show -/

/-- RUN (Table 9.1), and the unit state it stands for. -/
def RunState.code : RunState → Nat
  | .stopped => 0
  | .running => 1
  | .waiting => 2
  | .stopping => 3
  | .halted => 4
  | .faulted => 5
  | .brk => 6
  | .aborting => 7

def RunState.unit : RunState → Nat
  | .running | .waiting => stOn
  | .stopping => stDraining
  | .aborting => stAborting
  | .stopped | .halted | .faulted | .brk => stOff

/-- AQS_CTX_n_STATUS (Table 9.13). -/
def ctxStatus (c : Ctx) : Nat :=
  c.code.toNat * 65536 + c.stack.length * 2048 + c.z.toNat * 1024 + c.n.toNat * 512 + c.c.toNat * 256 + c.v.toNat * 128
    + c.run.code * 16 + c.run.unit

/-- AQS_STATUS.FAULTED and ACTIVE (Table 9.10). -/
def aqsBits (d : Dev) : Nat :=
  (contexts.map (fun (n : Fin 8) => let c := d.ctx n
    (if c.run = .faulted then 2 ^ (8 + n.val) else 0) + (if ctxActive c then 2 ^ n.val else 0))).sum

/-- AQS_CTX_n_WATCH(s) (Table 9.18). -/
def watchWord (w : Watch) : Nat := w.ovr.toNat * 2 ^ 24 + w.cnt.toNat * 65536 + w.num.toNat

/-- AQS_CTX_n_EVNUM (Table 9.16). -/
def evnumWord (l : EvLatch) : Nat := l.slot.toNat * 2 ^ 24 + l.sub.toNat * 65536 + l.num.toNat

/-! ### The end of an instruction, and faults -/

/-- The context is at an instruction boundary: a stop or a single step asked for takes effect. -/
def Ctx.settle (c : Ctx) : Ctx :=
  if c.busy ≠ .idle then c
  else match c.run with
    | .stopping | .aborting => { c with run := .stopped, single := false }
    | _ => c

/-- The instruction in progress ends and the context is at `pc`. -/
def Ctx.next (c : Ctx) (pc : BitVec 19) : Ctx :=
  let run := if c.run = .stopping || c.single then .stopped else .running
  { c with pc, busy := .idle, run, single := c.single && run == .running }

/-- A fault (R257): FAULTED at the instruction, with nothing of its effect. -/
def ctxFault (n : Fin 8) (code : Nat) (fpc : BitVec 19) (d : Dev) : Dev :=
  let c := d.ctx n
  let d := d.setCtx n { c with run := .faulted, busy := .idle, single := false, late := none, code := BitVec.ofNat 16 code, faultPc := fpc }
  d.post .q evCtxFault n.val (code + fpc.toNat * 2 ^ 32)

/-- A posted write has timed out and the context is at an instruction boundary: BUS_TIMEOUT_W (R242). -/
def lateFault (n : Fin 8) (d : Dev) : Dev :=
  match (d.ctx n).late with
  | some fpc => if (d.ctx n).busy = .idle then ctxFault n 0x0A09 fpc d else d
  | none => d

/-- A fault at the instruction in progress. -/
def faultHere (n : Fin 8) (code : Nat) (d : Dev) : Dev := ctxFault n code (d.ctx n).pc d

/-! ### CFGL's block (R244, R270, R271) -/

/-- A configuration block may lie in data SRAM, table SRAM or DRAM. -/
def blockSpace (d : Dev) (a n : Nat) : Bool :=
  decide (a < 2 ^ 48) &&
    (rangeRegion d a n = some .data || rangeRegion d a n = some .table || rangeRegion d a n = some .dram)

/-- Records `j` onward of a block at `a`, `left` of them: how many were staged, and whether one was skipped or the set filled. -/
def stageRecords (r : Requester) (a : Nat) : Nat → Nat → Dev → Nat → Bool → Dev × Nat × Nat
  | 0, _, d, staged, skipped => (d, if skipped then 0x0113 else 0, staged)
  | left + 1, j, d, staged, skipped =>
    let rec0 := a + 16 + 8 * j
    let block := d.load rec0 2
    let field := d.load (rec0 + 2) 2
    let v := d.load (rec0 + 4) 4
    let reg := block * 0x100000 + 4 * field
    if 21 < block || 0x8000 ≤ field || !isCfgReg reg then
      let (d, seq) := takeSeq d
      stageRecords r a left (j + 1) (fileReport d (seq % 65536) field v 0 false (block % 32) 0x0107) staged true
    else
      let (d, code) := cfgWrite r reg v d
      if code = 0x0112 then (d, 0x0112, staged)
      else if code = 0 then stageRecords r a left (j + 1) d (staged + 1) skipped
      else stageRecords r a left (j + 1) d staged true

/-- Stage the block at `a`, at most `limit` of its records: the code and the records staged. -/
def stageBlock (r : Requester) (a limit : Nat) (d : Dev) : Dev × Nat × Nat :=
  if a % 8 ≠ 0 || !blockSpace d a 16 then (d, 0x0111, 0)
  else
    let len := d.load (a + 8) 4
    if d.load (a + 4) 2 ≠ 1 || d.load (a + 6) 2 ≠ 0 || len % 8 ≠ 0 || len < 16 || 16 + 8 * 4096 < len then (d, 0x0110, 0)
    else if !blockSpace d a len then (d, 0x0111, 0)
    else stageRecords r a (min limit ((len - 16) / 8)) 0 d 0 false

/-! ### Start, stop, abort (R253 to R256) -/

/-- A start that R255 allows: outside SEALED any; under SEALED, at a declared entry of the verified image. -/
def startAllowed (d : Dev) (pc : BitVec 19) : Bool :=
  !d.sealedState || (d.aqs.verified && (List.range 8).any (fun i => d.load (programBase + 0x20 + 4 * i) 4 == 2 ^ 31 + pc.toNat))

/-- A host START or STEP of a context. -/
def ctxStart (r : Requester) (n : Fin 8) (single : Bool) (d : Dev) : Dev :=
  let c := d.ctx n
  match c.run with
  | .stopped | .halted | .brk | .faulted =>
    if !startAllowed d c.pc then aqsCode r 0x0A12 d
    else d.setCtx n { c with run := .running, single, code := if single then c.code else 0 }
  | _ => aqsCode r 0x0A11 d

/-- STOP, within the cycle of the write that gives it. A wait ends at once, with the PC still at it. -/
def ctxStop (n : Fin 8) (d : Dev) : Dev :=
  let c := d.ctx n
  match c.run with
  | .running => d.setCtx n { c with run := .stopping }
  | .waiting => d.setCtx n { c with run := .stopping, busy := .idle }
  | _ => d

/-- ABORT, within the cycle of the write that gives it; `staged` is how many records CFGC had staged of a CFGL in progress. -/
def ctxAbort (n : Fin 8) (staged : Nat) (d : Dev) : Dev :=
  let c := d.ctx n
  if !ctxActive c then d
  else
    let d := match c.busy with | .cfgl _ a => (stageBlock (.ctx n) a staged d).1 | _ => d
    (withdraw n d).setCtx n { c with run := .aborting, busy := .idle }

/-- The end of that cycle: a stop or an abort with nothing left in progress has stopped the context. -/
def ctxSettle (n : Fin 8) (d : Dev) : Dev := lateFault n (d.setCtx n (d.ctx n).settle)

/-- AQS_CTX_START, AQS_CTX_STEP, AQS_CTX_STOP and AQS_CTX_ABORT, each alone in its write. -/
def aqsCtxStart (r : Requester) (n : Fin 8) (d : Dev) : Dev := ctxStart r n false d
def aqsCtxStep (r : Requester) (n : Fin 8) (d : Dev) : Dev := ctxStart r n true d
def aqsCtxStop (n : Fin 8) (d : Dev) : Dev := ctxSettle n (ctxStop n d)
def aqsCtxAbort (n : Fin 8) (staged : Nat) (d : Dev) : Dev := ctxSettle n (ctxAbort n staged d)

/-- How far a CFGL in progress has come is open where nothing names it. -/
def openProgress (n : Fin 8) (d : Dev) : Nat × Dev :=
  match (d.ctx n).busy with
  | .cfgl _ _ => (d.free.toNat, d.nextFree)
  | _ => (0, d)

/-- A write of AQS_CTX_n_CTRL: ABORT, STOP, START, STEP, each on what the bits before it leave (R254). -/
def ctxCtrl (r : Requester) (n : Fin 8) (v : Nat) (d : Dev) : Dev :=
  let d := if bitsOf v 2 2 = 1 then let (k, d) := openProgress n d; ctxAbort n k d else d
  let d := if bitsOf v 1 1 = 1 then ctxStop n d else d
  let d := if bitsOf v 0 0 = 1 then ctxStart r n false d else d
  let d := if bitsOf v 3 3 = 1 then ctxStart r n true d else d
  ctxSettle n d

/-- SRESET (R256). -/
def sreset (d : Dev) : Dev :=
  let d := contexts.foldl (fun d n => let (k, d) := openProgress n d; ctxAbort n k d) d
  contexts.foldl (fun d n => let c := d.ctx n; d.setCtx n { code := c.code, faultPc := c.faultPc }) d

/-- A write of a PC or a G register: only while the context is not active (R254). -/
def ctxPoke (r : Requester) (n : Fin 8) (f : Ctx → Ctx) (d : Dev) : Dev :=
  if ctxActive (d.ctx n) then aqsCode r 0x0A10 d else d.setCtx n (f (d.ctx n))

end Sys2Proof.Machine
end

