-- ==== Sys2Proof/Machine/Pwr.lean ====
section
/-! DEFINITION. PWR (chapter 20): rails, resets and what they clear, start-up, soft resets, temperature. -/
namespace Sys2Proof.Machine

def evPwrThermal : Nat := 0x542
def evPwrSreset : Nat := 0x543
def Dev.setPwr (d : Dev) (p : Pwr) : Dev := { d with pwr := p }
def pwrCode (c : Nat) (d : Dev) : Dev := d.put F.PWR_STATUS_LAST_CODE c

/-! ### Clearing blocks -/

/-- The block whose soft reset discards what a unit holds of a commit. -/
def cfgUnitBlock : CfgUnit → Nat
  | .trims => 2
  | .ilvCtrl => 3
  | .stagTb | .stagSl => 4
  | .owl _ => 5
  | .pulse _ => 6
  | .fox => 7
  | .sdec _ => 8
  | .lynx _ | .lynxExt => 9
  | .cap => 11
  | .red _ | .redFine => 12
  | .stk => 13
  | .cal | .calStale => 14
  | .badger | .badgerRing _ => 15
  | .ddr | .ddrSpeed | .ddrStripe => 16
  | .beaver | .beaverSched | .beaverCh _ => 17
  | .ifl | .iflRx => 19
  | .pwr => 21

/-- Every register of the blocks named returns to its reset value; held halves and shadows of them go too. -/
def resetRegs (p : Nat → Bool) (d : Dev) : Dev :=
  let keep (a : Nat) : Bool := !p (keyReg a / 0x100000)
  { d with regs := d.regs.filter (fun e => keep e.1), eff := d.eff.filter (fun e => keep e.1)
           halves := d.halves.filter (fun h => keep h.addr), shadows := d.shadows.filter (fun s => keep s.2.1)
           lastLo := d.lastLo.filter (fun e => keep e.1) }

/-- What the units of a block hold of commits is discarded, and counts as applied (R275, R492). -/
def discardCommits (p : Nat → Bool) (d : Dev) : Dev :=
  let gone := (d.cfgc.parts.filter (fun w => p (cfgUnitBlock w.tgt))).map (·.tgt)
  let d := d.setCfgc { d.cfgc with parts := d.cfgc.parts.filter (fun w => !p (cfgUnitBlock w.tgt))
                                   latched := d.cfgc.latched.filter (fun w => !p (cfgUnitBlock w.tgt))
                                   withMode := d.cfgc.withMode.map fun c =>
                                     { c with words := c.words.filter (fun w => !p (keyReg w.addr / 0x100000)) } }
  showCfgc (unitApplied d gone)

/-! ### Soft resets (R492, R493) -/

/-- Blocks that have a soft reset. -/
def hasSreset (i : Nat) : Bool := [5, 6, 7, 8, 9, 11, 12, 13, 15, 17, 19].contains i

/-- Step 1: the block aborts under Table 2.8. -/
def abortBlock (i : Nat) (d : Dev) : Dev :=
  match i with
  | 5 => monitors.foldl (fun d n => setTrip n false (nowTick d * 2 ^ 32) (owlAbort n d)) d
  | 6 => pipes.foldl (fun d u => pulseAbort u d) d
  | 7 => disarm d
  | 8 => pipes.foldl (fun d n => abortUnit d (.sdec n)) d
  | 9 => lynxInputs.foldl (fun d n => lynxAbort n d) d
  | 11 => releaseHeld (capAbort d)
  | 12 => pipes.foldl (fun d p => redAbort p d) d
  | 13 => stkAbort d
  | 15 => badgerAbort d
  | 17 => beaverAbort d
  | 19 => allPairs.foldl (fun d x => iflAbort x d) d
  | _ => d

/-- IFL_MGMT.KEY_LOADED shows the key slots, which outlast every reset of IFL (R482, Table 20.3). -/
def showKeys (d : Dev) : Dev :=
  d.put F.IFL_MGMT_KEY_LOADED (((d.ifl.keys.get 0).isSome).toNat + 2 * ((d.ifl.keys.get 1).isSome).toNat)

/-- Steps 2 and 5: counters and queues are empty and the block is OFF. Key slots survive (R482). -/
def clearBlock (i : Nat) (d : Dev) : Dev :=
  match i with
  | 5 => { [0, 1, 2, 3].foldl (fun d b => if (d.owlSvc.get b).isSome then spareGive b d else d) d with
             owl := Vector.replicate 8 {}, owlSvc := Vector.replicate 4 none }
  | 6 => { d with pulse := Vector.replicate 4 {} }
  | 7 => trigoutMinRecompute { d with fox := {} }
  | 8 => { d with sdec := Vector.replicate 4 {} }
  | 9 => { d with lynx := Vector.replicate 8 {}, ext := {} }
  | 11 => { loseLeaves d with cap := { written := d.cap.written } }
  | 12 => { d with red := Vector.replicate 4 {} }
  | 13 => { d with stk := {} }
  | 15 => { d with badger := {} }
  | 17 => { d with beaver := {} }
  | 19 => showKeys { d with ifl := { keys := d.ifl.takenKeys } }
  | _ => d

def inSreset (d : Dev) (i : Nat) : Bool := i < 22 && d.pwr.sreset.getLsbD i

/-- A soft reset of one block is requested. FOX loses the armed state; any other block leaves it (R49). -/
def softResetBlock (i : Nat) (d : Dev) : Dev :=
  if !hasSreset i then pwrCode 0x1502 d
  else
    let d := resetRegs (· == i) (discardCommits (· == i) (abortBlock i d))
    d.setPwr { d.pwr with sreset := d.pwr.sreset ||| BitVec.ofNat 22 (2 ^ i) }

/-- SOFT_RESET: a write of PWR_SRESET. -/
def softReset (bits : BitVec 22) (d : Dev) : Dev :=
  (List.range 22).foldl (fun d i => if bits.getLsbD i then softResetBlock i d else d) d

/-- SOFT_RESET_DONE: the block is OFF. -/
def softResetDone (i : Fin 22) (d : Dev) : Dev :=
  if !inSreset d i.val then d
  else
    let d := clearBlock i.val d
    let d := d.setPwr { d.pwr with sreset := d.pwr.sreset &&& ~~~(BitVec.ofNat 22 (2 ^ i.val)) }
    d.post .k evPwrSreset i.val

/-! ### Start-up (R494 to R497) -/

/-- PHASE follows the events E4 to E6 of Table 20.4; then the first calibration begins (E7). -/
def startupStep (d : Dev) : Dev :=
  let d := if d.get F.PWR_STATUS_PHASE = 3 && (d.stag.starting || d.stag.counting) then
      (d.setStag { d.stag with searching := slEnabled d }).put F.PWR_STATUS_PHASE 4 else d
  let d := if d.get F.PWR_STATUS_PHASE = 4 && d.flag F.STAG_STATUS_SL_LOCK then d.put F.PWR_STATUS_PHASE 5 else d
  let d := if d.get F.PWR_STATUS_PHASE = 5 && d.ddr.training.isNone then d.put F.PWR_STATUS_PHASE 6 else d
  startupCal d

/-- E2 and E3: the islands are released, S and C on BYCLK; every fitted channel trains; STAG waits for a reference. -/
def releaseIslands (d : Dev) : Dev :=
  let d := (d.setPwr { d.pwr with qUp := true, up := true, refWait := true }).put F.PWR_STATUS_PHASE 3
  let d := d.putB F.STAG_STATUS_ON_BYCLK true
  let d := { d with ddr := { d.ddr with training := some (BitVec.ofNat 12 (d.get F.DDR_ORG_FITTED)) } }
  [0, 1, 2].foldl (fun d (x : Fin 3) => d.putB (F.IFL_x_STATUS_BYPASS x) true) d

/-- All nine rails are within tolerance. -/
def railsOk (d : Dev) : Bool := d.get F.PWR_RAIL_OK == 511

/-- BOOT (R463, R489): island K leaves reset and its ROM runs. -/
def boot (aOk bOk : Bool) (completed : Nat) (broken : BitVec 4) (d : Dev) : Dev :=
  if d.pwr.kUp || d.pwr.modRst || !railsOk d then d
  else hedgeBoot aOk bOk completed broken ((d.setPwr { d.pwr with kUp := true }).put F.PWR_STATUS_PHASE 1)

/-- BOOT_DONE (R494, R464): in recovery only Q and H are released. -/
def bootDone (d : Dev) : Dev :=
  if !d.pwr.kUp || d.pwr.up || !railsOk d then d
  else if d.flag F.HEDGE_STATUS_BOOT_DONE then
    if d.flag F.PWR_STATUS_HELD then d.setPwr { d.pwr with qUp := true } else releaseIslands d
  else if d.flag F.HEDGE_STATUS_RECOVERY then (d.setPwr { d.pwr with qUp := true }).put F.PWR_STATUS_PHASE 2
  else d

/-- REF_WAIT_EXPIRE (R495): without REFIN the count begins in free run. -/
def refWaitExpire (d : Dev) : Dev :=
  if !d.pwr.refWait || d.flag F.STAG_STATUS_REF_OK then d
  else
    let d := pwrCode 0x1503 (d.setPwr { d.pwr with refWait := false })
    startupStep (d.setStag { d.stag with starting := !d.stag.counting })

/-- TIMEBASE_LOCK, SL_LOCK and TRAINING_DONE, with what they mean to start-up. -/
def timebaseLocks (d : Dev) : Dev :=
  let d := timebaseLock d
  startupStep (if d.flag F.STAG_STATUS_TB_LOCK then d.setPwr { d.pwr with refWait := false } else d)
def slLocks (band : BitVec 6) (d : Dev) : Dev := startupStep (slLock band d)
def trainingEnds (ok unsupported : BitVec 12) (d : Dev) : Dev := startupStep (trainingDone ok unsupported d)

/-! ### Resets (R488 to R491) -/

/-- The fuses as a HEDGE command in progress would leave them. -/
def fusesAfter (d : Dev) : Option Fuses :=
  match d.hedge.cmd with
  | none => d.hedge.after
  | some c =>
    let h := (hedgeEnds c false [] d).1.hedge
    some ⟨h.lc, h.debugLock, h.fwCtr, h.prgCtr, h.calCtr, h.owners⟩

/-- HEDGE at a reset of island K: the fuses and the boot store stay, everything else is gone. -/
def hedgeKept (d : Dev) : Hedge :=
  let h := d.hedge
  { lc := h.lc, debugLock := h.debugLock, fwCtr := h.fwCtr, prgCtr := h.prgCtr, calCtr := h.calCtr, owners := h.owners
    slots := h.slots, tried := h.tried, bundleSeq := h.bundleSeq, after := fusesAfter d }

/-- Device memory whose contents stay defined: the SRAMs of Q and table SRAM, while VDD_SRAM held tolerance. -/
def keptSram (d : Dev) (held : Bool) : Store Byte := if held then d.mem.filter (fun e => programBase ≤ e.1) else []

def bumpGen (g : MemGen) (sram : Bool) : MemGen :=
  { dram := g.dram + 1, capture := g.capture + 1, data := g.data + 1, sram := if sram then g.sram + 1 else g.sram }

/-- The whole module in reset: what Table 20.3 keeps, the pins, host memory and the messages already sent stay. -/
def clearModule (sramKept : Bool) (d : Dev) : Dev :=
  { mem := keptSram d sramKept, gen := bumpGen d.gen (!sramKept), freeCtr := d.freeCtr, hedge := hedgeKept d
    sealing := { streams := d.sealing.streams }
    host := { perst := d.host.perst, refPresent := d.host.refPresent, mem := d.host.mem, messages := d.host.messages,
              requests := d.host.requests }
    pwr := { modRst := d.pwr.modRst }, tap := d.tap }

/-- MOD_RST_N and supply faults: PWR_START and PWR_RESET_CAUSE stay, and the rail monitors show the rails as they are. -/
def modReset (d : Dev) : Dev :=
  let e := clearModule (bitsOf (d.get F.PWR_RAIL_OK) 3 3 == 1) d
  ((e.wr R.PWR_START (d.rd R.PWR_START)).wr R.PWR_RESET_CAUSE (d.rd R.PWR_RESET_CAUSE)).put F.PWR_RAIL_OK (d.get F.PWR_RAIL_OK)

/-- POWER_ON_RESET (R488, R489): VDD_AON fell below 90 %; the other rails stand as they are. -/
def powerOnReset (d : Dev) : Dev :=
  (clearModule false { d with tap := .idcode }).put F.PWR_RAIL_OK (setBits (d.get F.PWR_RAIL_OK) 0 0 0)

/-- MOD_RST (R490): MOD_RST_N has been low for long enough to take effect, or is high again. -/
def modRst (low : Bool) (d : Dev) : Dev :=
  if low then (modReset (d.setPwr { d.pwr with modRst := true })).putB F.PWR_RESET_CAUSE_MOD_RST true
  else d.setPwr { d.pwr with modRst := false }

/-- RAIL_FAULT (R488): a rail other than VDD_AON has been out of tolerance for 2 µs while the module runs. -/
def railFault (r : Fin 9) (d : Dev) : Dev :=
  if r = 0 || !d.pwr.kUp || bitsOf (d.get F.PWR_RAIL_OK) r.val r.val = 1 then d
  else
    let d := (modReset d).put F.PWR_RAIL_FAULT (2 ^ r.val)
    (d.putB F.PWR_RESET_CAUSE_SUPPLY true).put F.PWR_RESET_CAUSE_RAIL r.val

/-- The rails of the stages before a rail's own (Table 20.2), as a mask in the order of Table 20.1. -/
def stageBefore (r : Fin 9) : Nat :=
  match r.val with
  | 0 => 0
  | 1 => 0b000000001
  | 2 | 3 => 0b000000011
  | 4 | 5 | 6 => 0b000001111
  | _ => 0b001111111

/-! ### Blocks held in reset while island K runs -/

/-- Every block but GLB, PCIE, HEDGE and PWR. -/
def heldBlock (i : Nat) : Bool := !(i == 0 || i == 18 || i == 20 || i == 21)

/-- S0–S3, C, T, D0–D11 and LA–LC go into reset and the blocks they hold lose their state; Q, H and K run on (Table 20.3). -/
def holdIslands (d : Dev) : Dev :=
  let d := loseLeaves d
  let d := resetRegs heldBlock d
  let d := { d with mem := keptSram d true, gen := bumpGen d.gen false, cfgc := {}, stag := {}, conv := {}, cap := {}, fox := {}
                    sdec := Vector.replicate 4 {}, sdi := Vector.replicate 8 0, red := Vector.replicate 4 {}, stk := {}, ddr := {}
                    lynx := Vector.replicate 8 {}, ext := {}, owl := Vector.replicate 8 {}, owlSvc := Vector.replicate 4 none
                    pulse := Vector.replicate 4 {}, badger := {}, beaver := {}, cal := {}, mod := {}
                    ifl := { keys := d.ifl.takenKeys }, aqs := { cycle := d.aqs.cycle, verified := d.aqs.verified }
                    pwr := { d.pwr with up := false, refWait := false, sreset := 0 } }
  let d := setArmed false (setPhase 0 (setTarget mSentry 0 ((d.put F.GLB_MODE_STATUS_CUR_MODE mSentry).put F.GLB_MODE_STATUS_CUR_ARR 0)))
  (showKeys d).putB F.GLB_STATUS_READY false |>.putB F.PWR_STATUS_READY false

/-- Every island but K goes into reset (R487): Q and H lose their state too, with the SRAMs where VDD_SRAM is out of tolerance. -/
def holdAll (d : Dev) : Dev :=
  let h := resetRegs (fun i => i == 0 || i == 18) (holdIslands d)
  let sram := bitsOf (d.get F.PWR_RAIL_OK) 3 3 == 1
  { h with host := (clearModule sram d).host, crossings := Vector.replicate 24 {}, mem := keptSram d sram, gen := bumpGen d.gen (!sram)
           aqs := { verified := d.aqs.verified }, pwr := { h.pwr with qUp := false } }

/-- The bypasses are closed while VDD_IO or VDD_SER is out of tolerance; where JOIN stands at 1 they open again after it (R427). -/
def bypassFollows (r : Fin 9) (ok : Bool) (d : Dev) : Dev :=
  if !(r = 1 || r = 6) || !d.pwr.up then d
  else if !ok then allPairs.foldl (fun d x => if joined d x then iflLeave x d else d) d
  else if bitsOf (d.get F.PWR_RAIL_OK) 1 1 = 0 || bitsOf (d.get F.PWR_RAIL_OK) 6 6 = 0 then d
  else allPairs.foldl (fun d (x : Fin 3) => if d.cfgB (F.IFL_x_CFG_JOIN x) && !joined d x then iflJoin x d else d) d

/-- RAIL_CHANGE (R486, R487): a rail enters tolerance, or leaves it, in a power-down that breaks the order when `breaks` is set.
VDD_SRAM out of tolerance while island K is in reset loses the SRAMs. -/
def railChange (r : Fin 9) (ok breaks : Bool) (d : Dev) : Dev :=
  let was := d.get F.PWR_RAIL_OK
  let early := ok && (BitVec.ofNat 9 (stageBefore r) &&& ~~~(BitVec.ofNat 9 was)) ≠ 0
  let d := d.put F.PWR_RAIL_OK (setBits was r.val r.val ok.toNat)
  let d := bypassFollows r ok d
  let d := if r = 3 && !ok && !d.pwr.kUp then { d with mem := [], gen := bumpGen d.gen true } else d
  if early || (!ok && breaks) then
    let d := pwrCode 0x1501 (d.putB F.PWR_RESET_CAUSE_SEQ true)
    if d.pwr.up || d.pwr.qUp then holdAll d else d
  else d

/-! ### Temperature (R499 to R503) -/

def tempOf (d : Dev) (k : Fin 8) : Int := signedOf 16 (d.get (F.PWR_TEMP_TEMP k))
def sensors : List (Fin 8) := [0, 1, 2, 3, 4, 5, 6, 7]
def anySensor (d : Dev) (t : Int) : Bool := sensors.any (fun k => t ≤ tempOf d k)
/-- DDR reports a channel above 95 °C (R372). -/
def dramHot (d : Dev) : Bool := channels.any (fun (n : Fin 12) => (d.ddr.chans.get n).temp == 2)

/-- The threshold of a level, × 1/16 °C. -/
def levelAt (d : Dev) : Nat → Int
  | 1 => 16 * d.cfg F.PWR_THERM_CFG_WARN
  | 2 => 16 * d.cfg F.PWR_THERM_CFG_THROTTLE
  | _ => 16 * 115

/-- The highest level whose condition holds; `hot` are the sensors at 115 °C or more in two readings. -/
def levelNow (d : Dev) (hot : BitVec 8) : Nat :=
  if hot ≠ 0 then 3
  else if anySensor d (levelAt d 2) || dramHot d then 2
  else if anySensor d (levelAt d 1) then 1 else 0

/-- Levels are left downward, one after another, while every sensor is 5 °C below the threshold. -/
def leaveLevel (d : Dev) (least : Nat) : Nat → Nat
  | 0 => 0
  | l + 1 => if l + 1 ≤ least || anySensor d (levelAt d (l + 1) - 79) then l + 1 else leaveLevel d least l

/-- The sensor that caused a change: the hottest, or 8 when only DRAM holds the level. -/
def causing (d : Dev) (old new : Nat) : Nat :=
  let top := max old new
  if top = 2 && !anySensor d (levelAt d 2 - 79) then 8
  else sensors.foldl (fun (b : Nat) (k : Fin 8) => if tempOf d (Fin.ofNat 8 b) < tempOf d k then k.val else b) 0

/-- The thermal level as sensors and DRAM give it (R500). -/
def thermalShow (hot : BitVec 8) (d : Dev) : Dev :=
  let old := d.get F.PWR_STATUS_LEVEL
  let least := levelNow d hot
  let new := max least (leaveLevel d least old)
  if new = old then d else (d.put F.PWR_STATUS_LEVEL new).post .k evPwrThermal (causing d old new) new

/-- SENSOR_READING (R499, R500): eight readings, and at each millisecond the module's power. -/
def sensorReading (temps : Vector (BitVec 16) 8) (power : Option (BitVec 16)) (d : Dev) : Dev :=
  if !d.pwr.kUp then d
  else
    let d := applyUnit d .pwr
    let d := sensors.foldl (fun d k => d.put (F.PWR_TEMP_TEMP k) (temps.get k).toNat) d
    let before := if d.pwr.sensed then signedOf 16 (d.get F.PWR_TEMP_MAX_TEMP) else tempOf d 0
    let highest := sensors.foldl (fun (m : Int) k => max m (tempOf d k)) before
    let d := d.put F.PWR_TEMP_MAX_TEMP (encodeSigned 16 highest)
    let d := match power with
      | none => d
      | some p => (d.put F.PWR_TEMP_CAL_TEMP (encodeSigned 16 ((tempOf d 0 + tempOf d 1 + tempOf d 2 + tempOf d 3) / 4))).wr R.PWR_POWER
          (p.setWidth 32)
    let now := BitVec.ofNat 8 ((sensors.filter (fun k => 16 * 115 ≤ tempOf d k)).map (fun (k : Fin 8) => 2 ^ k.val)).sum
    let both := d.pwr.hot &&& now
    thermalShow both (d.setPwr { d.pwr with hot := now, sensed := true })

/-- DDR_TEMP_CHANGE, with what it means to the thermal level (R372, R500). -/
def dramTemp (n : Fin 12) (level : Fin 3) (d : Dev) : Dev := thermalShow 0 (ddrTempChange n level d)

/-- THERMAL_SHUTDOWN (R502): 10 µs after SHUTDOWN. -/
def thermalShutdown (d : Dev) : Dev :=
  if d.get F.PWR_STATUS_LEVEL ≠ 3 || d.flag F.PWR_STATUS_HELD || !d.pwr.kUp then d
  else ((if d.pwr.up then holdIslands d else d).putB F.PWR_STATUS_HELD true).putB F.PWR_RESET_CAUSE_THERMAL true

/-- RESTART (R503). -/
def restart (d : Dev) : Dev :=
  if !d.flag F.PWR_STATUS_HELD then pwrCode 0x1505 d
  else if anySensor d (levelAt d 1) then pwrCode 0x1504 d
  else
    let d := d.putB F.PWR_STATUS_HELD false
    if d.flag F.HEDGE_STATUS_BOOT_DONE then releaseIslands d else d

end Sys2Proof.Machine
end

