-- ==== Sys2Proof/Machine/Bus.lean ====
section
/-! DEFINITION. The register bus (R6 to R10, R36, R240, R409 to R411): what a read returns and a write does at every register,
pairs and multi-word registers per requester, and the commands that registers give. The MSI-X table lies in the PCIE block. -/
namespace Sys2Proof.Machine

/-! ### Which blocks answer -/

/-- The block's register island (Table 1.1) has been released and no soft reset of it runs (R492, R497). -/
def blockUp (d : Dev) (i : Nat) : Bool :=
  !inSreset d i &&
    (if i = 20 || i = 21 then d.pwr.kUp else if [0, 1, 10, 14, 16, 18].contains i then d.pwr.qUp else d.pwr.up)

/-- The block works: its data islands (Table 1.1) have been released too. CAL and DDR have theirs outside Q. -/
def blockRuns (d : Dev) (i : Nat) : Bool := blockUp d i && (d.pwr.up || !(i == 14 || i == 16))

/-! ### MSI-X (R417, R418) -/

def msixBase : Nat := 0x1210000
def pbaBase : Nat := 0x1211000
def isMsix (a : Nat) : Bool := (msixBase ≤ a && a < msixBase + 1024) || a == pbaBase || a == pbaBase + 4

/-- A vector's message can leave now. -/
def deliverable (d : Dev) (v : Fin 64) : Bool :=
  d.host.msixEn && !d.host.funcMask && !(d.host.msix.get v).masked && mayIssue d

/-- Issue a vector's message, or hold it pending (R418). -/
def issueMessage (v : Fin 64) (d : Dev) : Dev :=
  if deliverable d v then
    d.setHost { d.host with messages := ((d.host.msix.get v).addr, (d.host.msix.get v).data) :: d.host.messages }
  else d.setHost { d.host with pba := d.host.pba ||| BitVec.ofNat 64 (2 ^ v.val) }

def vectors : List (Fin 64) := List.ofFn id

/-- Messages that are pending and can leave now. -/
def flushPending (d : Dev) : Dev :=
  vectors.foldl (fun d v =>
    if d.host.pba.getLsbD v.val && deliverable d v then
      issueMessage v (d.setHost { d.host with pba := d.host.pba &&& ~~~(BitVec.ofNat 64 (2 ^ v.val)) })
    else d) d

def vectorArmed (d : Dev) (v : Fin 64) : Bool := (d.rd (R.GLB_IRQ_REARM (v.val / 32))).getLsbD (v.val % 32)
def armVector (v : Fin 64) (on : Bool) (d : Dev) : Dev :=
  let a := R.GLB_IRQ_REARM (v.val / 32)
  d.wr a (BitVec.ofNat 32 (setBits (d.rd a).toNat (v.val % 32) (v.val % 32) on.toNat))

/-- An event raises a vector: its message when it is armed, else its latch (R418). -/
def raiseVector (v : Fin 64) (d : Dev) : Dev :=
  if vectorArmed d v then issueMessage v (armVector v false d)
  else d.setHost { d.host with latch := d.host.latch ||| BitVec.ofNat 64 (2 ^ v.val) }

/-- A 1 written to a vector's REARM bit (R418). -/
def rearmVector (d : Dev) (v : Fin 64) : Dev :=
  if d.host.latch.getLsbD v.val then
    issueMessage v (armVector v false (d.setHost { d.host with latch := d.host.latch &&& ~~~(BitVec.ofNat 64 (2 ^ v.val)) }))
  else armVector v true d

/-- IRQ_REARM: a write of GLB_IRQ_REARM(k). -/
def irqRearm (k : Fin 2) (bits : Word) (d : Dev) : Dev :=
  (vectors.filter (fun (v : Fin 64) => v.val / 32 == k.val && bits.getLsbD (v.val % 32))).foldl rearmVector d

def msixRead (d : Dev) (a : Nat) : Word :=
  if a = pbaBase then d.host.pba.setWidth 32
  else if a = pbaBase + 4 then (d.host.pba >>> 32).setWidth 32
  else
    let x := d.host.msix.get (Fin.ofNat 64 ((a - msixBase) / 16))
    match a % 16 with
    | 0 => x.addr.setWidth 32
    | 4 => (x.addr >>> 32).setWidth 32
    | 8 => x.data
    | _ => if x.masked then 1 else 0

/-- A write into the MSI-X table; the pending-bit array is read-only. -/
def msixWrite (a v : Nat) (d : Dev) : Dev :=
  if a = pbaBase || a = pbaBase + 4 then d
  else
    let n : Fin 64 := Fin.ofNat 64 ((a - msixBase) / 16)
    let x := d.host.msix.get n
    let x := match a % 16 with
      | 0 => { x with addr := BitVec.ofNat 64 (setBits x.addr.toNat 31 2 (v / 4)) }
      | 4 => { x with addr := BitVec.ofNat 64 (setBits x.addr.toNat 63 32 v) }
      | 8 => { x with data := BitVec.ofNat 32 v }
      | _ => { x with masked := v % 2 = 1 }
    flushPending (d.setHost { d.host with msix := d.host.msix.set n.val x })

/-- MSIX_UNMASK (R418): host software clears a vector's mask. -/
def msixUnmask (v : Fin 64) (d : Dev) : Dev := msixWrite (msixBase + 16 * v.val + 12) 0 d

/-! ### What a register shows -/

/-- A register of context n. -/
def ctxWord (d : Dev) (n : Fin 8) (o : Nat) : Word :=
  let c := d.ctx n
  let w (x : Nat) : Word := BitVec.ofNat 32 x
  if o = 4 then w (ctxStatus c)
  else if o = 8 then w c.pc.toNat
  else if o = 0xC then w c.faultPc.toNat
  else if 0x40 ≤ o && o < 0xC0 then
    let g := (c.reg (Fin.ofNat 16 ((o - 0x40) / 8))).toNat
    w (if o % 8 = 0 then g else g / 2 ^ 32)
  else if o = 0xC0 then w (evnumWord c.latch)
  else if o = 0xC8 then w c.latch.arg.toNat
  else if o = 0xCC then w (c.latch.arg.toNat / 2 ^ 32)
  else if 0xD0 ≤ o && o < 0xDC then w (c.latch.ts.toNat / 2 ^ (32 * ((o - 0xD0) / 4)))
  else if 0x100 ≤ o && o < 0x140 then w (watchWord (c.watch.get (Fin.ofNat 16 ((o - 0x100) / 4))))
  else if 0x140 ≤ o && o < 0x180 then (match c.stack[(o - 0x140) / 4]? with | some p => w p.toNat | none => 0)
  else 0

/-- The entry at the report queue's read pointer; 0 on an empty queue (Table 10.15). -/
def rptWord (d : Dev) (k : Nat) : Word :=
  let rd := (d.rd R.CFGC_RPT_RD).toNat
  if rd = (d.rd R.CFGC_RPT_WR).toNat then 0
  else BitVec.ofNat 32 (leNat ((List.range 4).map (fun i => rptByte d (16 * (rd % 4096) + 4 * k + i))))

/-- CONV_b_STATUS.POWER in the current mode (Table 3.10): parked, one sub-converter, full service, under CAL. -/
def convPower (d : Dev) : Nat := if d.mode = mCount then 0 else if d.mode = mSentry then 1 else if isCapture d.mode then 2 else 3

/-- The current value of a register, without the effects of a read. Registers that show other state are computed here. -/
def busView (d : Dev) (a : Nat) : Word :=
  let o := a % 0x100000
  let put (f : Field) (x : Nat) : Word := BitVec.ofNat 32 (setBits (d.rd a).toNat f.hi f.lo x)
  match a / 0x100000 with
  | 1 => if 0x30 ≤ o && o < 0x40 then rptWord d ((o - 0x30) / 4) else d.rd a
  | 2 =>
    let p := o % 0x1000
    if p = 0 && o < 0x4000 then put (F.CONV_b_STATUS_POWER (o / 0x1000)) (convPower d)
    else if p = 0xC then d.ef (setKey d.arr (a - 4))
    else if 0x300 ≤ p && p < 0x500 then d.ef (setKey d.arr (a - 0x200))
    else d.rd (trimKey d a)
  | 3 =>
    if a = R.ILV_STATUS then
      BitVec.ofNat 32 (setBits (put F.ILV_STATUS_STATE (if estimating d then stOn else stOff)).toNat
        F.ILV_STATUS_PENDING.hi F.ILV_STATUS_PENDING.lo (ilvPending d).toNat)
    else match spareBank a with
      | some b =>
        BitVec.ofNat 32 (setBits (put (F.ILV_b_SPARE_RETIRE b) (retireOf d d.conv.addressed.val b)).toNat
          (F.ILV_b_SPARE_USE b).hi (F.ILV_b_SPARE_USE b).lo (spareUse d b))
      | none => d.rd a
  | 9 =>
    let q := (d.lynx.get (Fin.ofNat 8 (o / 0x100))).queue
    if o < 0x800 && 0x40 ≤ o % 0x100 && o % 0x100 < 0x50 then
      match q with
      | [] => 0
      | (w0, w1) :: _ => ((if o % 0x100 < 0x48 then w0 else w1) >>> (8 * (o % 8))).setWidth 32
    else d.rd a
  | 10 =>
    if a = R.AQS_STATUS then BitVec.ofNat 32 (setBits (d.rd a).toNat 15 0 (aqsBits d))
    else if a = R.AQS_CYCLE_LO then d.aqs.cycle.setWidth 32
    else if a = R.AQS_CYCLE_HI then (d.aqs.cycle >>> 32).setWidth 32
    else if a = R.AQS_TICK_LO then d.aqs.tick.setWidth 32
    else if a = R.AQS_TICK_HI then (d.aqs.tick >>> 32).setWidth 32
    else if 0x1000 ≤ o && o < 0x2000 then ctxWord d (Fin.ofNat 8 ((o - 0x1000) / 0x200)) (o % 0x200)
    else d.rd a
  | 11 => if a = R.CAP_STATUS then put F.CAP_STATUS_STATE (capState d) else d.rd a
  | 14 => if 0x8000 ≤ o && o < 0xC000 then bufWord d ((o - 0x8000) / 4) else d.rd a
  | 16 => if a = R.DDR_STATUS then put F.DDR_STATUS_PRESSURE (ddrPressure d).toNat else d.rd a
  | 20 => if a = R.HEDGE_STATUS then put F.HEDGE_STATUS_STATE (if d.sealing.on then stOn else stOff) else d.rd a
  | _ => d.rd a

/-- The bits of a register that a read returns: all but reserved and write-only ones (R6, R7). -/
def readMask (r : RegRow) : Word :=
  BitVec.ofNat 32 r.rw ||| BitVec.ofNat 32 r.ro ||| BitVec.ofNat 32 r.w1c ||| BitVec.ofNat 32 r.w1s ||| BitVec.ofNat 32 r.rc

/-! ### Reads (R7, R10) -/

/-- What an RC read clears, and what reading a counter lets be reported again. -/
def clearOnRead (r : RegRow) (a : Nat) (seen : Word) (d : Dev) : Dev :=
  let d := if r.rc = 0 then d else d.wr a (d.rd a &&& ~~~(seen &&& BitVec.ofNat 32 r.rc))
  if a = R.GLB_BAD_ADDR_LO then d.setHost { d.host with faultNotified := false }
  else if a = R.CFGC_RPT_LOST then d.setCfgc { d.cfgc with lostNotified := false }
  else if a = R.IFL_RX_LOST then d.setIfl { d.ifl with saidLost := false }
  else if a = R.HEDGE_SEAL_SKIP then { d with sealing := { d.sealing with skipNotified := false } }
  else if r.off = R.LYNX_n_LOST 0 then
    let n : Fin 8 := Fin.ofNat 8 ((a - r.off) / 0x100)
    d.setLynx n { d.lynx.get n with lostNotified := false }
  else if r.off = R.DDR_CH_n_CE_CNT 0 then
    match channels.find? (fun (n : Fin 12) => R.DDR_CH_n_CE_CNT n == a) with
    | some n => d.setDdrCh n { d.ddr.chans.get n with ceSaid := false }
    | none => d
  else d

def shadowOf (d : Dev) (q : Requester) (a : Nat) : Option Word :=
  (d.shadows.find? (fun s => s.1 == q && s.2.1 == a)).map (·.2.2)
def dropShadow (q : Requester) (a : Nat) (d : Dev) : Dev :=
  { d with shadows := d.shadows.filter (fun s => !(s.1 == q && s.2.1 == a)) }
def setShadow (q : Requester) (a : Nat) (v : Word) (d : Dev) : Dev :=
  { dropShadow q a d with shadows := (q, a, v) :: (dropShadow q a d).shadows }

/-- A read of one word by a requester: the value, and what the read does. Word 0 of a LYNX queue pops the queue (R294). -/
def regRead (q : Requester) (a : Nat) (d : Dev) : Dev × Word :=
  if !blockUp d (a / 0x100000) then (d, 0)
  else if isMsix a then (d, msixRead d a)
  else match findReg a with
  | none => (d, 0)
  | some (r, ix) =>
    let view (d : Dev) (a : Nat) : Word := busView d a &&& readMask r
    match r.part with
    | .single => (clearOnRead r a (view d a) d, view d a)
    | .lo =>
      let hi := match findReg (a + 4) with | some (h, _) => busView d (a + 4) &&& readMask h | none => 0
      (clearOnRead r a (view d a) (setShadow q (a + 4) hi d), view d a)
    | .hi => match shadowOf d q a with
      | some v => (dropShadow q a d, v)
      | none => (d, view d a)
    | .word0 words =>
      if ix.getLastD 0 = 0 then
        if r.off = R.LYNX_n_Q 0 0 then
          let (d, w0, w1) := lynxPop (Fin.ofNat 8 ((a - r.off) / 0x100)) d
          let d := setShadow q (a + 4) ((w0 >>> 32).setWidth 32) d
          (setShadow q (a + 12) ((w1 >>> 32).setWidth 32) (setShadow q (a + 8) (w1.setWidth 32) d), w0.setWidth 32)
        else ((List.range (words - 1)).foldl (fun e i => setShadow q (a + 4 * (i + 1)) (view d (a + 4 * (i + 1))) e) d, view d a)
      else match shadowOf d q a with
        | some v => (dropShadow q a d, v)
        | none => (d, view d a)

/-! ### Writes (R7, R10) -/

/-- A queue's read pointer: a value above the write pointer, modulo 2^32, stands as the write pointer. -/
def readPointer (wp v : Nat) : Nat := if 0 < (v + 2 ^ 32 - wp) % 2 ^ 32 && (v + 2 ^ 32 - wp) % 2 ^ 32 < 2 ^ 31 then wp else v

/-- The bits of a command register, each with what it does, lowest first (DESIGN CHOICE, log 12: the order of several). -/
def eachBit (v : Nat) : List (Dev → Dev) → Nat → Dev → Dev
  | [], _, d => d
  | f :: fs, i, d => eachBit v fs (i + 1) (if bitsOf v i i = 1 then f d else d)

/-- A write of one word that is not half of a pair, at a register that CFGC does not hold. -/
def wordWrite (q : Requester) (r : RegRow) (ix : List Nat) (a v : Nat) (d : Dev) : Dev :=
  let i := ix.headD 0
  let stored (d : Dev) : Dev :=
    let old := d.rd a
    let new := BitVec.ofNat 32 v
    let rw := BitVec.ofNat 32 r.rw
    let x := (old &&& ~~~rw) ||| (new &&& rw)
    let x := x &&& ~~~(new &&& BitVec.ofNat 32 r.w1c)
    d.wr a (x ||| (new &&& BitVec.ofNat 32 r.w1s))
  let pointer (wp : Nat) : Dev := d.wr a (BitVec.ofNat 32 (readPointer (d.rd wp).toNat v))
  let o := r.off
  if !blockRuns d (a / 0x100000) && r.wo ≠ 0 && o ≠ R.CAL_IMAGE 0 then d
  else if o = R.GLB_MODE then modeRequest v d
  else if o = R.GLB_EVQ_RD then pointer R.GLB_EVQ_WR
  else if o = R.GLB_IRQ_REARM 0 then irqRearm (Fin.ofNat 2 i) (BitVec.ofNat 32 v) d
  else if o = R.CFGC_CMD then cfgcCmd q v d
  else if o = R.CFGC_RPT_RD then pointer R.CFGC_RPT_WR
  else if o = R.OWL_n_CMD 0 then let n : Fin 8 := Fin.ofNat 8 i; eachBit v [owlSeed n, owlReadback n, owlAbort n] 0 d
  else if o = R.PULSE_u_CMD 0 then let u : Fin 4 := Fin.ofNat 4 i; eachBit v [pulseCmdFire u, pulseClear u, pulseAbort u] 0 d
  else if o = R.FOX_ARM then foxArmWrite v d
  else if o = R.LYNX_n_CMD 0 then let n : Fin 8 := Fin.ofNat 8 i; eachBit v [lynxStart n, lynxAbort n, lynxFlush n] 0 d
  else if o = R.AQS_CTRL then (if v % 2 = 1 then sreset d else d)
  else if o = R.AQS_CTX_n_CTRL 0 then ctxCtrl q (Fin.ofNat 8 i) v d
  else if o = R.AQS_CTX_n_PC 0 then ctxPoke q (Fin.ofNat 8 i) (fun c => { c with pc := BitVec.ofNat 19 v }) d
  else if o = R.RED_p_CMD 0 then let p : Fin 4 := Fin.ofNat 4 i; eachBit v [redStart p, redAbort p] 0 d
  else if o = R.STK_CMD then eachBit v [stkClear, stkAbort] 0 d
  else if o = R.CAL_START then calStart v d
  else if o = R.CAL_CMD then eachBit v [calAbortCmd, calSave, calRestore, calBundle] 0 d
  else if o = R.CAL_IMAGE 0 then
    if d.flag F.CAL_STATUS_BUF_BUSY then d
    else d.setCal { d.cal with buf := Store.set (fun _ => 0#32) d.cal.buf i (BitVec.ofNat 32 v) }
  else if o = R.BADGER_CMD then eachBit v [badgerAbort] 0 d
  else if o = R.BADGER_r_DOORBELL 0 then eachBit v [badgerDoorbell (Fin.ofNat 4 i)] 0 d
  else if o = R.DDR_CMD then (if v % 2 = 1 then ddrTrain (BitVec.ofNat 12 (bitsOf v 27 16)) d else d)
  else if o = R.DDR_CH_n_CMD 0 then eachBit v [ddrChAbort (Fin.ofNat 12 i)] 0 d
  else if o = R.BEAVER_CMD then eachBit v [beaverAbort] 0 d
  else if o = R.BEAVER_CH_n_CMD 0 then
    let n : Fin 32 := Fin.ofNat 32 i; eachBit v [beaverDoorbell n, beaverChAbort n, beaverClear n] 0 d
  else if o = R.PCIE_CTRL then
    let d := stored d
    let s := d.get F.PCIE_CTRL_TARGET_SPEED
    if s = 0 || 6 < s then d.put F.PCIE_CTRL_TARGET_SPEED 6 else d
  else if o = R.IFL_RX_RD then pointer R.IFL_RX_WR
  else if o = R.IFL_TX_CMD then eachBit v [frameSend] 0 d
  else if o = R.IFL_SCHED_CMD then eachBit v [schedSend] 0 d
  else if o = R.IFL_x_CMD 0 then
    let x : Fin 3 := Fin.ofNat 3 i
    eachBit v [asymCal x false, asymCal x true, release (Port.of x false), release (Port.of x true),
      quarantine (Port.of x false) 0xF, quarantine (Port.of x true) 0xF, iflAbort x] 0 d
  else if o = R.HEDGE_CMD then hedgeStart (trimDigest d) (v % 256) d
  else if o = R.HEDGE_SEAL_CTRL then
    let d := stored d
    let d := d.put F.HEDGE_SEAL_CTRL_LEAF_LOG (clampNat 17 24 (d.get F.HEDGE_SEAL_CTRL_LEAF_LOG))
    let d := d.put F.HEDGE_SEAL_CTRL_RING_LOG (clampNat 4 12 (d.get F.HEDGE_SEAL_CTRL_RING_LOG))
    d.put F.HEDGE_SEAL_CTRL_BATCH (clampNat 1 65536 (d.get F.HEDGE_SEAL_CTRL_BATCH))
  else if o = R.HEDGE_SEAL_RD then pointer R.HEDGE_SEAL_WR
  else if o = R.PWR_SRESET then softReset (BitVec.ofNat 22 v) d
  else if o = R.PWR_CMD then eachBit v [restart] 0 d
  else stored d

/-- A write of a pair is taken into effect: not a load that STAG refuses (R108), nor a G of an active context (R254). -/
def pairTaken (lo : Nat) (d : Dev) : Bool :=
  match findReg lo with
  | none => false
  | some (r, ix) =>
    if r.off = R.STAG_TB_LOAD_LO then !(d.get F.STAG_STATUS_TB_SRC == 2 || d.armed || capOpen d)
    else if r.off = R.AQS_CTX_n_G_LO 0 0 then !ctxActive (d.ctx (Fin.ofNat 8 (ix.headD 0)))
    else true

/-- Both halves of a pair take effect together. -/
def pairWrite (q : Requester) (lo v : Nat) (rw : Nat) (d : Dev) : Dev :=
  match findReg lo with
  | none => d
  | some (r, ix) =>
    let i := ix.headD 0
    let o := r.off
    if o = R.STAG_TB_LOAD_LO then tbLoad (BitVec.ofNat 64 v) (d.wr64 lo v)
    else if o = R.AQS_CTX_n_G_LO 0 0 then
      ctxPoke q (Fin.ofNat 8 i) (fun c => c.setReg (Fin.ofNat 16 (ix.getLastD 0)) (BitVec.ofNat 64 v)) d
    else if o = R.CAP_STREAM_RD_LO then capStreamRd v d
    else if o = R.BEAVER_CH_n_HEAD_LO 0 then chainHandover (Fin.ofNat 32 i) (BitVec.ofNat 64 v) d
    else if rw = 0 then d
    else d.wr64 lo v

/-- A write of one word by a requester. -/
def regWrite (q : Requester) (a v : Nat) (d : Dev) : Dev :=
  if !blockUp d (a / 0x100000) then d
  else if isMsix a then msixWrite a v d
  else match findReg a with
  | none => d
  | some (r, ix) =>
    if r.cfg then configWrite q a v d
    else match r.part with
      | .single => wordWrite q r ix a v d
      | .lo =>
        if r.rw = 0 && r.wo = 0 then d
        else { d with halves := d.halves.filter (fun h => !(h.req == q && h.addr == a)) ++ [⟨q, a, BitVec.ofNat 32 v, 0⟩] }
      | .hi =>
        let lo := a - 4
        let low := match d.halves.find? (fun h => h.req == q && h.addr == lo) with
          | some h => h.val.toNat
          | none => (Store.get regReset d.lastLo lo).toNat
        let taken := r.rw + r.wo ≠ 0 && pairTaken lo d
        let d := pairWrite q lo (low + 2 ^ 32 * v) (r.rw + r.wo) { d with halves := d.halves.filter (fun h => !(h.req == q && h.addr == lo)) }
        if taken then { d with lastLo := Store.set regReset d.lastLo lo (BitVec.ofNat 32 low) } else d
      | .word0 _ => d

/-- An address of the register range names a register (R409): otherwise it is a hole. -/
def isRegister (a : Nat) : Bool := a % 4 = 0 && ((findReg a).isSome || isMsix a)

end Sys2Proof.Machine
end

