-- ==== Sys2Proof/Machine/Flags.lean ====
section
/-! DEFINITION. The flags of AQS instructions (R235, Table 9.4 and the list after it). -/
namespace Sys2Proof.Machine

/-- A result with the flags it writes. -/
structure Alu where
  val : Word64
  z : Bool
  n : Bool
  c : Bool
  v : Bool
deriving DecidableEq, Repr

/-- Z is 1 when the result is 0, and N is its bit 63. -/
def alu (r : Word64) (c v : Bool) : Alu := ⟨r, r == 0, r.msb, c, v⟩

/-- C is the carry out of bit 63; V is signed overflow. -/
def aluAdd (a b : Word64) : Alu :=
  alu (a + b) (decide (2 ^ 64 ≤ a.toNat + b.toNat)) (a.msb == b.msb && (a + b).msb != a.msb)

/-- C is 1 when no borrow occurs; V is signed overflow. -/
def aluSub (a b : Word64) : Alu :=
  alu (a - b) (decide (b.toNat ≤ a.toNat)) (a.msb != b.msb && (a - b).msb != a.msb)

def aluLogic (r : Word64) : Alu := alu r false false

/-- Shifts: C is the last bit shifted out, 0 for a count of 0. -/
def aluShl (a : Word64) (k : Nat) : Alu := alu (a <<< k) (k != 0 && a.getLsbD (64 - k)) false
def aluShr (a : Word64) (k : Nat) : Alu := alu (a >>> k) (k != 0 && a.getLsbD (k - 1)) false
def aluSar (a : Word64) (k : Nat) : Alu := alu (a.sshiftRight k) (k != 0 && a.getLsbD (k - 1)) false

/-- C is 1 when the unsigned product does not fit, V when the signed one does not. -/
def aluMul (a b : Word64) : Alu :=
  alu (a * b) (decide (2 ^ 64 ≤ a.toNat * b.toNat))
    (decide (a.toInt * b.toInt < -(2 ^ 63)) || decide (2 ^ 63 ≤ a.toInt * b.toInt))

def Ctx.setFlags (c : Ctx) (r : Alu) : Ctx := { c with z := r.z, n := r.n, c := r.c, v := r.v }

end Sys2Proof.Machine
end

