-- ==== Sys2Proof/Machine/AqsIsa.lean ====
section
/-! DEFINITION. AQS's instructions (R229 to R253): encodings (Tables 9.2 and 9.4), issue, and what each does. -/
namespace Sys2Proof.Machine

/-! ### Issue (R229 to R231, R236) -/

/-- The word at a PC of program SRAM (R233). -/
def wordAt (d : Dev) (pc : BitVec 19) : Word := BitVec.ofNat 32 (d.load (programBase + 4 * pc.toNat) 4)

/-- The context has an issue slot to use: RUNNING, with no instruction in progress. -/
def mayRun (c : Ctx) : Bool := c.run = .running && c.busy = .idle

/-- The instruction `w` is the one that context n issues now. -/
def issues (d : Dev) (n : Fin 8) (w : Word) : Bool := mayRun (d.ctx n) && wordAt d (d.ctx n).pc = w

/-- An instruction that goes on in sequence: at the last word it faults (R236). -/
def sequential (n : Fin 8) (w : Word) (f : Ctx → Dev → Dev) (d : Dev) : Dev :=
  if !issues d n w then d
  else if (d.ctx n).pc = lastPc then faultHere n 0x0A02 d
  else f (d.ctx n) d

/-- Finish with the context `c` at the next word. -/
def finish (n : Fin 8) (c : Ctx) (d : Dev) : Dev := d.setCtx n (c.next (c.pc + 1))

/-- An instruction that only changes its context. -/
def local' (n : Fin 8) (w : Word) (f : Ctx → Ctx) (d : Dev) : Dev := sequential n w (fun c d => finish n (f c) d) d

/-- An instruction that is still in progress after its slot. -/
def begins (n : Fin 8) (b : Busy) (d : Dev) : Dev := d.setCtx n { d.ctx n with busy := b }
def waits (n : Fin 8) (b : Busy) (d : Dev) : Dev := d.setCtx n { d.ctx n with busy := b, run := .waiting }

/-- A result goes to Gd with its flags. -/
def Ctx.take (c : Ctx) (d : Fin 16) (r : Alu) : Ctx := (c.setReg d r.val).setFlags r

/-! ### Arithmetic (R235) -/

def aqsNop (n : Fin 8) : Dev → Dev := local' n (encU 0x01 0 0) id
def aqsAdd (n : Fin 8) (d a b : Fin 16) : Dev → Dev := local' n (encR 0x02 d a b) fun c => c.take d (aluAdd (c.reg a) (c.reg b))
def aqsSub (n : Fin 8) (d a b : Fin 16) : Dev → Dev := local' n (encR 0x03 d a b) fun c => c.take d (aluSub (c.reg a) (c.reg b))
def aqsAnd (n : Fin 8) (d a b : Fin 16) : Dev → Dev :=
  local' n (encR 0x04 d a b) fun c => c.take d (aluLogic (c.reg a &&& c.reg b))
def aqsOr (n : Fin 8) (d a b : Fin 16) : Dev → Dev :=
  local' n (encR 0x05 d a b) fun c => c.take d (aluLogic (c.reg a ||| c.reg b))
def aqsXor (n : Fin 8) (d a b : Fin 16) : Dev → Dev :=
  local' n (encR 0x06 d a b) fun c => c.take d (aluLogic (c.reg a ^^^ c.reg b))
def aqsShl (n : Fin 8) (d a b : Fin 16) : Dev → Dev :=
  local' n (encR 0x07 d a b) fun c => c.take d (aluShl (c.reg a) ((c.reg b).toNat % 64))
def aqsShr (n : Fin 8) (d a b : Fin 16) : Dev → Dev :=
  local' n (encR 0x08 d a b) fun c => c.take d (aluShr (c.reg a) ((c.reg b).toNat % 64))
def aqsSar (n : Fin 8) (d a b : Fin 16) : Dev → Dev :=
  local' n (encR 0x09 d a b) fun c => c.take d (aluSar (c.reg a) ((c.reg b).toNat % 64))
def aqsMul (n : Fin 8) (d a b : Fin 16) : Dev → Dev := local' n (encR 0x0A d a b) fun c => c.take d (aluMul (c.reg a) (c.reg b))
def aqsCmp (n : Fin 8) (a b : Fin 16) : Dev → Dev :=
  local' n (encR 0x0B 0 a b) fun c => c.setFlags (aluSub (c.reg a) (c.reg b))
def aqsAddi (n : Fin 8) (d a : Fin 16) (imm : BitVec 18) : Dev → Dev :=
  local' n (encI 0x0C d a imm) fun c => c.take d (aluAdd (c.reg a) (sext imm))
def aqsAndi (n : Fin 8) (d a : Fin 16) (imm : BitVec 18) : Dev → Dev :=
  local' n (encI 0x0D d a imm) fun c => c.take d (aluLogic (c.reg a &&& zext imm))
def aqsOri (n : Fin 8) (d a : Fin 16) (imm : BitVec 18) : Dev → Dev :=
  local' n (encI 0x0E d a imm) fun c => c.take d (aluLogic (c.reg a ||| zext imm))
def aqsXori (n : Fin 8) (d a : Fin 16) (imm : BitVec 18) : Dev → Dev :=
  local' n (encI 0x0F d a imm) fun c => c.take d (aluLogic (c.reg a ^^^ zext imm))
def aqsShli (n : Fin 8) (d a : Fin 16) (k : BitVec 6) : Dev → Dev :=
  local' n (encI 0x10 d a (k.setWidth 18)) fun c => c.take d (aluShl (c.reg a) k.toNat)
def aqsShri (n : Fin 8) (d a : Fin 16) (k : BitVec 6) : Dev → Dev :=
  local' n (encI 0x11 d a (k.setWidth 18)) fun c => c.take d (aluShr (c.reg a) k.toNat)
def aqsSari (n : Fin 8) (d a : Fin 16) (k : BitVec 6) : Dev → Dev :=
  local' n (encI 0x12 d a (k.setWidth 18)) fun c => c.take d (aluSar (c.reg a) k.toNat)
def aqsCmpi (n : Fin 8) (a : Fin 16) (imm : BitVec 18) : Dev → Dev :=
  local' n (encI 0x13 0 a imm) fun c => c.setFlags (aluSub (c.reg a) (sext imm))
def aqsMovi (n : Fin 8) (d : Fin 16) (imm : BitVec 22) : Dev → Dev := local' n (encU 0x14 d imm) fun c => c.setReg d (sext imm)
def aqsMovh (n : Fin 8) (d : Fin 16) (imm : BitVec 22) : Dev → Dev :=
  local' n (encU 0x15 d imm) fun c => c.setReg d (c.reg d <<< 22 ||| zext imm)

/-! ### Memory (R237 to R239) -/

/-- A load or store at a readable address. -/
def memoryAccess (d : Dev) (c : Ctx) (op : MemOp) (g : Fin 16) (a : Nat) : Dev × Ctx :=
  if op.isLoad then (d, c.setReg g (BitVec.ofNat 64 (d.load a op.size)))
  else (fabricStore d a (leBytes op.size (c.reg g).toNat), c)

def aqsMemory (op : MemOp) (code : Nat) (n : Fin 8) (g a : Fin 16) (imm : BitVec 18) : Dev → Dev :=
  sequential n (encI code g a imm) fun c d =>
    let addr := c.address a imm
    match if addr < 2 ^ 48 then regionOf d addr else none with
    | none => faultHere n 0x0A04 d
    | some r =>
      if addr % op.size ≠ 0 then faultHere n 0x0A03 d
      else match r with
        | .data => let (d, c) := memoryAccess d c op g addr; finish n c d
        | .program => if op.isLoad then let (d, c) := memoryAccess d c op g addr; finish n c d else faultHere n 0x0A05 d
        | .capture | .stk | .badger | .table | .dram => begins n (.fabric op g addr) d

def aqsLd : Fin 8 → Fin 16 → Fin 16 → BitVec 18 → Dev → Dev := aqsMemory .ld 0x16
def aqsLdw : Fin 8 → Fin 16 → Fin 16 → BitVec 18 → Dev → Dev := aqsMemory .ldw 0x17
def aqsSt : Fin 8 → Fin 16 → Fin 16 → BitVec 18 → Dev → Dev := aqsMemory .st 0x18
def aqsStw : Fin 8 → Fin 16 → Fin 16 → BitVec 18 → Dev → Dev := aqsMemory .stw 0x19

/-- An instruction in progress ends; a posted write that timed out meanwhile stops the context at this boundary (R242). -/
def completes (n : Fin 8) (c : Ctx) (d : Dev) : Dev := lateFault n (finish n c d)

/-- FABRIC_ACCESS_DONE: the fabric has served the access, or refused the store (R42). An access to DRAM waits
for its channel, and a load of capture SRAM for CAP's body bursts at the read port (R22). -/
def fabricAccessDone (n : Fin 8) (d : Dev) : Dev :=
  let c := d.ctx n
  match c.busy with
  | .fabric op g a =>
    if regionOf d a = some .dram || (op.isLoad && regionOf d a = some .capture && captureBusy d) then d
    else if !noHole d a op.size then faultHere n 0x0A04 d
    else if !op.isLoad && !canWrite d a op.size then faultHere n 0x0A05 d
    else let (d, c) := memoryAccess d c op g a; completes n c d
  | .answered op g v => completes n (if op.isLoad then c.setReg g v else c) d
  | _ => d

/-- FADD (R239). -/
def aqsFadd (n : Fin 8) (g a b : Fin 16) : Dev → Dev :=
  sequential n (encR 0x1A g a b) fun c d =>
    let addr := (c.reg a).toNat
    if ¬ (addr < 2 ^ 48 ∧ regionOf d addr = some .data) then faultHere n 0x0A04 d
    else if addr % 8 ≠ 0 then faultHere n 0x0A03 d
    else
      let old := BitVec.ofNat 64 (d.load addr 8)
      finish n (c.setReg g old) (d.store addr 8 (old + c.reg b).toNat)

/-- MEM_TIMEOUT (R237): precise, so what the access asked of DRAM is withdrawn. -/
def memTimeout (n : Fin 8) (d : Dev) : Dev := match (d.ctx n).busy with | .fabric _ _ _ => faultHere n 0x0A06 (withdraw n d) | _ => d

/-! ### Control transfer (R235, R236) -/

/-- Go to a PC that is not the next in sequence. -/
def jump (n : Fin 8) (c : Ctx) (pc : BitVec 19) (d : Dev) : Dev := d.setCtx n (c.next pc)

def aqsBr (n : Fin 8) (cond : BitVec 4) (imm : BitVec 22) (d : Dev) : Dev :=
  let c := d.ctx n
  if !issues d n (encU 0x1B (Fin.ofNat 16 cond.toNat) imm) then d
  else match condition c cond, branchTarget c.pc imm with
    | none, _ => faultHere n 0x0A01 d
    | _, none => faultHere n 0x0A02 d
    | some taken, some t =>
      if taken then jump n c t d else if c.pc = lastPc then faultHere n 0x0A02 d else finish n c d

def aqsCall (n : Fin 8) (imm : BitVec 22) : Dev → Dev :=
  sequential n (encU 0x1C 0 imm) fun c d =>
    match branchTarget c.pc imm with
    | none => faultHere n 0x0A02 d
    | some t =>
      if 16 ≤ c.stack.length then faultHere n 0x0A0A d else jump n { c with stack := c.stack ++ [c.pc + 1] } t d

def aqsRet (n : Fin 8) (d : Dev) : Dev :=
  let c := d.ctx n
  if !issues d n (encU 0x1D 0 0) then d
  else match c.stack.getLast? with
    | none => faultHere n 0x0A0B d
    | some t => jump n { c with stack := c.stack.dropLast } t d

def aqsJr (n : Fin 8) (a : Fin 16) (d : Dev) : Dev :=
  let c := d.ctx n
  if !issues d n (encR 0x1E 0 a 0) then d
  else match pcOf (c.reg a) with
    | none => faultHere n 0x0A02 d
    | some t => jump n c t d

def aqsLoop (n : Fin 8) (g : Fin 16) (imm : BitVec 22) (d : Dev) : Dev :=
  let c := d.ctx n
  if !issues d n (encU 0x1F g imm) then d
  else match branchTarget c.pc imm with
    | none => faultHere n 0x0A02 d
    | some t =>
      let v := c.reg g - 1
      if v ≠ 0 then jump n (c.setReg g v) t d
      else if c.pc = lastPc then faultHere n 0x0A02 d else finish n (c.setReg g v) d

/-! ### The register bus (R240 to R242, R36) -/

/-- The end of the register blocks in BAR0. -/
def csrEnd : Nat := 0x1600000

/-- A fault of a register address, or none (R240). -/
def csrFault (a : Nat) : Option Nat := if csrEnd ≤ a then some 0x0A07 else if a % 4 ≠ 0 then some 0x0A03 else none

def myPosted (d : Dev) (n : Fin 8) : List Posted := d.aqs.posted.filter (fun p => p.ctx == n)
/-- A write of context n to a block, or one that CFGC takes, is in flight (R36). -/
def inFlight (d : Dev) (n : Fin 8) (block : Nat) : Bool :=
  (myPosted d n).any (fun p => p.addr / 0x100000 == block)
def cfgInFlight (d : Dev) (n : Fin 8) : Bool := (myPosted d n).any (fun p => isCfgReg p.addr || p.addr / 0x100000 == 1)

def csrReadAt (n : Fin 8) (g : Fin 16) (a : Nat) (d : Dev) : Dev :=
  match csrFault a with | some f => faultHere n f d | none => begins n (.csr a g) d

/-- A write enters the register bus; with four of the context's in flight it waits for its slot (R242). -/
def post' (n : Fin 8) (a v : Nat) (c : Ctx) (d : Dev) : Dev :=
  if 4 ≤ (myPosted d n).length then d
  else finish n c { d with aqs := { d.aqs with posted := d.aqs.posted ++ [⟨n, a, BitVec.ofNat 32 v, c.pc⟩] } }

def csrWriteAt (n : Fin 8) (g : Fin 16) (a : Nat) (c : Ctx) (d : Dev) : Dev :=
  match csrFault a with | some f => faultHere n f d | none => post' n a (c.reg g).toNat c d

def csrAddr (blk : BitVec 5) (woff : BitVec 17) : Nat := blk.toNat * 0x100000 + 4 * woff.toNat

def aqsCsrr (n : Fin 8) (g : Fin 16) (blk : BitVec 5) (woff : BitVec 17) : Dev → Dev :=
  sequential n (encC 0x20 g blk woff) fun _ d => csrReadAt n g (csrAddr blk woff) d
def aqsCsrw (n : Fin 8) (g : Fin 16) (blk : BitVec 5) (woff : BitVec 17) : Dev → Dev :=
  sequential n (encC 0x21 g blk woff) fun c d => csrWriteAt n g (csrAddr blk woff) c d
def aqsCsrri (n : Fin 8) (g a : Fin 16) (imm : BitVec 18) : Dev → Dev :=
  sequential n (encI 0x22 g a imm) fun c d => csrReadAt n g (c.address a imm) d
def aqsCsrwi (n : Fin 8) (g a : Fin 16) (imm : BitVec 18) : Dev → Dev :=
  sequential n (encI 0x23 g a imm) fun c d => csrWriteAt n g (c.address a imm) c d

/-- An island whose clock is stopped gives no response (R242). -/
def responds (d : Dev) (a : Nat) : Bool := a / 0x100000 ≠ 18 || hRuns d

/-- A context has a request for a block on the register bus. -/
def onBus (d : Dev) (n : Fin 8) (block : Nat) : Bool :=
  inFlight d n block || (match (d.ctx n).busy with
    | .csr a _ => a / 0x100000 == block | .lyq _ _ _ => block == 9 | .dmaq _ _ _ => block == 17 | _ => false)

/-- The oldest urgent request for a block is another context's (R38). -/
def yields (d : Dev) (n : Fin 8) (block : Nat) : Bool :=
  match d.aqs.urgent.find? (fun x => x.2 == block && onBus d x.1 block) with | some (m, _) => m ≠ n | none => false

/-- A request of a context for a block is served: its urgency goes with it. -/
def served (n : Fin 8) (block : Nat) (d : Dev) : Dev := { d with aqs := { d.aqs with urgent := d.aqs.urgent.erase (n, block) } }

/-- A request on the register bus reaches its age threshold of 32 Q cycles (R38, R241). -/
def busPromote (n : Fin 8) (block : Fin 22) (waited : Nat) (d : Dev) : Dev :=
  if waited < 32 || !onBus d n block.val || d.aqs.urgent.contains (n, block.val) then d
  else { d with aqs := { d.aqs with urgent := d.aqs.urgent ++ [(n, block.val)] } }

/-- CSR_READ_DONE: the response returns, after the context's earlier writes to the block (R36). -/
def csrReadDone (n : Fin 8) (d : Dev) : Dev :=
  match (d.ctx n).busy with
  | .csr a g =>
    if inFlight d n (a / 0x100000) || (isCfgReg a && cfgInFlight d n) || !responds d a || yields d n (a / 0x100000) then d
    else
      let (d, v) := regRead (.ctx n) a (served n (a / 0x100000) d)
      let c := d.ctx n
      completes n (c.setReg g (v.setWidth 64)) d
  | _ => d

/-- POSTED_WRITE_DONE: the context's oldest write to a block takes effect and frees its slot. -/
def postedWriteDone (n : Fin 8) (block : Fin 22) (d : Dev) : Dev :=
  match (myPosted d n).find? (fun p => p.addr / 0x100000 == block.val) with
  | none => d
  | some p =>
    if !responds d p.addr || yields d n block.val then d
    else let d := served n block.val d; regWrite (.ctx n) p.addr p.val.toNat { d with aqs := { d.aqs with posted := d.aqs.posted.erase p } }

/-- BUS_TIMEOUT: a read, a LYQ or a DMAQ whose destination has not responded. -/
def busTimeout (n : Fin 8) (d : Dev) : Dev :=
  match (d.ctx n).busy with
  | .csr _ _ | .lyq _ _ _ | .dmaq _ _ _ => faultHere n 0x0A08 d
  | _ => d

/-- BUS_TIMEOUT_W: the context stops at the boundary of the instruction it has reached, and FAULT_PC names the write. A wait ends at
once, as at a STOP (R254). -/
def busTimeoutW (n : Fin 8) (block : Fin 22) (d : Dev) : Dev :=
  match (myPosted d n).find? (fun p => p.addr / 0x100000 == block.val) with
  | none => d
  | some p =>
    let d := { d with aqs := { d.aqs with posted := d.aqs.posted.erase p } }
    let c := d.ctx n
    if c.busy = .idle || c.run = .waiting then ctxFault n 0x0A09 p.pc d
    else d.setCtx n { c with late := some (c.late.getD p.pc) }

/-! ### Configuration, capture control and DMA (R244 to R246) -/

/-- Gd and Z of an instruction that returns a code. -/
def Ctx.coded (c : Ctx) (g : Fin 16) (code high : Nat) : Ctx :=
  { c.setReg g (BitVec.ofNat 64 (code + high * 2 ^ 32)) with z := code == 0 }

def aqsCfgl (n : Fin 8) (g a : Fin 16) : Dev → Dev :=
  sequential n (encR 0x24 g a 0) fun c d => begins n (.cfgl g (c.reg a).toNat) d

/-- CFGL_DONE. -/
def cfglDone (n : Fin 8) (d : Dev) : Dev :=
  match (d.ctx n).busy with
  | .cfgl g a =>
    if cfgInFlight d n then d
    else
      let (d, code, staged) := stageBlock (.ctx n) a 4096 d
      completes n ((d.ctx n).coded g code staged) d
  | _ => d

def aqsCommit (n : Fin 8) (g : Fin 16) : Dev → Dev :=
  sequential n (encU 0x25 g 0) fun c d =>
    if cfgInFlight d n then d
    else
      let (d, code, seq) := cfgCommit (.ctx n) d
      finish n (c.coded g code seq) d

def aqsArm (n : Fin 8) : Dev → Dev := sequential n (encU 0x2D 0 0) (post' n R.FOX_ARM 1)
def aqsDisarm (n : Fin 8) : Dev → Dev := sequential n (encU 0x2E 0 0) (post' n R.FOX_ARM 2)
def aqsForce (n : Fin 8) : Dev → Dev := sequential n (encU 0x2F 0 0) (post' n R.FOX_ARM 4)

def aqsMode (n : Fin 8) (how wakeArm : Bool) (arr : BitVec 2) (mode : BitVec 3) : Dev → Dev :=
  sequential n (encU 0x30 0 (modeImm how wakeArm arr mode)) (post' n R.GLB_MODE (modeImm how wakeArm arr mode).toNat)

def aqsDmaq (n : Fin 8) (g a : Fin 16) (ch : Fin 32) : Dev → Dev :=
  sequential n (encI 0x31 g a (BitVec.ofNat 18 ch.val)) fun c d => begins n (.dmaq g (c.reg a) ch) d

/-- DMAQ_DONE: BEAVER accepts or refuses the chain. -/
def dmaqDone (n : Fin 8) (d : Dev) : Dev :=
  match (d.ctx n).busy with
  | .dmaq g head ch =>
    if inFlight d n 17 || yields d n 17 then d
    else
      let d := served n 17 d
      let code := handoverCode ch head.toNat d
      let d := chainHandover ch head d
      completes n ((d.ctx n).coded g code 0) d
  | _ => d

def aqsLyq (n : Fin 8) (g a : Fin 16) (q : Fin 8) : Dev → Dev :=
  sequential n (encI 0x2C g a (BitVec.ofNat 18 q.val)) fun _ d => begins n (.lyq g a q) d

/-- LYQ_DONE: with the same register for both words, the second stands (log 20). -/
def lyqDone (n : Fin 8) (d : Dev) : Dev :=
  match (d.ctx n).busy with
  | .lyq g a q =>
    let d' := served n 9 d
    if inFlight d n 9 || yields d n 9 then d
    else let d := d'; if (d.lynx.get q).queue.isEmpty || inSreset d 9 then completes n { d.ctx n with z := true } d
    else
      let (d, w0, w1) := lynxPop q d
      completes n { ((d.ctx n).setReg g w0).setReg a w1 with z := false } d
  | _ => d

/-! ### Events and waits (R247 to R252) -/

/-- The lowest-numbered slot of a mask whose count is not 0. -/
def readySlot (c : Ctx) (mask : BitVec 16) : Option (Fin 16) :=
  (List.ofFn (id : Fin 16 → Fin 16)).find? (fun s => mask.getLsbD s.val && (c.watch.get s).cnt ≠ 0)

/-- WAIT takes a slot (R249). -/
def takeSlot (c : Ctx) (g s : Fin 16) : Ctx :=
  let w := c.watch.get s
  let c := { c with watch := c.watch.set s.val { w with cnt := w.cnt - 1, ovr := false }
                    latch := ⟨w.num, w.sub, BitVec.ofNat 4 s.val, w.arg, w.ts⟩ }
  { c.setReg g (BitVec.ofNat 64 s.val) with z := false, c := w.cnt - 1 ≠ 0, v := w.ovr }

/-- A WAIT that times out. -/
def waitOut (c : Ctx) (g : Fin 16) : Ctx := { c.setReg g 16 with z := true, c := false, v := false }

def aqsWait (n : Fin 8) (g a : Fin 16) (mask : BitVec 16) : Dev → Dev :=
  sequential n (encW 0x26 g a mask) fun c d =>
    match readySlot c mask with
    | some s => finish n (takeSlot c g s) d
    | none =>
      if a = 0 then waits n (.waitEv g mask none) d
      else if c.reg a = 0 then finish n (waitOut c g) d
      else waits n (.waitEv g mask (some (d.aqs.tick.toNat + (c.reg a).toNat))) d

/-- WAIT_WAKE. -/
def waitWake (n : Fin 8) (d : Dev) : Dev :=
  let c := d.ctx n
  match c.busy with
  | .waitEv g mask _ => match readySlot c mask with
    | some s => finish n (takeSlot c g s) d
    | none => d
  | _ => d

/-- WAIT_TIMEOUT: the tick copy has reached the deadline and no slot is ready. -/
def waitTimeout (n : Fin 8) (d : Dev) : Dev :=
  let c := d.ctx n
  match c.busy with
  | .waitEv g mask (some t) => if t ≤ d.aqs.tick.toNat && (readySlot c mask).isNone then finish n (waitOut c g) d else d
  | _ => d

def aqsWaitt (n : Fin 8) (a : Fin 16) (relative : Bool) : Dev → Dev :=
  sequential n (encI 0x27 0 a (BitVec.ofNat 18 relative.toNat)) fun c d =>
    let t := (c.reg a).toNat + (if relative then d.aqs.tick.toNat else 0)
    if t ≤ d.aqs.tick.toNat then finish n { c with c := true } d else waits n (.waitTick t) d

/-- WAITT_DONE. -/
def waittDone (n : Fin 8) (d : Dev) : Dev :=
  match (d.ctx n).busy with
  | .waitTick t => if t ≤ d.aqs.tick.toNat then finish n { d.ctx n with c := false } d else d
  | _ => d

/-- WAITC of at most 8 cycles takes its one slot. -/
def aqsWaitc (n : Fin 8) (k : BitVec 22) : Dev → Dev :=
  sequential n (encU 0x28 0 k) fun c d => if k.toNat ≤ 8 then finish n c d else waits n (.waitCyc k.toNat) d

/-- WAITC_DONE. -/
def waitcDone (n : Fin 8) (d : Dev) : Dev :=
  match (d.ctx n).busy with | .waitCyc _ => finish n (d.ctx n) d | _ => d

def aqsWset (n : Fin 8) (s : Fin 16) (ev : BitVec 12) : Dev → Dev :=
  local' n (encU 0x29 s (ev.setWidth 22)) fun c => { c with watch := c.watch.set s.val { num := ev } }

/-- What EVR reads of the latch. -/
def latchPart (l : EvLatch) (sel : BitVec 2) : Word64 :=
  match sel.toNat with
  | 0 => BitVec.ofNat 64 (l.num.toNat + l.sub.toNat * 2 ^ 16 + l.slot.toNat * 2 ^ 32)
  | 1 => l.arg
  | 2 => (l.ts >>> 32).setWidth 64
  | _ => BitVec.ofNat 64 (l.ts.toNat % 2 ^ 32)

def aqsEvr (n : Fin 8) (g : Fin 16) (sel : BitVec 2) : Dev → Dev :=
  local' n (encU 0x2A g (sel.setWidth 22)) fun c => c.setReg g (latchPart c.latch sel)
def aqsTsr (n : Fin 8) (g : Fin 16) : Dev → Dev :=
  sequential n (encU 0x2B g 0) fun c d => finish n (c.setReg g d.aqs.tick) d

def evProg (n : Fin 8) : Nat := 0x288 + n.val

def aqsEmit (n : Fin 8) (a : Fin 16) (sub : BitVec 8) : Dev → Dev :=
  sequential n (encI 0x32 0 a (sub.setWidth 18)) fun c d =>
    finish n c (d.post .q (evProg n) sub.toNat (c.reg a).toNat (some (mkTS d.aqs.tick.toNat)))

/-! ### Contexts (R253) -/

def aqsStart (n m : Fin 8) (a : Fin 16) : Dev → Dev :=
  sequential n (encI 0x33 0 a (BitVec.ofNat 18 m.val)) fun c d =>
    match pcOf (c.reg a) with
    | none => faultHere n 0x0A02 d
    | some pc =>
      let t := d.ctx m
      let may : Bool := m ≠ n && startAllowed d pc && (t.run = .stopped || t.run = .halted || t.run = .brk)
      let d := if may then d.setCtx m { t with run := .running, single := false, pc, code := 0 } else d
      finish n { c with z := may } d

/-- HALT and BKPT: PC past the instruction, and an event. -/
def haltAs (run : RunState) (ev : Nat) (n : Fin 8) (c : Ctx) (d : Dev) : Dev :=
  (d.setCtx n { c with run, pc := c.pc + 1, busy := .idle, single := false }).post .q ev n.val (c.pc.toNat + 1)

def aqsStop (n m : Fin 8) : Dev → Dev :=
  sequential n (encU 0x34 0 (BitVec.ofNat 22 m.val)) fun c d =>
    if m = n then haltAs .halted evCtxHalt n c d else finish n c (aqsCtxStop m d)

def aqsHalt (n : Fin 8) : Dev → Dev := sequential n (encU 0x35 0 0) (haltAs .halted evCtxHalt n)
def aqsBkpt (n : Fin 8) : Dev → Dev := sequential n (encU 0x36 0 0) (haltAs .brk evCtxBreak n)

end Sys2Proof.Machine
end

