-- ==== Sys2Proof/Machine/Host.lean ====
section
/-! DEFINITION. The host interface (chapter 17): events on their way to AQS and to the host (R35, R248, R415 to R418), the BARs
(R409 to R413), and the PCIe endpoint (R405 to R407, R30). -/
namespace Sys2Proof.Machine

def evHostFault : Nat := 0x005
def evPcieLink : Nat := 0x481
def evPcieAer : Nat := 0x482
def evPciePoison : Nat := 0x483
def evEventLost : Nat := 0x001

/-- The host can reach the module: Q and H are released and the link is up (R497). -/
def hostReaches (d : Dev) : Bool := d.pwr.qUp && hRuns d && d.flag F.PCIE_STATUS_DL_UP

/-! ### Events (R35, R248, R249) -/

/-- A watch slot counts an occurrence of its number; at a count of 255 it sets OVERRUN instead. -/
def countWatch (e : Event) (ts : TS) (w : Watch) : Watch :=
  if w.num = 0 || w.num.toNat ≠ e.num then w
  else if w.cnt = 255 then { w with ovr := true }
  else { w with cnt := w.cnt + 1, sub := BitVec.ofNat 8 e.sub, arg := e.arg, ts }

/-- Every watch slot of every context sees the event. -/
def watchAll (e : Event) (ts : TS) (d : Dev) : Dev :=
  { d with aqs := { d.aqs with ctxs := d.aqs.ctxs.map (fun c => { c with watch := c.watch.map (countWatch e ts) }) } }

def storeEvq (i : Nat) : List Byte → Store Byte → Store Byte
  | [], m => m
  | b :: bs, m => storeEvq (i + 1) bs (Store.set zeroByte m i b)

/-- An entry of the event queue (Table 17.3). -/
def evqEntry (e : Event) (ts : TS) (gap : Bool) (seq : Word) : List Byte :=
  leBytes 2 (e.num % 4096) ++ leBytes 1 e.sub ++ leBytes 1 gap.toNat ++ leBytes 4 seq.toNat ++ leBytes 8 e.arg.toNat
    ++ leBytes 12 ts.toNat ++ leBytes 4 0

/-- Append an event that its block's mask bit admits, and raise its vector; a full queue discards it (R415 to R417). -/
def appendEvent (e : Event) (ts : TS) (d : Dev) : Dev :=
  let block := e.num / 64
  if e.num = 0 || bitsOf (d.get F.GLB_EVQ_MASK_BLOCKS) block block = 0 then d
  else
    let wp := (d.rd R.GLB_EVQ_WR).toNat
    let h := d.host
    if 8192 ≤ (wp + 2 ^ 32 - (d.rd R.GLB_EVQ_RD).toNat) % 2 ^ 32 then
      (((d.setHost { h with gap := true, seq := h.seq + 1 }).count R.GLB_EVQ_LOST)).putB F.GLB_STATUS_EVQ_OVF true
    else
      let d := d.setHost { h with evq := storeEvq (32 * (wp % 8192)) (evqEntry e ts h.gap h.seq) h.evq, gap := false, seq := h.seq + 1 }
      let d := d.wr R.GLB_EVQ_WR (BitVec.ofNat 32 (wp + 1))
      if d.flag (F.GLB_IRQ_ROUTE_EN block) then raiseVector (Fin.ofNat 64 (d.get (F.GLB_IRQ_ROUTE_VECTOR block))) d else d

/-- EVENT_ARRIVAL: the oldest event of an island's crossing reaches Q; a held one takes its place. `rearm` is a write of
GLB_IRQ_REARM that arrives in the same Q cycle: it takes effect first (R418). -/
def eventArrival (i : Island) (rearm : Option (Fin 2 × Word)) (d : Dev) : Dev :=
  let d := match rearm with | some (k, bits) => if hostReaches d then irqRearm k bits d else d | none => d
  let c := d.crossings.get i
  match c.fifo with
  | [] => d
  | e :: rest =>
    let c := { c with fifo := rest ++ c.held.take 1, held := c.held.drop 1 }
    let ts := e.ts.getD (mkTS d.aqs.tick.toNat)
    appendEvent e ts (watchAll e ts { d with crossings := d.crossings.set i.val c })

/-- EVENT_DISCARD (R35): the event held longest is given up. -/
def eventDiscard (i : Island) (d : Dev) : Dev :=
  let c := d.crossings.get i
  match c.held with
  | [] => d
  | _ :: rest =>
    { d with crossings := d.crossings.set i.val { c with held := rest, lost := c.lost + 1 } }.count (R.GLB_EVENT_LOST i.val)

/-- EV_EVENT_LOST (R35): the crossing has room again. -/
def sayEventLost (i : Island) (d : Dev) : Dev :=
  let c := d.crossings.get i
  if c.lost = 0 || !c.held.isEmpty || 32 ≤ c.fifo.length then d
  else { d with crossings := d.crossings.set i.val { c with lost := 0 } }.post i evEventLost i.val c.lost

/-! ### Reports of host accesses (R410, R411) -/

def glbCode (c : Nat) (d : Dev) : Dev := d.put F.GLB_STATUS_LAST_CODE c

/-- A host access that went wrong: its flag and code, BAR and offset; the first since GLB_BAD_ADDR_LO was read posts an event. -/
def hostFault (code : Nat) (f : Field) (bar2 : Bool) (off : Nat) (d : Dev) : Dev :=
  let addr := (if bar2 then 2 ^ 63 else 0) + off % 2 ^ 40
  let d := ((glbCode code (d.putB f true))).wr64 R.GLB_BAD_ADDR_LO addr
  if d.host.faultNotified then d
  else (d.setHost { d.host with faultNotified := true }).post .q evHostFault (code % 256) addr

def holeFault (bar2 : Bool) (off : Nat) : Dev → Dev := hostFault 0x0021 F.GLB_STATUS_HOLE bar2 off

/-- The completion that the host receives. -/
def complete (bytes : List Byte) (d : Dev) : Dev := d.setHost { d.host with completion := bytes, poisoned := false }

/-! ### Register accesses of the host (R409, R410) -/

def hostWord (off : Nat) (d : Dev) : Dev × Word :=
  if !blockUp d (off / 0x100000) || isRegister off then regRead .host off d else (holeFault false off d, 0)

def hostWordWrite (off v : Nat) (d : Dev) : Dev :=
  if !blockUp d (off / 0x100000) then d
  else if isRegister off then regWrite .host off v d else holeFault false off d

/-- A host read of `len` bytes in the register range. -/
def hostRegRead (off len : Nat) (d : Dev) : Dev :=
  if csrEnd < off + len then complete (zeros len) (holeFault false off d)
  else if len = 4 && off % 4 = 0 then let (d, v) := hostWord off d; complete (leBytes 4 v.toNat) d
  else if len = 8 && off % 4 = 0 then
    let (d, v) := hostWord off d
    let (d, w) := hostWord (off + 4) d
    complete (leBytes 4 v.toNat ++ leBytes 4 w.toNat) d
  else complete (zeros len) (hostFault 0x0020 F.GLB_STATUS_SIZE_ERR false off d)

/-- A host write of bytes in the register range. -/
def hostRegWrite (off : Nat) (bytes : List Byte) (d : Dev) : Dev :=
  if csrEnd < off + bytes.length then holeFault false off d
  else if bytes.length = 4 && off % 4 = 0 then hostWordWrite off (leNat bytes) d
  else if bytes.length = 8 && off % 4 = 0 then
    hostWordWrite (off + 4) (leNat (bytes.drop 4)) (hostWordWrite off (leNat (bytes.take 4)) d)
  else hostFault 0x0020 F.GLB_STATUS_SIZE_ERR false off d

/-- Configuration space (R405, R407, R414, R418). -/
def configSpace (x : CfgItem) (d : Dev) : Dev :=
  let h := d.host
  flushPending (d.setHost (match x with
    | .msix en fm => { h with msixEn := en, funcMask := fm }
    | .busMaster on => { h with busMaster := on }
    | .relaxed on => { h with relaxed := on }
    | .maxPayload n => if [128, 256, 512].contains n then { h with mps := n } else h
    | .maxReadRequest n => if [128, 256, 512, 1024, 2048, 4096].contains n then { h with mrrs := n } else h
    | .aerCorrectable c => { h with aerCor := h.aerCor &&& ~~~c }
    | .aerUncorrectable c => { h with aerUncor := h.aerUncor &&& ~~~c }))

/-- REGISTER_WRITE: a write by a requester. Only the host's writes have other sizes than a word, and reach configuration
space. -/
def registerWrite (q : Requester) (t : RegTarget) (d : Dev) : Dev :=
  match q, t with
  | .host, .bar0 off bytes => if hostReaches d then hostRegWrite off.toNat bytes d else d
  | .host, .config x => if hostReaches d then configSpace x d else d
  | q, .bar0 off bytes => if bytes.length = 4 && isRegister off.toNat then regWrite q off.toNat (leNat bytes) d else d
  | _, .config _ => d

/-- A read by a requester of the word at a BAR0 offset: RC_READ, PAIR_LO_READ, LYNX_Q_POP, BAD_ADDR_READ. -/
def registerRead (q : Requester) (off len : Nat) (d : Dev) : Dev :=
  match q with
  | .host => if hostReaches d then hostRegRead off len d else d
  | q => if isRegister off then (regRead q off d).1 else d

/-! ### Memory accesses of the host (R410 to R413) -/

/-- What the SRAM windows of BAR0 map (Table 17.2). -/
def bar0Device (off : Nat) : Option Nat :=
  if 0x2000000 ≤ off && off < 0x2400000 then some (programBase + (off - 0x2000000))
  else if 0x2400000 ≤ off && off < 0x2800000 then some (tableBase + (off - 0x2400000))
  else none

/-- What BAR2 maps (R412). -/
def bar2Device (off : Nat) : Option Nat :=
  if off < dramEnd then some off
  else if 0x7000000000 ≤ off && off < 0x7100000000 then some (captureBase + (off - 0x7000000000))
  else none

/-- A write of the enabled bytes; what it touches of program SRAM loses the verified state. -/
def enabledStore (a : Nat) : List (Option Byte) → Dev → Dev
  | [], d => d
  | none :: bs, d => enabledStore (a + 1) bs d
  | some b :: bs, d => enabledStore (a + 1) bs (fabricStore d a [b])

/-- A read that meets a poisoned burst (R413). -/
def poisonedRead (a n : Nat) (d : Dev) : Dev :=
  let d := (d.count R.PCIE_POISON_CNT).put F.PCIE_STATUS_LAST_CODE 0x1202
  let d := d.setHost { d.host with completion := d.loadBytes a n, poisoned := true }
  d.post .h evPciePoison 0 a

/-- A host access to device memory, through `off` of its BAR. -/
def hostMemory (bar2 : Bool) (off : Nat) (dev : Option Nat) (x : MemAccess) (d : Dev) : Dev :=
  match dev, x with
  | none, .read n => complete (zeros n) (holeFault bar2 off d)
  | none, .write _ => holeFault bar2 off d
  | some a, .read n =>
    if !noHole d a n then complete (zeros n) (holeFault bar2 off d)
    else if burstPoisoned d a n then poisonedRead a n d else complete (d.loadBytes a n) d
  | some a, .write bs =>
    if !canWrite d a bs.length then holeFault bar2 off d
    else (enabledStore a bs d).clearPoison a (if bs.all (·.isSome) then bs.length else 0)

/-- A queue window: reads aligned to 4 bytes (R410). -/
def queueWindow (off base : Nat) (m : Store Byte) (x : MemAccess) (d : Dev) : Dev :=
  match x with
  | .read n =>
    if off % 4 = 0 && n % 4 = 0 then complete ((List.range n).map (fun i => Store.get zeroByte m (off - base + i))) d
    else complete (zeros n) (holeFault false off d)
  | .write _ => holeFault false off d

/-- BAR0_WINDOW_ACCESS (R410). -/
def bar0Window (off : BitVec 26) (x : MemAccess) (d : Dev) : Dev :=
  let o := off.toNat
  if !hostReaches d || o < csrEnd then d
  else if 0x2800000 ≤ o && o < 0x2840000 then queueWindow o 0x2800000 d.host.evq x d
  else if 0x2840000 ≤ o && o < 0x2850000 then queueWindow o 0x2840000 d.cfgc.rpt x d
  else if !d.pwr.up && 0x2400000 ≤ o && o < 0x2800000 then (match x with | .read n => complete (zeros n) d | .write _ => d)
  else hostMemory false o (bar0Device o) x d

/-- BAR2_ACCESS (R412, R413). -/
def bar2Access (off : BitVec 39) (x : MemAccess) (d : Dev) : Dev :=
  if hostReaches d then hostMemory true off.toNat (bar2Device off.toNat) x d else d

/-- HOST_TIMEOUT (R411, R413): a read completes with all ones, a write is discarded. -/
def hostTimeout (bar2 : Bool) (off : BitVec 39) (len : Option Nat) (d : Dev) : Dev :=
  if !hostReaches d then d
  else
    let d := hostFault 0x0022 F.GLB_STATUS_TIMEOUT bar2 off.toNat d
    match len with | some n => complete (List.replicate n 0xFF) d | none => d

/-! ### The endpoint (R30, R405 to R407) -/

/-- What identifies the endpoint in configuration space (Table 17.1). -/
structure PcieIdentity where
  vendor : Nat
  device : Nat
  revision : Nat
  classCode : Nat
  subsystem : Nat
deriving DecidableEq, Repr

def pcieIdentity (d : Dev) : PcieIdentity :=
  { vendor := 0x1F7C, device := 0x4320, revision := 0xB0, classCode := 0x118000, subsystem := if d.get F.GLB_ID_VARIANT = 0 then 1 else 2 }

/-- LINK_CHANGE (R406); lane widths that Table 17.1 does not list are no link. -/
def linkChange (speed : Fin 7) (width : Fin 17) (up : Bool) (pm : BitVec 2) (d : Dev) : Dev :=
  let lanes : List Nat := [0, 1, 2, 4, 8, 16]
  if !hRuns d || !d.pwr.qUp || !lanes.contains width.val
      || (speed.val ≠ d.get F.PCIE_STATUS_SPEED && d.get F.PCIE_CTRL_TARGET_SPEED < speed.val) then d
  else
    let fell := d.flag F.PCIE_STATUS_DL_UP && d.get F.PCIE_STATUS_PM = 0 && (pm = 3 || !up)
    let d := ((d.put F.PCIE_STATUS_SPEED speed.val).put F.PCIE_STATUS_WIDTH width.val).putB F.PCIE_STATUS_DL_UP up
    let d := (d.put F.PCIE_STATUS_PM pm.toNat).put F.PCIE_STATUS_STATE (if up then stOn else stOff)
    let d := if fell then d.put F.PCIE_STATUS_LAST_CODE 0x1203
      else if up && (speed.val < 6 || width.val < 16) then d.put F.PCIE_STATUS_LAST_CODE 0x1201 else d
    d.post .h evPcieLink 0 (speed.val + 16 * width.val + 512 * up.toNat)

/-- Configuration space, the MSI-X table and the PCIE registers return to reset (R407). -/
def resetPcie (d : Dev) : Dev :=
  let h := d.host
  (resetRegs (· == 18) d).setHost { h with msix := Vector.replicate 64 {}, pba := 0, msixEn := false, funcMask := false, busMaster := false
                                           relaxed := false, mps := 128, mrrs := 512, aerCor := 0, aerUncor := 0 }

/-- PERST: PERST_N is asserted. -/
def perstAsserted (d : Dev) : Dev := (resetPcie d).setHost { (resetPcie d).host with perst := true }

/-- FUNCTION_LEVEL_RESET: the link stays as it is, and PCIE_STATUS goes on showing it (log 22). -/
def functionLevelReset (d : Dev) : Dev :=
  if !hRuns d then d else (resetPcie d).wr R.PCIE_STATUS (BitVec.ofNat 32 (bitsOf (d.rd R.PCIE_STATUS).toNat 15 0))

/-- PERST_RELEASE (R497). -/
def perstRelease (d : Dev) : Dev := d.setHost { d.host with perst := false }

/-- PCIE_REF_CHANGE (R30). -/
def pcieRefChange (present : Bool) (d : Dev) : Dev := d.setHost { d.host with refPresent := present }

/-- PCIE_AER_ERROR (R405). -/
def pcieAer (uncorrectable : Bool) (status : Word) (d : Dev) : Dev :=
  if !hRuns d then d
  else if uncorrectable then
    let s := d.host.aerUncor ||| status
    ((d.setHost { d.host with aerUncor := s }).count R.PCIE_UE_CNT).post .h evPcieAer 1 s.toNat
  else
    let s := d.host.aerCor ||| status
    ((d.setHost { d.host with aerCor := s }).count R.PCIE_CE_CNT).post .h evPcieAer 0 s.toNat

end Sys2Proof.Machine
end

