-- ==== Sys2Proof/Machine/Units.lean ====
section
/-! DEFINITION. What several blocks share: a unit's drain or abort that ends (R62 to R64), the tick, promotion by age (R38), the
debug access port (R470), and the levels of the outputs (R151, R316, R508). -/
namespace Sys2Proof.Machine

/-- A command acts on the hardware and leaves the queue. -/
def State.act (f : Dev → Dev) (s : State) : Host.Outcome State Fault Refusal := .next { s with dev := f s.dev }

/-- A block whose islands are held in reset, or whose soft reset runs, does nothing (R492, R497). -/
def live (block : Nat) (f : Dev → Dev) (d : Dev) : Dev := if blockRuns d block then f d else d

/-- A block that the full event crossing holds does not go on with its own work (R34, R35; DEDUCED, log 127). -/
def unheld (block : Nat) (f : Dev → Dev) (d : Dev) : Dev := if blockHeld d block then d else f d

/-- The block that posts a unit's events. -/
def unitBlock : UnitId → Nat
  | .ilv => 3 | .fox => 7 | .sdec _ => 8 | .cap => 11 | .red _ => 12 | .stk => 13 | .badger => 15 | .beaver _ => 17
  | .ddr _ => 16 | .ifl _ => 19 | .lynx _ => 9 | .pulse _ => 6 | .owl _ => 5 | .cal => 14

/-! ### Commands that several registers or engines share -/

/-- A program's access to a block that arrives in the same Q cycle as a host's: it takes effect first (R20, R56, R243). -/
def programFirst (q : Requester) (prog : Option (Fin 8 × Fin 22)) (d : Dev) : Dev :=
  match q, prog with
  | .host, some (n, b) =>
    (match (d.ctx n).busy with
    | .csr a _ => if a / 0x100000 = b.val then csrReadDone n d else postedWriteDone n b d
    | .lyq _ _ _ => if b = 9 then lyqDone n d else postedWriteDone n b d
    | .dmaq _ _ _ => if b = 17 then dmaqDone n d else postedWriteDone n b d
    | _ => postedWriteDone n b d)
  | _, _ => d

/-- CONFIG_WRITE: the address is a configuration register of a block that runs. -/
def configCommand (q : Requester) (a v : Nat) (d : Dev) : Dev := if isCfgReg a && isRegister a then regWrite q a v d else d

/-- RED_BLOCK_DONE: a MEM pipe's reads of capture SRAM wait for CAP's body bursts at the read port (R22). -/
def redBlock (p : Fin 4) (d : Dev) : Dev :=
  let a := d.cf64 (R.RED_p_MEM_ADDR_LO p) + (d.red.get p).memK / 3 * 4
  if pipeMem d p && regionOf d a = some .capture && captureBusy d then d else redBlockDone p d

/-- A write of HEDGE_CMD (Table 19.8). -/
def hedgeCommand (op : Nat) (d : Dev) : Dev := hedgeStart (trimDigest d) op d

/-- ILLEGAL_OP (R234): the word that a context would issue is no instruction. -/
def illegalOp (n : Fin 8) (d : Dev) : Dev :=
  if mayRun (d.ctx n) && (aqsDecode n (wordAt d (d.ctx n).pc)).isNone then faultHere n 0x0A01 d else d

/-! ### The end of a drain and of an ABORT (Table 2.8) -/

/-- A decoder is OFF; outside a transition what was committed meanwhile takes effect, and a re-enabled one starts clean. -/
def sdecOff (n : Fin 4) (d : Dev) : Dev :=
  let d := (sdecRestart n d).setUnit (.sdec n) stOff
  if d.phase = 0 && hasPart d (.sdec n) then trigoutMinRecompute (sdecTake n d) else d

/-- UNIT_DRAIN_DONE: the item in progress is finished and the unit is OFF. CAP, DDR, OWL, CAL, ILV and FOX end theirs with the
events of their own chapters. -/
def unitDrainDone (u : UnitId) (d : Dev) : Dev :=
  if d.unitState u ≠ stDraining then d
  else match u with
    | .sdec n => if sdecInFrame d n && sdecDecodes d n then d else sdecOff n d
    | .red p =>
      let d := restartPipe 0 none p d
      (d.setRed p { d.red.get p with running := false }).setUnit (.red p) stOff
    | .stk => if d.stk.fold.isSome then d else stkBoundary (d.setUnit .stk stOff)
    | .badger => showBadger d
    | .beaver n => if (d.beaver.chans.get n).desc.isSome then d else chanIdle n (chanCfg n d)
    | .ddr n =>
      if (d.ddr.chans.get n).queue.isEmpty then
        showDdr ((d.setUnit (.ddr n) stOff).put F.DDR_READY_SR (setBits (d.get F.DDR_READY_SR) n.val n.val 1))
      else d
    | .ifl x => iflDrained x d
    | .lynx n => if (d.lynx.get n).measuring then d else lynxOff n d
    | .pulse u => if (d.pulse.get u).active then d else pulseDrained u d
    | .ilv | .fox | .cap | .owl _ | .cal => d

/-- UNIT_ABORT_DONE: the unit is OFF. A BEAVER channel halts with its write-back instead. -/
def unitAbortDone (u : UnitId) (d : Dev) : Dev :=
  if d.unitState u ≠ stAborting then d
  else match u with
    | .cap => d.put F.CAP_STATUS_STATE stOff
    | .sdec n => sdecOff n d
    | .red p => d.setUnit (.red p) stOff
    | .stk => stkBoundary (d.setUnit .stk stOff)
    | .badger => showBadger (d.setUnit .badger stOff)
    | .lynx n => lynxOff n d
    | .pulse u =>
      let d := d.setUnit (.pulse u) stOff
      if hasPart d (.pulse u) then pulseTake u d else d
    | .cal => calAborted d
    | .ilv | .fox | .beaver _ | .ddr _ | .ifl _ | .owl _ => d

/-! ### The tick (R155, R247) -/

/-- TICK_STROBE: the tick count advances and what waits for a tick happens. `q` Q cycles have passed, `sdi` are the lines' sixteen
samples, `cdr` the bit centres of the decoders that recover a clock from them. -/
def tickStrobe (q : Nat) (sdi : Vector (BitVec 16) 8) (cdr : List CdrBit) (d : Dev) : Dev :=
  let d := stagTick d
  let d := { d with sdi, aqs := { d.aqs with cycle := d.aqs.cycle + BitVec.ofNat 64 q, tick := BitVec.ofNat 64 (nowTick d) } }
  let d := sdecTick d.stag.now.toNat cdr d
  let d := foxOwlTick d
  let d := pipes.foldl pulseTick d
  let d := [0, 1, 2, 3].foldl owlTick d
  calTick (iflTick (decideNow (lynxMark d)))

/-! ### Promotion by age (R38) -/

/-- AGE_PROMOTE: a request has waited so long, × 0.1 µs; on the AQS register bus, so many Q cycles. -/
def agePromote (a : Arbiter) (waited : Nat) (d : Dev) : Dev :=
  match a with
  | .ddr n i => ddrPromote n i waited d
  | .beaver n => beaverPromote n waited d
  | .badger s => badgerPromote s waited d
  | .ring p i => framePromote p i waited d
  | .aqs n b => busPromote n b waited d

/-! ### The debug access port (R470) -/

/-- DEBUG_PORT_INSTRUCTION: with DEBUG_LOCK burnt a private instruction acts as BYPASS. -/
def debugInstruction (i : TapInstr) (d : Dev) : Dev :=
  { d with tap := match i with
      | .priv c => if d.hedge.debugLock then .bypass else .priv c
      | .bypass => .bypass | .sample => .sample | .extest => .extest | .idcode => .idcode }

/-! ### Output levels (R151, R316, R508) -/

/-- VDD_IO and VDD_ANH are within tolerance: the outputs are driven. -/
def outputsDriven (d : Dev) : Bool := bitsOf (d.get F.PWR_RAIL_OK) 1 1 == 1 && bitsOf (d.get F.PWR_RAIL_OK) 7 7 == 1

/-- The level of TRIGOUT; none while it is high-impedance. -/
def trigoutPin (d : Dev) : Option Bool :=
  if outputsDriven d then some (trigoutActive d != d.fox.trigout.cfg.getLsbD 30) else none

/-- The level of PULSE u; none while it is high-impedance. -/
def pulsePin (d : Dev) (u : Fin 4) : Option Bool :=
  if outputsDriven d then some (d.flag (F.PULSE_u_STATUS_OUT u) != d.cfgB (F.PULSE_u_CFG_POL u)) else none

end Sys2Proof.Machine
end

