-- ==== Sys2Proof/Machine/AccessRows.lean ====
section
/-! DEFINITION. The meanings of the commands of one family: Register and memory accesses, events, commits, the endpoint. -/
namespace Sys2Proof.Machine

/-- REGISTER_WRITE (R7): A write to a register that has no row of its own acts by its access type. -/
def execRegisterWrite (q : Sender) (t : RegTarget) (s : State) : Host.Outcome State Fault Refusal :=
  s.act (registerWrite q.req t ∘ programFirst q.req q.prog)

/-- RC_READ (R7): A read of an RC register returns its value and clears every bit it returned as 1. -/
def execRcRead (q : Requester) (off : BitVec 26) (len : Nat) (s : State) : Host.Outcome State Fault Refusal :=
  s.act (registerRead q off.toNat len)

/-- PAIR_LO_READ (R10): A read of a _LO half, or of word 0 of a multi-word register, copies the other words into the requester's shadow. -/
def execPairLoRead (q : Requester) (off : BitVec 26) (len : Nat) (s : State) : Host.Outcome State Fault Refusal :=
  s.act (registerRead q off.toNat len)

/-- CONFIG_WRITE (R273): A write to a configuration register reaches CFGC, takes a sequence number, is checked field by field and is staged. -/
def execConfigWrite (q : Sender) (off : BitVec 26) (v : Word) (s : State) : Host.Outcome State Fault Refusal :=
  s.act (configCommand q.req off.toNat v.toNat ∘ programFirst q.req q.prog)

/-- EVENT_DISCARD (R35): An event held 64 Q cycles at a full event crossing is discarded and counted in EVENT_LOST. -/
def execEventDiscard (isl : Island) (s : State) : Host.Outcome State Fault Refusal :=
  s.act (live 0 (eventDiscard isl))

/-- EV_EVENT_LOST (R35): Once the crossing has room again, EV_EVENT_LOST is posted. -/
def execEvEventLost (isl : Island) (s : State) : Host.Outcome State Fault Refusal :=
  s.act (live 0 (sayEventLost isl))

/-- EVENT_ARRIVAL (R248): An event arrives in Q and is counted in watch slots and queued for the host. -/
def execEventArrival (x : Arrival) (s : State) : Host.Outcome State Fault Refusal :=
  s.act (live 0 (eventArrival x.isl x.rearm))

/-- CFGC_COMMIT (R274): CFGC_CMD.COMMIT requests a commit of the staged writes. -/
def execCfgcCommit (q : Requester) (s : State) : Host.Outcome State Fault Refusal :=
  s.act (live 1 (cfgcCommit q))

/-- CFGC_DISCARD (R272): CFGC_CMD.DISCARD empties the staging set. -/
def execCfgcDiscard (q : Requester) (s : State) : Host.Outcome State Fault Refusal :=
  s.act (live 1 (cfgcDiscard q))

/-- COMMIT_CHECK_DONE (R274): CFGC finishes a commit's checks and hands each block its part. -/
def execCommitCheckDone (s : State) : Host.Outcome State Fault Refusal :=
  s.act (live 1 (unheld 1 commitCheckDone))

/-- COMMIT_APPLY (R275): A unit applies a commit's fields at its boundary. -/
def execCommitApply (u : CfgUnit) (s : State) : Host.Outcome State Fault Refusal :=
  s.act (live (cfgUnitBlock u) (unheld (cfgUnitBlock u) (commitApplied u)))

/-- AGE_PROMOTE (R38): A request reaching its arbiter's age threshold is promoted to urgent. -/
def execAgePromote (a : Arbiter) (waited : Nat) (s : State) : Host.Outcome State Fault Refusal :=
  s.act (live 0 (agePromote a waited))

/-- BAR2_ACCESS (R413): A host request through BAR2 is performed on the device address space. -/
def execBar2Access (off : BitVec 39) (x : MemAccess) (s : State) : Host.Outcome State Fault Refusal :=
  s.act (bar2Access off x)

/-- HOST_TIMEOUT (R411): A host access not served in time completes with all ones or is discarded. -/
def execHostTimeout (bar2 : Bool) (off : BitVec 39) (len : Option Nat) (s : State) : Host.Outcome State Fault Refusal :=
  s.act (hostTimeout bar2 off len)

/-- BAD_ADDR_READ (R411): A read of GLB_BAD_ADDR_LO re-enables EV_HOST_FAULT. -/
def execBadAddrRead (q : Requester) (s : State) : Host.Outcome State Fault Refusal :=
  s.act (registerRead q R.GLB_BAD_ADDR_LO 4)

/-- IRQ_REARM (R418): A 1 written to GLB_IRQ_REARM arms a vector and issues a latched message. -/
def execIrqRearm (k : Fin 2) (bits : Word) (s : State) : Host.Outcome State Fault Refusal :=
  s.act (live 0 (irqRearm k bits))

/-- MSIX_UNMASK (R418): Unmasking a vector issues its pending message. -/
def execMsixUnmask (v : Fin 64) (s : State) : Host.Outcome State Fault Refusal :=
  s.act (live 18 (msixUnmask v))

/-- LINK_CHANGE (R406): The PCIe link changes state and is reported. -/
def execLinkChange (speed : Fin 7) (width : Fin 17) (up : Bool) (pm : BitVec 2) (s : State) : Host.Outcome State Fault Refusal :=
  s.act (linkChange speed width up pm)

/-- PERST (R407): PERST_N returns configuration space and PCIE registers to reset. -/
def execPerst (s : State) : Host.Outcome State Fault Refusal :=
  s.act perstAsserted

/-- FUNCTION_LEVEL_RESET (R407): A Function Level Reset returns configuration space and PCIE registers to reset. -/
def execFunctionLevelReset (s : State) : Host.Outcome State Fault Refusal :=
  s.act functionLevelReset

/-- BAR0_WINDOW_ACCESS (R410): A host access through the BAR0 SRAM or queue windows reads or writes bytes, clearing the verified state on a program SRAM write. -/
def execBar0WindowAccess (off : BitVec 26) (x : MemAccess) (s : State) : Host.Outcome State Fault Refusal :=
  s.act (bar0Window off x)

/-- PERST_RELEASE (R497): PERST_N is released, H restarts and link training begins within 20 ms. -/
def execPerstRelease (s : State) : Host.Outcome State Fault Refusal :=
  s.act perstRelease

/-- PCIE_REF_CHANGE (R30): The PCIe 100 MHz reference is lost or returns, stopping or restarting island H. -/
def execPcieRefChange (present : Bool) (s : State) : Host.Outcome State Fault Refusal :=
  s.act (pcieRefChange present)

/-- DEBUG_PORT_INSTRUCTION (R470): An instruction is loaded at the debug access port and decoded, acting as BYPASS for private instructions once DEBUG_LOCK is burnt. -/
def execDebugPortInstruction (t : TapInstr) (s : State) : Host.Outcome State Fault Refusal :=
  s.act (debugInstruction t)

/-- PCIE_AER_ERROR (R405): The endpoint logs a correctable or uncorrectable error in AER, counts it and posts EV_PCIE_AER. -/
def execPcieAerError (uncorrectable : Bool) (status : Word) (s : State) : Host.Outcome State Fault Refusal :=
  s.act (pcieAer uncorrectable status)

end Sys2Proof.Machine
end

