-- ==== Sys2Proof/Machine/CalibrationRows.lean ====
section
/-! DEFINITION. The meanings of the commands of one family: CAL. -/
namespace Sys2Proof.Machine

/-- CAL_START (R321): A write of CAL_START requests a calibration procedure or is refused. -/
def execCalStart (v : Word) (s : State) : Host.Outcome State Fault Refusal :=
  s.act (live 14 (calStart v.toNat))

/-- CAL_DONE (R327): A procedure ends and applies all its results together. -/
def execCalDone (r : CalResult) (s : State) : Host.Outcome State Fault Refusal :=
  s.act (live 14 (unheld 14 (calDone r)))

/-- CAL_FAIL (R324): A procedure fails and applies nothing. -/
def execCalFail (reading : Option Nat) (s : State) : Host.Outcome State Fault Refusal :=
  s.act (live 14 (unheld 14 (calFail reading)))

/-- CAL_SAVE (R332): CAL_CMD.SAVE copies the live image into the buffer. -/
def execCalSave (s : State) : Host.Outcome State Fault Refusal :=
  s.act (live 14 calSave)

/-- CAL_RESTORE (R334): CAL_CMD.RESTORE checks and applies the image buffer. -/
def execCalRestore (s : State) : Host.Outcome State Fault Refusal :=
  s.act (live 14 calRestore)

/-- CAL_BUNDLE (R337): CAL_CMD.BUNDLE has HEDGE verify the bundle at CAL_BUNDLE_ADDR. -/
def execCalBundle (s : State) : Host.Outcome State Fault Refusal :=
  s.act (live 14 calBundle)

/-- BUNDLE_DONE (R337): Bundle verification ends and the named sections apply or the bundle is refused. -/
def execBundleDone (s : State) : Host.Outcome State Fault Refusal :=
  s.act (live 14 (unheld 14 bundleDone))

/-- CAL_ABORT (R324): CAL_CMD.ABORT aborts the procedure, applying nothing. -/
def execCalAbort (s : State) : Host.Outcome State Fault Refusal :=
  s.act (live 14 calAbortCmd)

/-- CAL_STALE_EVAL (R330): Each millisecond CAL evaluates the stale conditions of the set in use. -/
def execCalStaleEval (s : State) : Host.Outcome State Fault Refusal :=
  s.act (live 14 (unheld 14 calStaleEval))

end Sys2Proof.Machine
end

