-- ==== Sys2Proof/Machine/CaptureRows.lean ====
section
/-! DEFINITION. The meanings of the commands of one family: CAP. -/
namespace Sys2Proof.Machine

/-- BODY_BURST (R175): CAP issues a 64-byte body burst to DDR when the crossing has room. -/
def execBodyBurst (s : State) : Host.Outcome State Fault Refusal :=
  s.act (live 11 (unheld 11 bodyBurst))

/-- RECORD_CLOSE (R176): A record or segment closes at its post-trigger count and its header fields are fixed. -/
def execRecordClose (s : State) : Host.Outcome State Fault Refusal :=
  s.act (live 11 (unheld 11 recordClose))

/-- HEADER_WRITE (R176): After every body burst is accepted CAP writes the unit's header and posts its completion event. -/
def execHeaderWrite (s : State) : Host.Outcome State Fault Refusal :=
  s.act (live 11 (unheld 11 headerWrite))

/-- ACQ_HEADER_WRITE (R191): When an acquisition ends and its last segment header is written CAP writes the acquisition header. -/
def execAcqHeaderWrite (s : State) : Host.Outcome State Fault Refusal :=
  s.act (live 11 (unheld 11 acqHeaderWrite))

/-- STREAM_BLOCK_CLOSE (R193): A stream block closes after POST samples per input and the next begins. -/
def execStreamBlockClose (s : State) : Host.Outcome State Fault Refusal :=
  s.act (live 11 (unheld 11 streamBlockClose))

/-- CAP_STREAM_RD (R194): A write of CAP_STREAM_RD frees ring slots for waiting blocks. -/
def execCapStreamRd (v : Word64) (s : State) : Host.Outcome State Fault Refusal :=
  s.act (live 11 (capStreamRd v.toNat))

/-- OVERFLOW_RESUME (R196): CAP resumes at the first vector after 4 MiB of capture SRAM are free. -/
def execOverflowResume (s : State) : Host.Outcome State Fault Refusal :=
  s.act (live 11 (unheld 11 overflowResume))

end Sys2Proof.Machine
end

