-- ==== Sys2Proof/Machine/ClockRows.lean ====
section
/-! DEFINITION. The meanings of the commands of one family: STAG, CONV and ILV. -/
namespace Sys2Proof.Machine

/-- EST_WINDOW_END (R85): At the end of an estimator window ILV computes QUAL, classifies sub-converters and publishes or stages proposals. -/
def execEstWindowEnd (quals : List Nat) (leaks : List SubLeak) (props : List TrimProp) (s : State) : Host.Outcome State Fault Refusal :=
  s.act (live 3 (unheld 3 (windowEnd quals leaks props)))

/-- SHADOW_END (R90): The spare's shadow window ends, its trims are written and SHADOW_READY is set. -/
def execShadowEnd (b : Fin 4) (trima trimb : Word) (s : State) : Host.Outcome State Fault Refusal :=
  s.act (live 3 (unheld 3 (shadowEnd b trima trimb)))

/-- REF_PRESENT (R101): REFIN in amplitude and frequency for 100 µs is declared present. -/
def execRefPresent (s : State) : Host.Outcome State Fault Refusal :=
  s.act (live 4 refPresent)

/-- REF_LOSS (R101): REFIN with no edge for 200 ns or off frequency for 10 µs is declared absent. -/
def execRefLoss (s : State) : Host.Outcome State Fault Refusal :=
  s.act (live 4 refLoss)

/-- HOLDOVER_ENTRY (R103): Within 1 µs of losing its source the timebase loop enters holdover without a phase step. -/
def execHoldoverEntry (s : State) : Host.Outcome State Fault Refusal :=
  s.act (live 4 holdoverEntry)

/-- REF_RETURN (R104): A change of source is measured as a jump and acted on under the policy. -/
def execRefReturn (measured : Int) (s : State) : Host.Outcome State Fault Refusal :=
  s.act (live 4 (refReturn measured))

/-- SLEW_DONE (R105): When the slew remainder reaches ±1 ps SLEWING clears. -/
def execSlewDone (s : State) : Host.Outcome State Fault Refusal :=
  s.act (live 4 (unheld 4 slewDone))

/-- SNAP_STEP (R106): Under SNAP the tick count steps by the jump at the step tick. -/
def execSnapStep (s : State) : Host.Outcome State Fault Refusal :=
  s.act (live 4 (unheld 4 snapStep))

/-- TB_LOAD (R108): A write of STAG_TB_LOAD_HI loads the tick count at the next tick or is refused. -/
def execTbLoad (count : Word64) (s : State) : Host.Outcome State Fault Refusal :=
  s.act (live 4 (tbLoad count))

/-- SL_DIV_APPLY (R110): A waiting SL_DIV change is applied once FOX is disarmed and CAP holds nothing open. -/
def execSlDivApply (s : State) : Host.Outcome State Fault Refusal :=
  s.act (live 4 (unheld 4 (settleDue ∘ commitApplied .stagSl)))

/-- SL_UNLOCK (R114): Eight consecutive phase-error comparisons above 5 ps declare the sample loop unlocked. -/
def execSlUnlock (s : State) : Host.Outcome State Fault Refusal :=
  s.act (live 4 (settleDue ∘ slUnlock))

/-- SL_SEARCH_START (R116): 1 µs after the detection point, with AUTO_RELOCK, the band search begins. -/
def execSlSearchStart (s : State) : Host.Outcome State Fault Refusal :=
  s.act (live 4 (unheld 4 slSearchStart))

/-- SL_LOCK (R113): The band search and fine lock complete and the islands return from BYCLK. -/
def execSlLock (band : BitVec 6) (s : State) : Host.Outcome State Fault Refusal :=
  s.act (live 4 (slLocks band))

/-- SL_BAND_FAIL (R113): When no band locks STAG stays on BYCLK and repeats the search every 1 ms. -/
def execSlBandFail (s : State) : Host.Outcome State Fault Refusal :=
  s.act (live 4 slBandFail)

/-- TB_LOOP_FAIL (R117): The timebase loop fails, T switches to BYCLK and the count continues on holdover. -/
def execTbLoopFail (s : State) : Host.Outcome State Fault Refusal :=
  s.act (live 4 tbLoopFail)

/-- REF_OFFSET_MEAS (R521): Every 10 ms while REFIN is present its frequency offset is measured. -/
def execRefOffsetMeas (offset : Word) (s : State) : Host.Outcome State Fault Refusal :=
  s.act (live 4 (refOffsetMeas offset))

/-- TIMEBASE_LOCK (R102): The timebase loop completes its lock to REFIN or ring time, and TB_LOCK sets with TB_SRC showing the source. -/
def execTimebaseLock (s : State) : Host.Outcome State Fault Refusal :=
  s.act (live 4 timebaseLocks)

/-- TICK_STROBE (R155): At every tick the tick strobe, tick count and sixteen SDI samples cross from T to C, and AQS updates its tick copy. -/
def execTickStrobe (cycles : Nat) (sdi : Vector (BitVec 16) 8) (cdr : List CdrBit) (s : State) : Host.Outcome State Fault Refusal :=
  s.act (live 4 (tickStrobe cycles sdi cdr))

end Sys2Proof.Machine
end

