-- ==== Sys2Proof/Machine/MeasureRows.lean ====
section
/-! DEFINITION. The meanings of the commands of one family: LYNX, OWL and PULSE. -/
namespace Sys2Proof.Machine

/-- LYNX_START (R286): LYNX_n_CMD.START begins calibration and a measurement series or is refused. -/
def execLynxStart (n : Fin 8) (s : State) : Host.Outcome State Fault Refusal :=
  s.act (live 9 (lynxStart n))

/-- LYNX_ABORT (R299): LYNX_n_CMD.ABORT ends the measurement in progress. -/
def execLynxAbort (n : Fin 8) (s : State) : Host.Outcome State Fault Refusal :=
  s.act (live 9 (lynxAbort n))

/-- LYNX_FLUSH (R294): LYNX_n_CMD.FLUSH empties the queue. -/
def execLynxFlush (n : Fin 8) (s : State) : Host.Outcome State Fault Refusal :=
  s.act (live 9 (lynxFlush n))

/-- LYNX_CAL_DONE (R285): An interpolator calibration of 48 ticks ends with a gain and zero or a failure. -/
def execLynxCalDone (n : Fin 9) (ip : Fin 2) (m1 m2 : Int) (s : State) : Host.Outcome State Fault Refusal :=
  s.act (live 9 (lynxCalDone n ip m1 m2))

/-- LYNX_EDGE (R284): A selected source edge passed by the prescaler is stamped and queued. -/
def execLynxEdge (n : Fin 8) (e : Nat) (x : Int) (rising : Bool) (s : State) : Host.Outcome State Fault Refusal :=
  s.act (live 9 (lynxEdge n e x rising))

/-- LYNX_EPOCH_END (R287): A STAMP epoch ends and the interpolators exchange. -/
def execLynxEpochEnd (n : Fin 8) (s : State) : Host.Outcome State Fault Refusal :=
  s.act (live 9 (lynxEpochEnd n))

/-- LYNX_GATE_CLOSE (R289): A FREQ gate closes and its duration and count entries are queued. -/
def execLynxGateClose (n : Fin 8) (s : State) : Host.Outcome State Fault Refusal :=
  s.act (live 9 (lynxGateClose n))

/-- LYNX_Q_POP (R294): A read of LYNX_n_Q(0) pops the oldest entry into the shadow. -/
def execLynxQPop (q : Requester) (n : Fin 8) (s : State) : Host.Outcome State Fault Refusal :=
  s.act (registerRead q (R.LYNX_n_Q n 0) 4)

/-- EXTTRIG_EDGE (R298): The EXTTRIG stamper stamps a crossing and delivers it to FOX as a candidate. -/
def execExttrigEdge (e : Nat) (x : Int) (rising : Bool) (s : State) : Host.Outcome State Fault Refusal :=
  s.act (live 9 (exttrigEdge e x rising))

/-- OWL_CROSSING (R303): A signal crossing a monitor threshold sets or clears a latch and changes the trip state. -/
def execOwlCrossing (n : Fin 8) (level : Fin 4) (ts : TS) (s : State) : Host.Outcome State Fault Refusal :=
  s.act (live 5 (owlCrossing n level ts))

/-- SEED_DONE (R306): The spare's seeding reading decides the undecided latches. -/
def execSeedDone (n : Fin 8) (reading : Int) (out : Fin 3) (ts : TS) (s : State) : Host.Outcome State Fault Refusal :=
  s.act (live 5 (seedDone n reading out ts))

/-- OWL_SEED (R309): OWL_n_CMD.SEED re-runs seeding without disabling the monitor. -/
def execOwlSeed (n : Fin 8) (s : State) : Host.Outcome State Fault Refusal :=
  s.act (live 5 (owlSeed n))

/-- OWL_READBACK (R310): OWL_n_CMD.READBACK has the spare convert both threshold DACs. -/
def execOwlReadback (n : Fin 8) (s : State) : Host.Outcome State Fault Refusal :=
  s.act (live 5 (owlReadback n))

/-- READBACK_DONE (R310): The readback result stands in OWL_n_RB and RB_VALID is set. -/
def execReadbackDone (n : Fin 8) (upper lower : BitVec 16) (s : State) : Host.Outcome State Fault Refusal :=
  s.act (live 5 (readbackDone n upper lower))

/-- OWL_ABORT (R317): OWL_n_CMD.ABORT freezes the monitor as a disable. -/
def execOwlAbort (n : Fin 8) (s : State) : Host.Outcome State Fault Refusal :=
  s.act (live 5 (owlAbort n))

/-- PULSE_CMD_FIRE (R312): PULSE_u_CMD.FIRE fires an enabled unit at the next tick. -/
def execPulseCmdFire (u : Fin 4) (s : State) : Host.Outcome State Fault Refusal :=
  s.act (live 6 (pulseCmdFire u))

/-- PULSE_CLEAR (R314): PULSE_u_CMD.CLEAR ends a LATCHED or endless TRAIN period unless a monitor trips. -/
def execPulseClear (u : Fin 4) (s : State) : Host.Outcome State Fault Refusal :=
  s.act (live 6 (pulseClear u))

/-- PULSE_ABORT (R315): PULSE_u_CMD.ABORT returns the output to idle. -/
def execPulseAbort (u : Fin 4) (s : State) : Host.Outcome State Fault Refusal :=
  s.act (live 6 (pulseAbort u))

/-- PULSE_WIDTH_END (R313): A pulse ends after WIDTH and a ONESHOT or train completes. -/
def execPulseWidthEnd (u : Fin 4) (s : State) : Host.Outcome State Fault Refusal :=
  s.act (live 6 (pulseWidthEnd u))

/-- TRAIN_PERIOD (R313): A TRAIN starts its next pulse one PERIOD after the previous. -/
def execTrainPeriod (u : Fin 4) (s : State) : Host.Outcome State Fault Refusal :=
  s.act (live 6 (trainPeriod u))

end Sys2Proof.Machine
end

