-- ==== Sys2Proof/Machine/MemoryRows.lean ====
section
/-! DEFINITION. The meanings of the commands of one family: BADGER, DDR and BEAVER. -/
namespace Sys2Proof.Machine

/-- LANE_TAKE (R356): A free BADGER lane takes its next block by arbitration when the output queue has room. -/
def execLaneTake (lane : Fin 8) (host : List Byte) (s : State) : Host.Outcome State Fault Refusal :=
  s.act (live 15 (unheld 15 (laneTake lane host)))

/-- BADGER_BLOCK_DONE (R340): A lane's compressed and verified result becomes final. -/
def execBadgerBlockDone (lane : Fin 8) (verified : Bool) (s : State) : Host.Outcome State Fault Refusal :=
  s.act (live 15 (unheld 15 (badgerBlockDone lane verified)))

/-- JOB_FETCH (R352): BADGER reads the next ring descriptor and takes it or goes idle. -/
def execJobFetch (r : Fin 4) (host : List Byte) (s : State) : Host.Outcome State Fault Refusal :=
  s.act (live 15 (unheld 15 (jobFetch r host)))

/-- BADGER_DOORBELL (R352): A write of BADGER_r_DOORBELL resumes an idle ring. -/
def execBadgerDoorbell (r : Fin 4) (s : State) : Host.Outcome State Fault Refusal :=
  s.act (live 15 (badgerDoorbell r))

/-- BADGER_ABORT (R357): BADGER_CMD.ABORT discards every block in progress. -/
def execBadgerAbort (s : State) : Host.Outcome State Fault Refusal :=
  s.act (live 15 badgerAbort)

/-- JOB_TIMEOUT (R355): A job request with no response in 1 ms ends the job with TIMEOUT. -/
def execJobTimeout (lane : Fin 8) (responds : Bool) (s : State) : Host.Outcome State Fault Refusal :=
  s.act (live 15 (jobTimeout lane responds))

/-- DDR_TRAIN (R365): DDR_CMD.TRAIN trains the channels in MASK or is refused. -/
def execDdrTrain (mask : BitVec 12) (s : State) : Host.Outcome State Fault Refusal :=
  s.act (live 16 (ddrTrain mask))

/-- TRAINING_DONE (R364): Training ends and the ready and failed channels are known. -/
def execTrainingDone (ok unsupported : BitVec 12) (s : State) : Host.Outcome State Fault Refusal :=
  s.act (live 16 (unheld 16 (trainingEnds ok unsupported)))

/-- DDR_CH_ABORT (R363): DDR_CH_n_CMD.ABORT disables a channel, completing its queued bursts. -/
def execDdrChAbort (n : Fin 12) (s : State) : Host.Outcome State Fault Refusal :=
  s.act (live 16 (ddrChAbort n))

/-- STRIPE_APPLY (R367): A committed stripe applies once DRAM users are OFF and no request is outstanding. -/
def execStripeApply (s : State) : Host.Outcome State Fault Refusal :=
  s.act (live 16 (unheld 16 (commitApplied .ddrStripe)))

/-- RATE_WINDOW_END (R368): A channel's service-rate window ends and RATE is updated. -/
def execRateWindowEnd (n : Fin 12) (reading : Option Nat) (s : State) : Host.Outcome State Fault Refusal :=
  s.act (live 16 (unheld 16 (rateWindowEnd n reading)))

/-- REFRESH_DUE (R370): A rank's refresh falls due and is issued or postponed. -/
def execRefreshDue (n : Fin 12) (rank : Fin 2) (s : State) : Host.Outcome State Fault Refusal :=
  s.act (live 16 (refreshDue n rank))

/-- CLASS_D_QUIET (R371): A rank that no longer carries Class D traffic issues its postponed refreshes. -/
def execClassDQuiet (n : Fin 12) (s : State) : Host.Outcome State Fault Refusal :=
  s.act (live 16 (classDQuiet n))

/-- DDR_TEMP_CHANGE (R372): DRAM temperature crosses 85 °C or 95 °C. -/
def execDdrTempChange (n : Fin 12) (level : Fin 3) (s : State) : Host.Outcome State Fault Refusal :=
  s.act (live 16 (dramTemp n level))

/-- NEIGHBOUR_REFRESH (R373): A triggered neighbour refresh activates and precharges the neighbour rows. -/
def execNeighbourRefresh (n : Fin 12) (rank : Fin 2) (sub bank : Nat) (s : State) : Host.Outcome State Fault Refusal :=
  s.act (live 16 (neighbourRefresh n rank sub bank))

/-- RETRAIN (R374): A channel's periodic retraining pause reads oscillators and applies updates. -/
def execRetrain (n : Fin 12) (drift : Bool) (s : State) : Host.Outcome State Fault Refusal :=
  s.act (live 16 (retrain n drift))

/-- POWER_DOWN_ENTRY (R375): An idle rank enters precharge power-down after PD_IDLE. -/
def execPowerDownEntry (n : Fin 12) (rank : Fin 2) (s : State) : Host.Outcome State Fault Refusal :=
  s.act (live 16 (powerDownEntry n rank))

/-- SELF_REFRESH_ENTRY (R375): An idle channel enters self-refresh after SR_IDLE. -/
def execSelfRefreshEntry (n : Fin 12) (s : State) : Host.Outcome State Fault Refusal :=
  s.act (live 16 (selfRefreshEntry n))

/-- DDR_REQUEST (R376): A burst request arrives at a channel's command arbiter. -/
def execDdrRequest (r : DdrReq) (s : State) : Host.Outcome State Fault Refusal :=
  s.act (live 16 (burstArrives r))

/-- BURST_SERVICE (R376): The arbiter chooses and performs a queued burst. -/
def execBurstService (n : Fin 12) (o : EccOutcome) (s : State) : Host.Outcome State Fault Refusal :=
  s.act (live 16 (unheld 16 (burstService n o)))

/-- CHAIN_HANDOVER (R388): A write of BEAVER_CH_n_HEAD_HI hands a chain to a channel or is refused. -/
def execChainHandover (n : Fin 32) (head : Word64) (s : State) : Host.Outcome State Fault Refusal :=
  s.act (live 17 (chainHandover n head))

/-- BEAVER_DOORBELL (R391): BEAVER_CH_n_CMD.DOORBELL resumes an idle channel or sets DB_PENDING. -/
def execBeaverDoorbell (n : Fin 32) (s : State) : Host.Outcome State Fault Refusal :=
  s.act (live 17 (beaverDoorbell n))

/-- BEAVER_CLEAR (R398): BEAVER_CH_n_CMD.CLEAR makes a halted channel idle. -/
def execBeaverClear (n : Fin 32) (s : State) : Host.Outcome State Fault Refusal :=
  s.act (live 17 (beaverClear n))

/-- BEAVER_CH_ABORT (R403): BEAVER_CH_n_CMD.ABORT ends the descriptor after the current burst. -/
def execBeaverChAbort (n : Fin 32) (s : State) : Host.Outcome State Fault Refusal :=
  s.act (live 17 (beaverChAbort n))

/-- BEAVER_ABORT (R403): BEAVER_CMD.ABORT aborts every channel. -/
def execBeaverAbort (s : State) : Host.Outcome State Fault Refusal :=
  s.act (live 17 beaverAbort)

/-- DESC_FETCH (R389): A running channel reads the descriptor at CUR and checks it. -/
def execDescFetch (n : Fin 32) (host : List Byte) (s : State) : Host.Outcome State Fault Refusal :=
  s.act (live 17 (unheld 17 (descFetch n host)))

/-- DESC_WRITEBACK (R390): After all data writes are accepted the descriptor's status and CTRL are written back. -/
def execDescWriteback (n : Fin 32) (s : State) : Host.Outcome State Fault Refusal :=
  s.act (live 17 (unheld 17 (descWriteback n)))

/-- BEAVER_BURST (R383): The engine arbitrates and moves one 64-byte burst. -/
def execBeaverBurst (ready : BitVec 32) (host : List Byte) (err : DmaErr) (s : State) : Host.Outcome State Fault Refusal :=
  s.act (live 17 (unheld 17 (beaverBurst ready host err)))

/-- DMA_TIMEOUT (R396): A request with no response in 2^TO_LOG µs ends the descriptor. -/
def execDmaTimeout (n : Fin 32) (kind : Fin 3) (waited : Nat) (responds : Bool) (s : State) : Host.Outcome State Fault Refusal :=
  s.act (live 17 (dmaTimeout n kind waited responds))

/-- BLOCK_OFFER (R399): A RED or BADGER block is placed into the channel's next FEED descriptor. -/
def execBlockOffer (n : Fin 32) (s : State) : Host.Outcome State Fault Refusal :=
  s.act (live 17 (unheld 17 (blockOffer n)))

/-- SCHED_STEP_LAUNCH (R401): A launching event occurrence runs the current schedule step or is counted. -/
def execSchedStepLaunch (num : BitVec 12) (s : State) : Host.Outcome State Fault Refusal :=
  s.act (live 17 (unheld 17 (schedStepLaunch num)))

/-- SCHED_RUN_DONE (R402): A run of a schedule step completes and the next step becomes current. -/
def execSchedRunDone (n : Fin 32) (s : State) : Host.Outcome State Fault Refusal :=
  s.act (live 17 (unheld 17 (schedRunDone n)))

end Sys2Proof.Machine
end

