-- ==== Sys2Proof/Machine/ModeRows.lean ====
section
/-! DEFINITION. The meanings of the commands of one family: Modes and units. -/
namespace Sys2Proof.Machine

/-- MODE_REQUEST (R52): A write of GLB_MODE requests a mode and arrangement, disarms FOX and enters DRAINING, or is refused. -/
def execModeRequest (v : ModeWrite) (s : State) : Host.Outcome State Fault Refusal :=
  s.act (live 0 (modeRequest v.val.toNat ∘ programFirst .host v.prog))

/-- DRAIN_END (R53): When every affected unit has reached its boundary the module enters SWITCHING or WAIT_CLOCK. -/
def execDrainEnd (s : State) : Host.Outcome State Fault Refusal :=
  s.act (live 4 (unheld 0 drainEnd))

/-- WAIT_CLOCK_LOCK (R53): A module waiting in WAIT_CLOCK enters SWITCHING once the sample loop locks. -/
def execWaitClockLock (s : State) : Host.Outcome State Fault Refusal :=
  s.act (live 4 (unheld 0 waitClockLock))

/-- SWITCH_DONE (R54): At the end of SWITCHING the module is in the target mode, disarmed and STABLE. -/
def execSwitchDone (s : State) : Host.Outcome State Fault Refusal :=
  s.act (live 4 (unheld 0 switchDone))

/-- WAKE_SWITCH (R51): Within 30 µs of a wake the module switches to SINGLE and arms if WAKE_ARM is set. -/
def execWakeSwitch (s : State) : Host.Outcome State Fault Refusal :=
  s.act (live 4 (unheld 0 wakeSwitch))

/-- UNIT_DRAIN_DONE (R62): A DRAINING unit finishes its item at its boundary and becomes OFF. -/
def execUnitDrainDone (u : UnitId) (s : State) : Host.Outcome State Fault Refusal :=
  s.act (live 4 (unheld (unitBlock u) (unitDrainDone u)))

/-- UNIT_ABORT_DONE (R62): An ABORTING unit becomes OFF within the time of Table 2.8. -/
def execUnitAbortDone (u : UnitId) (s : State) : Host.Outcome State Fault Refusal :=
  s.act (live 4 (unheld (unitBlock u) (unitAbortDone u)))

end Sys2Proof.Machine
end

