-- ==== Sys2Proof/Machine/PowerRows.lean ====
section
/-! DEFINITION. The meanings of the commands of one family: PWR. -/
namespace Sys2Proof.Machine

/-- BOOT_DONE (R494): HEDGE boot completes and PWR releases the other islands and starts training. -/
def execBootDone (s : State) : Host.Outcome State Fault Refusal :=
  s.act bootDone

/-- POWER_ON_RESET (R489): VDD_AON falling below 90 % resets the module. -/
def execPowerOnReset (s : State) : Host.Outcome State Fault Refusal :=
  s.act powerOnReset

/-- MOD_RST (R490): MOD_RST_N held low for 10 µs resets the module. -/
def execModRst (low : Bool) (s : State) : Host.Outcome State Fault Refusal :=
  s.act (modRst low)

/-- RAIL_CHANGE (R486): A supply rail enters or leaves tolerance. -/
def execRailChange (r : Fin 9) (ok breaks : Bool) (s : State) : Host.Outcome State Fault Refusal :=
  s.act (railChange r ok breaks)

/-- RAIL_FAULT (R488): A rail out of tolerance for 2 µs causes a supply fault. -/
def execRailFault (r : Fin 9) (s : State) : Host.Outcome State Fault Refusal :=
  s.act (railFault r)

/-- REF_WAIT_EXPIRE (R495): Start-up without REFIN after REF_WAIT begins free run. -/
def execRefWaitExpire (s : State) : Host.Outcome State Fault Refusal :=
  s.act refWaitExpire

/-- SOFT_RESET (R492): A PWR_SRESET bit requests a soft reset of a block or is refused. -/
def execSoftReset (bits : BitVec 22) (s : State) : Host.Outcome State Fault Refusal :=
  s.act (live 21 (softReset bits))

/-- SOFT_RESET_DONE (R492): The block is OFF and EV_PWR_SRESET is posted. -/
def execSoftResetDone (k : Fin 22) (s : State) : Host.Outcome State Fault Refusal :=
  s.act (unheld 21 (softResetDone k))

/-- SENSOR_READING (R499): Every 100 µs PWR reads the junction sensors and updates the thermal level. -/
def execSensorReading (temps : Vector (BitVec 16) 8) (power : Option (BitVec 16)) (s : State) : Host.Outcome State Fault Refusal :=
  s.act (sensorReading temps power)

/-- THERMAL_SHUTDOWN (R502): 10 µs after SHUTDOWN the islands are held in reset. -/
def execThermalShutdown (s : State) : Host.Outcome State Fault Refusal :=
  s.act thermalShutdown

/-- RESTART (R503): PWR_CMD.RESTART releases the held islands or is refused. -/
def execRestart (s : State) : Host.Outcome State Fault Refusal :=
  s.act (live 21 restart)

end Sys2Proof.Machine
end

