-- ==== Sys2Proof/Machine/ReductionRows.lean ====
section
/-! DEFINITION. The meanings of the commands of one family: RED and STK. -/
namespace Sys2Proof.Machine

/-- RED_BLOCK_DONE (R216): A RED pipe finishes an output block with its loss statement. -/
def execRedBlockDone (p : Fin 4) (s : State) : Host.Outcome State Fault Refusal :=
  s.act (live 12 (unheld 12 (redBlock p)))

/-- RED_BLOCK_HANDOFF (R204): A held RED block goes to its destination when the destination takes it. -/
def execRedBlockHandoff (p : Fin 4) (s : State) : Host.Outcome State Fault Refusal :=
  s.act (live 12 (unheld 12 (redBlockHandoff p)))

/-- RED_START (R203): RED_p_CMD.START starts a MEM job or is refused. -/
def execRedStart (p : Fin 4) (s : State) : Host.Outcome State Fault Refusal :=
  s.act (live 12 (redStart p))

/-- RED_ABORT (R62): RED_p_CMD.ABORT aborts the pipe under Table 2.8. -/
def execRedAbort (p : Fin 4) (s : State) : Host.Outcome State Fault Refusal :=
  s.act (live 12 (redAbort p))

/-- RED_MEM_DONE (R203): A MEM job ends once its last block is handed on. -/
def execRedMemDone (p : Fin 4) (s : State) : Host.Outcome State Fault Refusal :=
  s.act (live 12 (unheld 12 (redMemDone p)))

/-- STK_FOLD_FINAL (R226): An acquisition's fold becomes final and STK writes its result header. -/
def execStkFoldFinal (s : State) : Host.Outcome State Fault Refusal :=
  s.act (live 13 (unheld 13 stkFoldFinal))

/-- STK_CLEAR (R227): STK_CMD.CLEAR requests a clear at the next acquisition boundary. -/
def execStkClear (s : State) : Host.Outcome State Fault Refusal :=
  s.act (live 13 stkClear)

/-- STK_CLEAR_DONE (R227): The clear completes, regions are cleared and the result header is written. -/
def execStkClearDone (s : State) : Host.Outcome State Fault Refusal :=
  s.act (live 13 (unheld 13 stkClearDone))

/-- STK_ABORT (R62): STK_CMD.ABORT aborts the fold under Table 2.8. -/
def execStkAbort (s : State) : Host.Outcome State Fault Refusal :=
  s.act (live 13 stkAbort)

end Sys2Proof.Machine
end

