-- ==== Sys2Proof/Machine/RingRows.lean ====
section
/-! DEFINITION. The meanings of the commands of one family: IFL. -/
namespace Sys2Proof.Machine

/-- PORT_UP (R436): A port meeting its conditions for 100 µs comes up. -/
def execPortUp (p : Fin 6) (s : State) : Host.Outcome State Fault Refusal :=
  s.act (live 19 (portComesUp p))

/-- PORT_DOWN (R436): A port without block lock or LINK flits goes down. -/
def execPortDown (p : Fin 6) (s : State) : Host.Outcome State Fault Refusal :=
  s.act (live 19 (portDown p))

/-- EXCHANGE_PERIOD (R437): Each exchange period a member sends ANNOUNCE and REQ and reviews its time port. -/
def execExchangePeriod (t1 : TS) (s : State) : Host.Outcome State Fault Refusal :=
  s.act (live 19 (unheld 19 (exchangePeriod t1)))

/-- ANNOUNCE_RX (R437): A received ANNOUNCE is forwarded if it is the lowest index heard. -/
def execAnnounceRx (p : Fin 6) (idx hops : Fin 256) (gm : Word) (gmHops : Fin 256) (steps : BitVec 16) (slew : Bool) (s : State) : Host.Outcome State Fault Refusal :=
  s.act (live 19 (announceRx p idx hops gm gmHops steps slew))

/-- FOLD_END (R439): Within 5 µs of a port going down in a CLOSED ring the member becomes a fold end. -/
def execFoldEnd (p : Fin 6) (s : State) : Host.Outcome State Fault Refusal :=
  s.act (live 19 (foldEnd p))

/-- LINK_RX (R430): A received LINK flit updates link state, credits and fold indices. -/
def execLinkRx (p : Fin 6) (f : LinkFlit) (bad : Nat) (s : State) : Host.Outcome State Fault Refusal :=
  s.act (live 19 (linkRx p f bad))

/-- HEAL (R440): After HEAL_HOLD the port carries traffic and the ring closes. -/
def execHeal (p : Fin 6) (s : State) : Host.Outcome State Fault Refusal :=
  s.act (live 19 (healPort p))

/-- IFL_ABORT (R441): IFL_x_CMD.ABORT cuts the frame in transmission and closes the bypass. -/
def execIflAbort (x : Fin 3) (s : State) : Host.Outcome State Fault Refusal :=
  s.act (live 19 (iflAbort x))

/-- TIME_REQ_RX (R443): A server answers a received REQ with a RESP. -/
def execTimeReqRx (p : Fin 6) (seq : BitVec 16) (t1 t2 t3 : TS) (s : State) : Host.Outcome State Fault Refusal :=
  s.act (live 19 (timeReqRx p seq t1 t2 t3))

/-- TIME_RESP_RX (R443): A client receives a RESP and computes or rejects the offset. -/
def execTimeRespRx (p : Fin 6) (seq : BitVec 16) (t2 t3 t4 : TS) (gm : Word) (gmHops : Fin 256) (steps : BitVec 16) (slew : Bool) (s : State) : Host.Outcome State Fault Refusal :=
  s.act (live 19 (timeRespRx p seq t2 t3 t4 gm gmHops steps slew))

/-- ASYM_CAL_W (R445): IFL_x_CMD.ASYM_CAL_W measures the W port's asymmetry. -/
def execAsymCalW (x : Fin 3) (s : State) : Host.Outcome State Fault Refusal :=
  s.act (live 19 (asymCal x false))

/-- ASYM_CAL_E (R445): IFL_x_CMD.ASYM_CAL_E measures the E port's asymmetry. -/
def execAsymCalE (x : Fin 3) (s : State) : Host.Outcome State Fault Refusal :=
  s.act (live 19 (asymCal x true))

/-- REFLECT_REQ_RX (R445): A neighbour's REFLECT_REQ is answered with REFLECT_ACK and open termination. -/
def execReflectReqRx (p : Fin 6) (s : State) : Host.Outcome State Fault Refusal :=
  s.act (live 19 (reflectReqRx p))

/-- ASYM_DONE (R445): An asymmetry measurement completes and A is stored or discarded. -/
def execAsymDone (p : Fin 6) (txDly : Int) (s : State) : Host.Outcome State Fault Refusal :=
  s.act (live 19 (asymDone p txDly))

/-- ASYM_TIMEOUT (R445): No REFLECT_ACK within 1 ms keeps A and sets ASYM_FAIL. -/
def execAsymTimeout (p : Fin 6) (s : State) : Host.Outcome State Fault Refusal :=
  s.act (live 19 (asymTimeout p))

/-- SCHED_SEND (R448): IFL_SCHED_CMD.SEND sends a scheduled trigger or is refused. -/
def execSchedSend (s : State) : Host.Outcome State Fault Refusal :=
  s.act (live 19 schedSend)

/-- SCHED_RX (R449): A received SCHED flit is checked, delivered as a RING candidate and forwarded. -/
def execSchedRx (p : Fin 6) (h : RouteHead) (level : Nat) (ts : TS) (s : State) : Host.Outcome State Fault Refusal :=
  s.act (live 19 (schedRx p h level ts))

/-- TOKEN_REFILL (R449): Every 16 ticks a port's SCHED token bucket gains a token. -/
def execTokenRefill (p : Fin 6) (s : State) : Host.Outcome State Fault Refusal :=
  s.act (live 19 (tokenRefill p))

/-- FRAME_SEND (R451): IFL_TX_CMD.SEND reads a frame image and routes it or is refused. -/
def execFrameSend (s : State) : Host.Outcome State Fault Refusal :=
  s.act (live 19 frameSend)

/-- FRAME_SENT (R451): The last flit of every copy leaves and EV_RING_SENT is posted. -/
def execFrameSent (p : Fin 6) (s : State) : Host.Outcome State Fault Refusal :=
  s.act (live 19 (unheld 19 (frameSent p)))

/-- FRAME_RX (R434): A received frame is verified, delivered and forwarded. -/
def execFrameRx (p : Fin 6) (bytes : List Byte) (ts : TS) (s : State) : Host.Outcome State Fault Refusal :=
  s.act (live 19 (frameRx p bytes ts))

/-- FRAME_AGE_DROP (R453): A frame waiting 10 ms for transmission is discarded. -/
def execFrameAgeDrop (p : Fin 6) (index : Nat) (s : State) : Host.Outcome State Fault Refusal :=
  s.act (live 19 (unheld 19 (frameAgeDrop p index)))

/-- QUAR_W (R457): IFL_x_CMD.QUAR_W quarantines the W port. -/
def execQuarW (x : Fin 3) (s : State) : Host.Outcome State Fault Refusal :=
  s.act (live 19 (quarantine (Port.of x false) 0xF))

/-- QUAR_E (R457): IFL_x_CMD.QUAR_E quarantines the E port. -/
def execQuarE (x : Fin 3) (s : State) : Host.Outcome State Fault Refusal :=
  s.act (live 19 (quarantine (Port.of x true) 0xF))

/-- RELEASE_W (R457): IFL_x_CMD.RELEASE_W ends the W port's quarantine. -/
def execReleaseW (x : Fin 3) (s : State) : Host.Outcome State Fault Refusal :=
  s.act (live 19 (release (Port.of x false)))

/-- RELEASE_E (R457): IFL_x_CMD.RELEASE_E ends the E port's quarantine. -/
def execReleaseE (x : Fin 3) (s : State) : Host.Outcome State Fault Refusal :=
  s.act (live 19 (release (Port.of x true)))

end Sys2Proof.Machine
end

