-- ==== Sys2Proof/Machine/SecurityRows.lean ====
section
/-! DEFINITION. The meanings of the commands of one family: HEDGE. -/
namespace Sys2Proof.Machine

/-- GET_CERT (R475): HEDGE writes the identity or alias certificate at HEDGE_ADDR. -/
def execGetCert (s : State) : Host.Outcome State Fault Refusal :=
  s.act (live 20 (hedgeCommand 1))

/-- ATTEST (R476): HEDGE writes a signed attestation report for a nonce. -/
def execAttest (s : State) : Host.Outcome State Fault Refusal :=
  s.act (live 20 (hedgeCommand 2))

/-- PRG_VERIFY (R472): HEDGE locks program SRAM and verifies the image in it. -/
def execPrgVerify (s : State) : Host.Outcome State Fault Refusal :=
  s.act (live 20 (hedgeCommand 3))

/-- PRG_UNLOCK (R472): HEDGE releases the program SRAM lock and clears PRG_VERIFIED. -/
def execPrgUnlock (s : State) : Host.Outcome State Fault Refusal :=
  s.act (live 20 (hedgeCommand 4))

/-- PRG_COMMIT_SVN (R473): HEDGE raises PRG_CTR to the verified image's SVN. -/
def execPrgCommitSvn (s : State) : Host.Outcome State Fault Refusal :=
  s.act (live 20 (hedgeCommand 5))

/-- FW_UPDATE (R465): HEDGE verifies and writes a firmware image to the idle slot as TRIAL. -/
def execFwUpdate (s : State) : Host.Outcome State Fault Refusal :=
  s.act (live 20 (hedgeCommand 6))

/-- FW_COMMIT (R465): HEDGE clears TRIAL and raises FW_CTR. -/
def execFwCommit (s : State) : Host.Outcome State Fault Refusal :=
  s.act (live 20 (hedgeCommand 7))

/-- ENROLL (R471): HEDGE enrols an owner key blob in a slot. -/
def execEnroll (s : State) : Host.Outcome State Fault Refusal :=
  s.act (live 20 (hedgeCommand 8))

/-- REVOKE (R471): HEDGE burns OWNER_REVOKE of a slot. -/
def execRevoke (s : State) : Host.Outcome State Fault Refusal :=
  s.act (live 20 (hedgeCommand 9))

/-- LC_ADVANCE (R469): HEDGE advances the lifecycle to DEPLOYED or SEALED. -/
def execLcAdvance (s : State) : Host.Outcome State Fault Refusal :=
  s.act (live 20 (hedgeCommand 10))

/-- DEBUG_LOCK (R470): HEDGE burns the DEBUG_LOCK fuse. -/
def execDebugLock (s : State) : Host.Outcome State Fault Refusal :=
  s.act (live 20 (hedgeCommand 11))

/-- RING_KEY (R482): HEDGE loads or clears an IFL ring key slot. -/
def execRingKey (s : State) : Host.Outcome State Fault Refusal :=
  s.act (live 20 (hedgeCommand 12))

/-- CAL_EPOCH (R473): HEDGE raises CAL_CTR. -/
def execCalEpoch (s : State) : Host.Outcome State Fault Refusal :=
  s.act (live 20 (hedgeCommand 13))

/-- SEAL_FLUSH (R481): HEDGE seals the leaves not yet sealed. -/
def execSealFlush (s : State) : Host.Outcome State Fault Refusal :=
  s.act (live 20 (hedgeCommand 14))

/-- HEDGE_CMD_DONE (R483): A HEDGE command ends, sets LAST_CODE and posts EV_HEDGE_DONE. -/
def execHedgeCmdDone (timeout fuseFail : Bool) (rnd : BitVec 256) (s : State) : Host.Outcome State Fault Refusal :=
  s.act (live 20 (unheld 20 (hedgeCmdDone timeout fuseFail rnd)))

/-- BOOT (R463): On release of island K the boot ROM reads fuses and verifies and starts a firmware slot. -/
def execBoot (aOk bOk : Bool) (completed : Nat) (broken : BitVec 4) (s : State) : Host.Outcome State Fault Refusal :=
  s.act (boot aOk bOk completed broken)

/-- LEAF_HASHED (R479): A hash engine finishes a leaf digest and writes the leaf value. -/
def execLeafHashed (n : Nat) (served same : Bool) (s : State) : Host.Outcome State Fault Refusal :=
  s.act (live 20 (unheld 20 (leafHashed n served same)))

/-- SEAL_DECISION (R481): A batch, age limit or arm end decides to seal the waiting leaves. -/
def execSealDecision (aged : Bool) (s : State) : Host.Outcome State Fault Refusal :=
  s.act (live 20 (unheld 20 (sealDecision aged)))

/-- SEAL_WRITTEN (R481): A signed seal is written to the seal ring and EV_HEDGE_SEAL is posted. -/
def execSealWritten (rnd : BitVec 256) (s : State) : Host.Outcome State Fault Refusal :=
  s.act (live 20 (unheld 20 (sealWritten rnd)))

end Sys2Proof.Machine
end

