-- ==== Sys2Proof/Machine/SequencerRows.lean ====
section
/-! DEFINITION. The meanings of the commands of one family: AQS. -/
namespace Sys2Proof.Machine

/-- NOP (R235): NOP does nothing for one slot. -/
def execNop (n : Fin 8) (s : State) : Host.Outcome State Fault Refusal :=
  s.act (live 10 (unheld 10 (aqsNop n)))

/-- ADD (R235): ADD writes Ga + Gb to Gd and sets flags. -/
def execAdd (n : Fin 8) (d a b : Fin 16) (s : State) : Host.Outcome State Fault Refusal :=
  s.act (live 10 (unheld 10 (aqsAdd n d a b)))

/-- SUB (R235): SUB writes Ga − Gb to Gd and sets flags. -/
def execSub (n : Fin 8) (d a b : Fin 16) (s : State) : Host.Outcome State Fault Refusal :=
  s.act (live 10 (unheld 10 (aqsSub n d a b)))

/-- AND (R235): AND writes Ga AND Gb to Gd. -/
def execAnd (n : Fin 8) (d a b : Fin 16) (s : State) : Host.Outcome State Fault Refusal :=
  s.act (live 10 (unheld 10 (aqsAnd n d a b)))

/-- OR (R235): OR writes Ga OR Gb to Gd. -/
def execOr (n : Fin 8) (d a b : Fin 16) (s : State) : Host.Outcome State Fault Refusal :=
  s.act (live 10 (unheld 10 (aqsOr n d a b)))

/-- XOR (R235): XOR writes Ga XOR Gb to Gd. -/
def execXor (n : Fin 8) (d a b : Fin 16) (s : State) : Host.Outcome State Fault Refusal :=
  s.act (live 10 (unheld 10 (aqsXor n d a b)))

/-- SHL (R235): SHL shifts Ga left by Gb[5:0]. -/
def execShl (n : Fin 8) (d a b : Fin 16) (s : State) : Host.Outcome State Fault Refusal :=
  s.act (live 10 (unheld 10 (aqsShl n d a b)))

/-- SHR (R235): SHR shifts Ga right by Gb[5:0] with zeros in. -/
def execShr (n : Fin 8) (d a b : Fin 16) (s : State) : Host.Outcome State Fault Refusal :=
  s.act (live 10 (unheld 10 (aqsShr n d a b)))

/-- SAR (R235): SAR shifts Ga right by Gb[5:0] with sign in. -/
def execSar (n : Fin 8) (d a b : Fin 16) (s : State) : Host.Outcome State Fault Refusal :=
  s.act (live 10 (unheld 10 (aqsSar n d a b)))

/-- MUL (R235): MUL writes the low 64 bits of Ga × Gb to Gd. -/
def execMul (n : Fin 8) (d a b : Fin 16) (s : State) : Host.Outcome State Fault Refusal :=
  s.act (live 10 (unheld 10 (aqsMul n d a b)))

/-- CMP (R235): CMP sets flags from Ga − Gb. -/
def execCmp (n : Fin 8) (a b : Fin 16) (s : State) : Host.Outcome State Fault Refusal :=
  s.act (live 10 (unheld 10 (aqsCmp n a b)))

/-- ADDI (R235): ADDI writes Ga plus the sign-extended immediate to Gd. -/
def execAddi (n : Fin 8) (d a : Fin 16) (imm : BitVec 18) (s : State) : Host.Outcome State Fault Refusal :=
  s.act (live 10 (unheld 10 (aqsAddi n d a imm)))

/-- ANDI (R235): ANDI ANDs Ga with the zero-extended immediate. -/
def execAndi (n : Fin 8) (d a : Fin 16) (imm : BitVec 18) (s : State) : Host.Outcome State Fault Refusal :=
  s.act (live 10 (unheld 10 (aqsAndi n d a imm)))

/-- ORI (R235): ORI ORs Ga with the zero-extended immediate. -/
def execOri (n : Fin 8) (d a : Fin 16) (imm : BitVec 18) (s : State) : Host.Outcome State Fault Refusal :=
  s.act (live 10 (unheld 10 (aqsOri n d a imm)))

/-- XORI (R235): XORI XORs Ga with the zero-extended immediate. -/
def execXori (n : Fin 8) (d a : Fin 16) (imm : BitVec 18) (s : State) : Host.Outcome State Fault Refusal :=
  s.act (live 10 (unheld 10 (aqsXori n d a imm)))

/-- SHLI (R235): SHLI shifts Ga left by an immediate count. -/
def execShli (n : Fin 8) (d a : Fin 16) (k : BitVec 6) (s : State) : Host.Outcome State Fault Refusal :=
  s.act (live 10 (unheld 10 (aqsShli n d a k)))

/-- SHRI (R235): SHRI shifts Ga right by an immediate count with zeros in. -/
def execShri (n : Fin 8) (d a : Fin 16) (k : BitVec 6) (s : State) : Host.Outcome State Fault Refusal :=
  s.act (live 10 (unheld 10 (aqsShri n d a k)))

/-- SARI (R235): SARI shifts Ga right by an immediate count with sign in. -/
def execSari (n : Fin 8) (d a : Fin 16) (k : BitVec 6) (s : State) : Host.Outcome State Fault Refusal :=
  s.act (live 10 (unheld 10 (aqsSari n d a k)))

/-- CMPI (R235): CMPI sets flags from Ga minus the immediate. -/
def execCmpi (n : Fin 8) (a : Fin 16) (imm : BitVec 18) (s : State) : Host.Outcome State Fault Refusal :=
  s.act (live 10 (unheld 10 (aqsCmpi n a imm)))

/-- MOVI (R235): MOVI writes the sign-extended IMM22 to Gd. -/
def execMovi (n : Fin 8) (d : Fin 16) (imm : BitVec 22) (s : State) : Host.Outcome State Fault Refusal :=
  s.act (live 10 (unheld 10 (aqsMovi n d imm)))

/-- MOVH (R235): MOVH shifts Gd left by 22 and ORs in IMM22. -/
def execMovh (n : Fin 8) (d : Fin 16) (imm : BitVec 22) (s : State) : Host.Outcome State Fault Refusal :=
  s.act (live 10 (unheld 10 (aqsMovh n d imm)))

/-- LD (R237): LD loads a 64-bit word from the device address space. -/
def execLd (n : Fin 8) (d a : Fin 16) (imm : BitVec 18) (s : State) : Host.Outcome State Fault Refusal :=
  s.act (live 10 (unheld 10 (aqsLd n d a imm)))

/-- LDW (R237): LDW loads a zero-extended 32-bit word. -/
def execLdw (n : Fin 8) (d a : Fin 16) (imm : BitVec 18) (s : State) : Host.Outcome State Fault Refusal :=
  s.act (live 10 (unheld 10 (aqsLdw n d a imm)))

/-- ST (R237): ST stores a 64-bit word. -/
def execSt (n : Fin 8) (d a : Fin 16) (imm : BitVec 18) (s : State) : Host.Outcome State Fault Refusal :=
  s.act (live 10 (unheld 10 (aqsSt n d a imm)))

/-- STW (R237): STW stores a 32-bit word. -/
def execStw (n : Fin 8) (d a : Fin 16) (imm : BitVec 18) (s : State) : Host.Outcome State Fault Refusal :=
  s.act (live 10 (unheld 10 (aqsStw n d a imm)))

/-- FADD (R239): FADD atomically adds Gb to a data SRAM word and returns the old value. -/
def execFadd (n : Fin 8) (d a b : Fin 16) (s : State) : Host.Outcome State Fault Refusal :=
  s.act (live 10 (unheld 10 (aqsFadd n d a b)))

/-- BR (R235): BR branches when its condition holds. -/
def execBr (n : Fin 8) (cond : BitVec 4) (imm : BitVec 22) (s : State) : Host.Outcome State Fault Refusal :=
  s.act (live 10 (unheld 10 (aqsBr n cond imm)))

/-- CALL (R236): CALL pushes the return address and branches. -/
def execCall (n : Fin 8) (imm : BitVec 22) (s : State) : Host.Outcome State Fault Refusal :=
  s.act (live 10 (unheld 10 (aqsCall n imm)))

/-- RET (R236): RET pops the return address into PC. -/
def execRet (n : Fin 8) (s : State) : Host.Outcome State Fault Refusal :=
  s.act (live 10 (unheld 10 (aqsRet n)))

/-- JR (R236): JR jumps to Ga. -/
def execJr (n : Fin 8) (a : Fin 16) (s : State) : Host.Outcome State Fault Refusal :=
  s.act (live 10 (unheld 10 (aqsJr n a)))

/-- LOOP (R235): LOOP decrements Gd and branches while the result is not 0. -/
def execLoop (n : Fin 8) (d : Fin 16) (imm : BitVec 22) (s : State) : Host.Outcome State Fault Refusal :=
  s.act (live 10 (unheld 10 (aqsLoop n d imm)))

/-- CSRR (R240): CSRR issues a register read at BLK and WOFF. -/
def execCsrr (n : Fin 8) (d : Fin 16) (blk : BitVec 5) (woff : BitVec 17) (s : State) : Host.Outcome State Fault Refusal :=
  s.act (live 10 (unheld 10 (aqsCsrr n d blk woff)))

/-- CSRW (R242): CSRW posts a register write at BLK and WOFF. -/
def execCsrw (n : Fin 8) (d : Fin 16) (blk : BitVec 5) (woff : BitVec 17) (s : State) : Host.Outcome State Fault Refusal :=
  s.act (live 10 (unheld 10 (aqsCsrw n d blk woff)))

/-- CSRRI (R240): CSRRI issues a register read at BAR0 offset Ga + IMM18. -/
def execCsrri (n : Fin 8) (d a : Fin 16) (imm : BitVec 18) (s : State) : Host.Outcome State Fault Refusal :=
  s.act (live 10 (unheld 10 (aqsCsrri n d a imm)))

/-- CSRWI (R242): CSRWI posts a register write at BAR0 offset Ga + IMM18. -/
def execCsrwi (n : Fin 8) (d a : Fin 16) (imm : BitVec 18) (s : State) : Host.Outcome State Fault Refusal :=
  s.act (live 10 (unheld 10 (aqsCsrwi n d a imm)))

/-- CFGL (R244): CFGL has CFGC read and stage a configuration block. -/
def execCfgl (n : Fin 8) (d a : Fin 16) (s : State) : Host.Outcome State Fault Refusal :=
  s.act (live 10 (unheld 10 (aqsCfgl n d a)))

/-- COMMIT (R244): COMMIT asks CFGC to commit what is staged. -/
def execCommit (n : Fin 8) (d : Fin 16) (s : State) : Host.Outcome State Fault Refusal :=
  s.act (live 10 (unheld 10 (aqsCommit n d)))

/-- WAIT (R249): WAIT consumes a ready watch slot or sleeps. -/
def execWait (n : Fin 8) (d a : Fin 16) (mask : BitVec 16) (s : State) : Host.Outcome State Fault Refusal :=
  s.act (live 10 (unheld 10 (aqsWait n d a mask)))

/-- WAITT (R250): WAITT waits for the tick copy to reach a target. -/
def execWaitt (n : Fin 8) (a : Fin 16) (relative : Bool) (s : State) : Host.Outcome State Fault Refusal :=
  s.act (live 10 (unheld 10 (aqsWaitt n a relative)))

/-- WAITC (R251): WAITC waits a number of Q cycles. -/
def execWaitc (n : Fin 8) (k : BitVec 22) (s : State) : Host.Outcome State Fault Refusal :=
  s.act (live 10 (unheld 10 (aqsWaitc n k)))

/-- WSET (R249): WSET binds a watch slot to an event number. -/
def execWset (n : Fin 8) (slot : Fin 16) (ev : BitVec 12) (s : State) : Host.Outcome State Fault Refusal :=
  s.act (live 10 (unheld 10 (aqsWset n slot ev)))

/-- EVR (R249): EVR reads a part of the event latch. -/
def execEvr (n : Fin 8) (d : Fin 16) (sel : BitVec 2) (s : State) : Host.Outcome State Fault Refusal :=
  s.act (live 10 (unheld 10 (aqsEvr n d sel)))

/-- TSR (R247): TSR reads the tick copy. -/
def execTsr (n : Fin 8) (d : Fin 16) (s : State) : Host.Outcome State Fault Refusal :=
  s.act (live 10 (unheld 10 (aqsTsr n d)))

/-- LYQ (R246): LYQ pops the oldest entry of a LYNX queue. -/
def execLyq (n : Fin 8) (d a : Fin 16) (q : Fin 8) (s : State) : Host.Outcome State Fault Refusal :=
  s.act (live 10 (unheld 10 (aqsLyq n d a q)))

/-- ARM (R244): ARM posts a write of FOX_ARM.ARM. -/
def execArm (n : Fin 8) (s : State) : Host.Outcome State Fault Refusal :=
  s.act (live 10 (unheld 10 (aqsArm n)))

/-- DISARM (R244): DISARM posts a write of FOX_ARM.DISARM. -/
def execDisarm (n : Fin 8) (s : State) : Host.Outcome State Fault Refusal :=
  s.act (live 10 (unheld 10 (aqsDisarm n)))

/-- FORCE (R244): FORCE posts a write of FOX_ARM.FORCE. -/
def execForce (n : Fin 8) (s : State) : Host.Outcome State Fault Refusal :=
  s.act (live 10 (unheld 10 (aqsForce n)))

/-- MODE (R244): MODE posts a write of GLB_MODE. -/
def execMode (n : Fin 8) (how wakeArm : Bool) (arr : BitVec 2) (mode : BitVec 3) (s : State) : Host.Outcome State Fault Refusal :=
  s.act (live 10 (unheld 10 (aqsMode n how wakeArm arr mode)))

/-- DMAQ (R245): DMAQ hands a descriptor chain to a BEAVER channel. -/
def execDmaq (n : Fin 8) (d a : Fin 16) (ch : Fin 32) (s : State) : Host.Outcome State Fault Refusal :=
  s.act (live 10 (unheld 10 (aqsDmaq n d a ch)))

/-- EMIT (R252): EMIT posts EV_PROGn with SUB and ARG. -/
def execEmit (n : Fin 8) (a : Fin 16) (sub : BitVec 8) (s : State) : Host.Outcome State Fault Refusal :=
  s.act (live 10 (unheld 10 (aqsEmit n a sub)))

/-- START (R253): START starts another context at a PC. -/
def execStart (n m : Fin 8) (a : Fin 16) (s : State) : Host.Outcome State Fault Refusal :=
  s.act (live 10 (unheld 10 (aqsStart n m a)))

/-- STOP (R253): STOP stops a context as a host STOP does. -/
def execStop (n m : Fin 8) (s : State) : Host.Outcome State Fault Refusal :=
  s.act (live 10 (unheld 10 (aqsStop n m)))

/-- HALT (R253): HALT enters HALTED and posts EV_CTX_HALT. -/
def execHalt (n : Fin 8) (s : State) : Host.Outcome State Fault Refusal :=
  s.act (live 10 (unheld 10 (aqsHalt n)))

/-- BKPT (R253): BKPT enters BREAK and posts EV_CTX_BREAK. -/
def execBkpt (n : Fin 8) (s : State) : Host.Outcome State Fault Refusal :=
  s.act (live 10 (unheld 10 (aqsBkpt n)))

/-- ILLEGAL_OP (R234): A reserved opcode, set must-be-zero bit or condition 0xF faults with ILLEGAL_OP. -/
def execIllegalOp (n : Fin 8) (s : State) : Host.Outcome State Fault Refusal :=
  s.act (live 10 (unheld 10 (illegalOp n)))

/-- CSR_READ_DONE (R241): A register read's response returns and the reading instruction completes. -/
def execCsrReadDone (n : Fin 8) (s : State) : Host.Outcome State Fault Refusal :=
  s.act (live 10 (unheld 10 (csrReadDone n)))

/-- FABRIC_ACCESS_DONE (R237): A load or store through the data fabric completes. -/
def execFabricAccessDone (n : Fin 8) (s : State) : Host.Outcome State Fault Refusal :=
  s.act (live 10 (unheld 10 (fabricAccessDone n)))

/-- CFGL_DONE (R244): CFGL completes when its last record is staged or the block is refused. -/
def execCfglDone (n : Fin 8) (s : State) : Host.Outcome State Fault Refusal :=
  s.act (live 10 (unheld 10 (cfglDone n)))

/-- DMAQ_DONE (R245): DMAQ completes when BEAVER accepts or refuses the chain. -/
def execDmaqDone (n : Fin 8) (s : State) : Host.Outcome State Fault Refusal :=
  s.act (live 10 (unheld 10 (dmaqDone n)))

/-- LYQ_DONE (R246): LYQ completes when the popped entry returns from T. -/
def execLyqDone (n : Fin 8) (s : State) : Host.Outcome State Fault Refusal :=
  s.act (live 10 (unheld 10 (lyqDone n)))

/-- BUS_TIMEOUT (R242): A register read with no response in 4,096 Q cycles faults precisely. -/
def execBusTimeout (n : Fin 8) (s : State) : Host.Outcome State Fault Refusal :=
  s.act (live 10 (unheld 10 (busTimeout n)))

/-- BUS_TIMEOUT_W (R242): A posted write with no response in 4,096 Q cycles faults imprecisely. -/
def execBusTimeoutW (n : Fin 8) (block : Fin 22) (s : State) : Host.Outcome State Fault Refusal :=
  s.act (live 10 (unheld 10 (busTimeoutW n block)))

/-- MEM_TIMEOUT (R237): A fabric access not completed in 2^20 Q cycles faults. -/
def execMemTimeout (n : Fin 8) (s : State) : Host.Outcome State Fault Refusal :=
  s.act (live 10 (unheld 10 (memTimeout n)))

/-- WAIT_WAKE (R249): A waiting context resumes once a slot in its mask has a count. -/
def execWaitWake (n : Fin 8) (s : State) : Host.Outcome State Fault Refusal :=
  s.act (live 10 (unheld 10 (waitWake n)))

/-- WAIT_TIMEOUT (R249): A WAIT with a deadline ends when the tick copy reaches it. -/
def execWaitTimeout (n : Fin 8) (s : State) : Host.Outcome State Fault Refusal :=
  s.act (live 10 (unheld 10 (waitTimeout n)))

/-- WAITT_DONE (R250): WAITT resumes once the tick copy reaches its target. -/
def execWaittDone (n : Fin 8) (s : State) : Host.Outcome State Fault Refusal :=
  s.act (live 10 (unheld 10 (waittDone n)))

/-- WAITC_DONE (R251): WAITC's cycle count expires and the next instruction issues. -/
def execWaitcDone (n : Fin 8) (s : State) : Host.Outcome State Fault Refusal :=
  s.act (live 10 (unheld 10 (waitcDone n)))

/-- AQS_CTX_START (R254): AQS_CTX_n_CTRL.START runs a context from its PC or is refused. -/
def execAqsCtxStart (q : Requester) (n : Fin 8) (s : State) : Host.Outcome State Fault Refusal :=
  s.act (live 10 (aqsCtxStart q n))

/-- AQS_CTX_STOP (R254): AQS_CTX_n_CTRL.STOP stops a context. -/
def execAqsCtxStop (n : Fin 8) (s : State) : Host.Outcome State Fault Refusal :=
  s.act (live 10 (aqsCtxStop n))

/-- AQS_CTX_ABORT (R254): AQS_CTX_n_CTRL.ABORT abandons the instruction in progress. -/
def execAqsCtxAbort (n : Fin 8) (staged : Nat) (s : State) : Host.Outcome State Fault Refusal :=
  s.act (live 10 (aqsCtxAbort n staged))

/-- AQS_CTX_STEP (R254): AQS_CTX_n_CTRL.STEP runs exactly one instruction. -/
def execAqsCtxStep (q : Requester) (n : Fin 8) (s : State) : Host.Outcome State Fault Refusal :=
  s.act (live 10 (aqsCtxStep q n))

/-- SRESET (R256): AQS_CTRL.SRESET aborts and clears every context. -/
def execSreset (s : State) : Host.Outcome State Fault Refusal :=
  s.act (live 10 sreset)

/-- POSTED_WRITE_DONE (R242): The response to a posted register write returns to Q and frees one of the context's four write slots. -/
def execPostedWriteDone (n : Fin 8) (block : Fin 22) (s : State) : Host.Outcome State Fault Refusal :=
  s.act (live 10 (unheld 10 (postedWriteDone n block)))

end Sys2Proof.Machine
end

