-- ==== Sys2Proof/Machine/TriggerRows.lean ====
section
/-! DEFINITION. The meanings of the commands of one family: FOX, SDEC and vectors. -/
namespace Sys2Proof.Machine

/-- VECTOR_DELIVERED (R18): A vector of 256 samples reaches FOX, STK and CAP in one C cycle and is triggered on, accumulated and stored. -/
def execVectorDelivered (inp : Fin 4) (k0 : Int) (samples : List Sample) (ahead : List (BitVec 10)) (cdr : List CdrBit) (s : State) : Host.Outcome State Fault Refusal :=
  s.act (live 2 (settleDue ∘ vectorDelivered inp k0 samples ahead cdr))

/-- FOX_ARM_ARM (R141): FOX_ARM.ARM arms FOX, clearing its state, or is refused. -/
def execFoxArmArm (s : State) : Host.Outcome State Fault Refusal :=
  s.act (live 7 (foxRequest .arm))

/-- FOX_ARM_DISARM (R141): FOX_ARM.DISARM disarms FOX. -/
def execFoxArmDisarm (s : State) : Host.Outcome State Fault Refusal :=
  s.act (live 7 (foxRequest .disarm))

/-- FOX_ARM_FORCE (R140): FOX_ARM.FORCE requests a software trigger. -/
def execFoxArmForce (s : State) : Host.Outcome State Fault Refusal :=
  s.act (live 7 (foxRequest .force))

/-- SW_PENDING_TAKEN (R140): A pending software request is taken at the first vector after the busy interval or arm. -/
def execSwPendingTaken (s : State) : Host.Outcome State Fault Refusal :=
  s.act (live 7 (unheld 7 swPendingTaken))

/-- TRIGOUT_EDGE (R147): TRIGOUT drives its edge at the reference instant plus the delay D. -/
def execTrigoutEdge (s : State) : Host.Outcome State Fault Refusal :=
  s.act (live 7 trigoutEdge)

/-- TRIGOUT_ACTIVE_END (R150): The TRIGOUT active period ends after WIDTH or at the gate end. -/
def execTrigoutActiveEnd (s : State) : Host.Outcome State Fault Refusal :=
  s.act (live 7 trigoutActiveEnd)

/-- HOLDOFF_END (R132): The time holdoff expires. -/
def execHoldoffEnd (s : State) : Host.Outcome State Fault Refusal :=
  s.act (live 7 holdoffEnd)

/-- BUSY_END (R144): The busy interval ends 3 ticks after the last post-trigger sample. -/
def execBusyEnd (s : State) : Host.Outcome State Fault Refusal :=
  s.act (live 7 busyEnd)

/-- SEQ_WINDOW_EXPIRE (R131): An open sequence whose B event has not come within FOX_SEQ_WIN closes. -/
def execSeqWindowExpire (s : State) : Host.Outcome State Fault Refusal :=
  s.act (live 7 seqWindowExpire)

/-- TRIGOUT_MIN_RECOMPUTE (R148): Within 1 µs of a commit, mode change or change of N FOX recomputes FOX_TRIGOUT_MIN. -/
def execTrigoutMinRecompute (s : State) : Host.Outcome State Fault Refusal :=
  s.act (live 7 trigoutMinRecompute)

/-- CDR_LOCK (R159): After 4,096 UI of small phase error the decoder's CDR locks. -/
def execCdrLock (n : Fin 4) (s : State) : Host.Outcome State Fault Refusal :=
  s.act (live 8 (cdrLock n))

/-- CDR_LOST (R159): An rms phase error above 0.35 UI over 256 UI clears CDR_LOCK and SYNC. -/
def execCdrLost (n : Fin 4) (s : State) : Host.Outcome State Fault Refusal :=
  s.act (live 8 (cdrLost n))

end Sys2Proof.Machine
end

