-- ==== Sys2Proof/Machine/Dispatch.lean ====
section
/-! DEFINITION. The effect of each command on everything but the queue, one arm per command. -/
namespace Sys2Proof.Machine

def exec (i : Instr) (s : State) : Host.Outcome State Fault Refusal :=
  match i with
  | .registerWrite q t => Sys2Proof.Machine.execRegisterWrite q t s
  | .rcRead q off len => Sys2Proof.Machine.execRcRead q off len s
  | .pairLoRead q off len => Sys2Proof.Machine.execPairLoRead q off len s
  | .configWrite q off v => Sys2Proof.Machine.execConfigWrite q off v s
  | .vectorDelivered inp k0 samples ahead cdr => Sys2Proof.Machine.execVectorDelivered inp k0 samples ahead cdr s
  | .eventDiscard isl => Sys2Proof.Machine.execEventDiscard isl s
  | .evEventLost isl => Sys2Proof.Machine.execEvEventLost isl s
  | .modeRequest v => Sys2Proof.Machine.execModeRequest v s
  | .drainEnd => Sys2Proof.Machine.execDrainEnd s
  | .waitClockLock => Sys2Proof.Machine.execWaitClockLock s
  | .switchDone => Sys2Proof.Machine.execSwitchDone s
  | .wakeSwitch => Sys2Proof.Machine.execWakeSwitch s
  | .unitDrainDone u => Sys2Proof.Machine.execUnitDrainDone u s
  | .unitAbortDone u => Sys2Proof.Machine.execUnitAbortDone u s
  | .estWindowEnd quals leaks props => Sys2Proof.Machine.execEstWindowEnd quals leaks props s
  | .shadowEnd b trima trimb => Sys2Proof.Machine.execShadowEnd b trima trimb s
  | .refPresent => Sys2Proof.Machine.execRefPresent s
  | .refLoss => Sys2Proof.Machine.execRefLoss s
  | .holdoverEntry => Sys2Proof.Machine.execHoldoverEntry s
  | .refReturn measured => Sys2Proof.Machine.execRefReturn measured s
  | .slewDone => Sys2Proof.Machine.execSlewDone s
  | .snapStep => Sys2Proof.Machine.execSnapStep s
  | .tbLoad count => Sys2Proof.Machine.execTbLoad count s
  | .slDivApply => Sys2Proof.Machine.execSlDivApply s
  | .slUnlock => Sys2Proof.Machine.execSlUnlock s
  | .slSearchStart => Sys2Proof.Machine.execSlSearchStart s
  | .slLock band => Sys2Proof.Machine.execSlLock band s
  | .slBandFail => Sys2Proof.Machine.execSlBandFail s
  | .tbLoopFail => Sys2Proof.Machine.execTbLoopFail s
  | .refOffsetMeas offset => Sys2Proof.Machine.execRefOffsetMeas offset s
  | .foxArmArm => Sys2Proof.Machine.execFoxArmArm s
  | .foxArmDisarm => Sys2Proof.Machine.execFoxArmDisarm s
  | .foxArmForce => Sys2Proof.Machine.execFoxArmForce s
  | .swPendingTaken => Sys2Proof.Machine.execSwPendingTaken s
  | .trigoutEdge => Sys2Proof.Machine.execTrigoutEdge s
  | .trigoutActiveEnd => Sys2Proof.Machine.execTrigoutActiveEnd s
  | .holdoffEnd => Sys2Proof.Machine.execHoldoffEnd s
  | .busyEnd => Sys2Proof.Machine.execBusyEnd s
  | .seqWindowExpire => Sys2Proof.Machine.execSeqWindowExpire s
  | .trigoutMinRecompute => Sys2Proof.Machine.execTrigoutMinRecompute s
  | .cdrLock n => Sys2Proof.Machine.execCdrLock n s
  | .cdrLost n => Sys2Proof.Machine.execCdrLost n s
  | .bodyBurst => Sys2Proof.Machine.execBodyBurst s
  | .recordClose => Sys2Proof.Machine.execRecordClose s
  | .headerWrite => Sys2Proof.Machine.execHeaderWrite s
  | .acqHeaderWrite => Sys2Proof.Machine.execAcqHeaderWrite s
  | .streamBlockClose => Sys2Proof.Machine.execStreamBlockClose s
  | .capStreamRd v => Sys2Proof.Machine.execCapStreamRd v s
  | .overflowResume => Sys2Proof.Machine.execOverflowResume s
  | .redBlockDone p => Sys2Proof.Machine.execRedBlockDone p s
  | .redBlockHandoff p => Sys2Proof.Machine.execRedBlockHandoff p s
  | .redStart p => Sys2Proof.Machine.execRedStart p s
  | .redAbort p => Sys2Proof.Machine.execRedAbort p s
  | .redMemDone p => Sys2Proof.Machine.execRedMemDone p s
  | .stkFoldFinal => Sys2Proof.Machine.execStkFoldFinal s
  | .stkClear => Sys2Proof.Machine.execStkClear s
  | .stkClearDone => Sys2Proof.Machine.execStkClearDone s
  | .stkAbort => Sys2Proof.Machine.execStkAbort s
  | .nop n => Sys2Proof.Machine.execNop n s
  | .add n d a b => Sys2Proof.Machine.execAdd n d a b s
  | .sub n d a b => Sys2Proof.Machine.execSub n d a b s
  | .and n d a b => Sys2Proof.Machine.execAnd n d a b s
  | .or n d a b => Sys2Proof.Machine.execOr n d a b s
  | .xor n d a b => Sys2Proof.Machine.execXor n d a b s
  | .shl n d a b => Sys2Proof.Machine.execShl n d a b s
  | .shr n d a b => Sys2Proof.Machine.execShr n d a b s
  | .sar n d a b => Sys2Proof.Machine.execSar n d a b s
  | .mul n d a b => Sys2Proof.Machine.execMul n d a b s
  | .cmp n a b => Sys2Proof.Machine.execCmp n a b s
  | .addi n d a imm => Sys2Proof.Machine.execAddi n d a imm s
  | .andi n d a imm => Sys2Proof.Machine.execAndi n d a imm s
  | .ori n d a imm => Sys2Proof.Machine.execOri n d a imm s
  | .xori n d a imm => Sys2Proof.Machine.execXori n d a imm s
  | .shli n d a k => Sys2Proof.Machine.execShli n d a k s
  | .shri n d a k => Sys2Proof.Machine.execShri n d a k s
  | .sari n d a k => Sys2Proof.Machine.execSari n d a k s
  | .cmpi n a imm => Sys2Proof.Machine.execCmpi n a imm s
  | .movi n d imm => Sys2Proof.Machine.execMovi n d imm s
  | .movh n d imm => Sys2Proof.Machine.execMovh n d imm s
  | .ld n d a imm => Sys2Proof.Machine.execLd n d a imm s
  | .ldw n d a imm => Sys2Proof.Machine.execLdw n d a imm s
  | .st n d a imm => Sys2Proof.Machine.execSt n d a imm s
  | .stw n d a imm => Sys2Proof.Machine.execStw n d a imm s
  | .fadd n d a b => Sys2Proof.Machine.execFadd n d a b s
  | .br n cond imm => Sys2Proof.Machine.execBr n cond imm s
  | .call n imm => Sys2Proof.Machine.execCall n imm s
  | .ret n => Sys2Proof.Machine.execRet n s
  | .jr n a => Sys2Proof.Machine.execJr n a s
  | .loop n d imm => Sys2Proof.Machine.execLoop n d imm s
  | .csrr n d blk woff => Sys2Proof.Machine.execCsrr n d blk woff s
  | .csrw n d blk woff => Sys2Proof.Machine.execCsrw n d blk woff s
  | .csrri n d a imm => Sys2Proof.Machine.execCsrri n d a imm s
  | .csrwi n d a imm => Sys2Proof.Machine.execCsrwi n d a imm s
  | .cfgl n d a => Sys2Proof.Machine.execCfgl n d a s
  | .commit n d => Sys2Proof.Machine.execCommit n d s
  | .wait n d a mask => Sys2Proof.Machine.execWait n d a mask s
  | .waitt n a relative => Sys2Proof.Machine.execWaitt n a relative s
  | .waitc n k => Sys2Proof.Machine.execWaitc n k s
  | .wset n slot ev => Sys2Proof.Machine.execWset n slot ev s
  | .evr n d sel => Sys2Proof.Machine.execEvr n d sel s
  | .tsr n d => Sys2Proof.Machine.execTsr n d s
  | .lyq n d a q => Sys2Proof.Machine.execLyq n d a q s
  | .arm n => Sys2Proof.Machine.execArm n s
  | .disarm n => Sys2Proof.Machine.execDisarm n s
  | .force n => Sys2Proof.Machine.execForce n s
  | .mode n how wakeArm arr mode => Sys2Proof.Machine.execMode n how wakeArm arr mode s
  | .dmaq n d a ch => Sys2Proof.Machine.execDmaq n d a ch s
  | .emit n a sub => Sys2Proof.Machine.execEmit n a sub s
  | .start n m a => Sys2Proof.Machine.execStart n m a s
  | .stop n m => Sys2Proof.Machine.execStop n m s
  | .halt n => Sys2Proof.Machine.execHalt n s
  | .bkpt n => Sys2Proof.Machine.execBkpt n s
  | .illegalOp n => Sys2Proof.Machine.execIllegalOp n s
  | .csrReadDone n => Sys2Proof.Machine.execCsrReadDone n s
  | .fabricAccessDone n => Sys2Proof.Machine.execFabricAccessDone n s
  | .cfglDone n => Sys2Proof.Machine.execCfglDone n s
  | .dmaqDone n => Sys2Proof.Machine.execDmaqDone n s
  | .lyqDone n => Sys2Proof.Machine.execLyqDone n s
  | .busTimeout n => Sys2Proof.Machine.execBusTimeout n s
  | .busTimeoutW n block => Sys2Proof.Machine.execBusTimeoutW n block s
  | .memTimeout n => Sys2Proof.Machine.execMemTimeout n s
  | .eventArrival x => Sys2Proof.Machine.execEventArrival x s
  | .waitWake n => Sys2Proof.Machine.execWaitWake n s
  | .waitTimeout n => Sys2Proof.Machine.execWaitTimeout n s
  | .waittDone n => Sys2Proof.Machine.execWaittDone n s
  | .waitcDone n => Sys2Proof.Machine.execWaitcDone n s
  | .aqsCtxStart q n => Sys2Proof.Machine.execAqsCtxStart q n s
  | .aqsCtxStop n => Sys2Proof.Machine.execAqsCtxStop n s
  | .aqsCtxAbort n staged => Sys2Proof.Machine.execAqsCtxAbort n staged s
  | .aqsCtxStep q n => Sys2Proof.Machine.execAqsCtxStep q n s
  | .sreset => Sys2Proof.Machine.execSreset s
  | .cfgcCommit q => Sys2Proof.Machine.execCfgcCommit q s
  | .cfgcDiscard q => Sys2Proof.Machine.execCfgcDiscard q s
  | .commitCheckDone => Sys2Proof.Machine.execCommitCheckDone s
  | .commitApply u => Sys2Proof.Machine.execCommitApply u s
  | .lynxStart n => Sys2Proof.Machine.execLynxStart n s
  | .lynxAbort n => Sys2Proof.Machine.execLynxAbort n s
  | .lynxFlush n => Sys2Proof.Machine.execLynxFlush n s
  | .lynxCalDone n ip m1 m2 => Sys2Proof.Machine.execLynxCalDone n ip m1 m2 s
  | .lynxEdge n e x rising => Sys2Proof.Machine.execLynxEdge n e x rising s
  | .lynxEpochEnd n => Sys2Proof.Machine.execLynxEpochEnd n s
  | .lynxGateClose n => Sys2Proof.Machine.execLynxGateClose n s
  | .lynxQPop q n => Sys2Proof.Machine.execLynxQPop q n s
  | .exttrigEdge e x rising => Sys2Proof.Machine.execExttrigEdge e x rising s
  | .owlCrossing n level ts => Sys2Proof.Machine.execOwlCrossing n level ts s
  | .seedDone n reading out ts => Sys2Proof.Machine.execSeedDone n reading out ts s
  | .owlSeed n => Sys2Proof.Machine.execOwlSeed n s
  | .owlReadback n => Sys2Proof.Machine.execOwlReadback n s
  | .readbackDone n upper lower => Sys2Proof.Machine.execReadbackDone n upper lower s
  | .owlAbort n => Sys2Proof.Machine.execOwlAbort n s
  | .pulseCmdFire u => Sys2Proof.Machine.execPulseCmdFire u s
  | .pulseClear u => Sys2Proof.Machine.execPulseClear u s
  | .pulseAbort u => Sys2Proof.Machine.execPulseAbort u s
  | .pulseWidthEnd u => Sys2Proof.Machine.execPulseWidthEnd u s
  | .trainPeriod u => Sys2Proof.Machine.execTrainPeriod u s
  | .calStart v => Sys2Proof.Machine.execCalStart v s
  | .calDone r => Sys2Proof.Machine.execCalDone r s
  | .calFail reading => Sys2Proof.Machine.execCalFail reading s
  | .calSave => Sys2Proof.Machine.execCalSave s
  | .calRestore => Sys2Proof.Machine.execCalRestore s
  | .calBundle => Sys2Proof.Machine.execCalBundle s
  | .bundleDone => Sys2Proof.Machine.execBundleDone s
  | .calAbort => Sys2Proof.Machine.execCalAbort s
  | .calStaleEval => Sys2Proof.Machine.execCalStaleEval s
  | .laneTake lane host => Sys2Proof.Machine.execLaneTake lane host s
  | .badgerBlockDone lane verified => Sys2Proof.Machine.execBadgerBlockDone lane verified s
  | .jobFetch r host => Sys2Proof.Machine.execJobFetch r host s
  | .badgerDoorbell r => Sys2Proof.Machine.execBadgerDoorbell r s
  | .badgerAbort => Sys2Proof.Machine.execBadgerAbort s
  | .jobTimeout lane responds => Sys2Proof.Machine.execJobTimeout lane responds s
  | .ddrTrain mask => Sys2Proof.Machine.execDdrTrain mask s
  | .trainingDone ok unsupported => Sys2Proof.Machine.execTrainingDone ok unsupported s
  | .ddrChAbort n => Sys2Proof.Machine.execDdrChAbort n s
  | .stripeApply => Sys2Proof.Machine.execStripeApply s
  | .rateWindowEnd n reading => Sys2Proof.Machine.execRateWindowEnd n reading s
  | .refreshDue n rank => Sys2Proof.Machine.execRefreshDue n rank s
  | .classDQuiet n => Sys2Proof.Machine.execClassDQuiet n s
  | .ddrTempChange n level => Sys2Proof.Machine.execDdrTempChange n level s
  | .neighbourRefresh n rank sub bank => Sys2Proof.Machine.execNeighbourRefresh n rank sub bank s
  | .retrain n drift => Sys2Proof.Machine.execRetrain n drift s
  | .powerDownEntry n rank => Sys2Proof.Machine.execPowerDownEntry n rank s
  | .selfRefreshEntry n => Sys2Proof.Machine.execSelfRefreshEntry n s
  | .ddrRequest r => Sys2Proof.Machine.execDdrRequest r s
  | .burstService n o => Sys2Proof.Machine.execBurstService n o s
  | .agePromote a waited => Sys2Proof.Machine.execAgePromote a waited s
  | .chainHandover n head => Sys2Proof.Machine.execChainHandover n head s
  | .beaverDoorbell n => Sys2Proof.Machine.execBeaverDoorbell n s
  | .beaverClear n => Sys2Proof.Machine.execBeaverClear n s
  | .beaverChAbort n => Sys2Proof.Machine.execBeaverChAbort n s
  | .beaverAbort => Sys2Proof.Machine.execBeaverAbort s
  | .descFetch n host => Sys2Proof.Machine.execDescFetch n host s
  | .descWriteback n => Sys2Proof.Machine.execDescWriteback n s
  | .beaverBurst ready host err => Sys2Proof.Machine.execBeaverBurst ready host err s
  | .dmaTimeout n kind waited responds => Sys2Proof.Machine.execDmaTimeout n kind waited responds s
  | .blockOffer n => Sys2Proof.Machine.execBlockOffer n s
  | .schedStepLaunch num => Sys2Proof.Machine.execSchedStepLaunch num s
  | .schedRunDone n => Sys2Proof.Machine.execSchedRunDone n s
  | .bar2Access off x => Sys2Proof.Machine.execBar2Access off x s
  | .hostTimeout bar2 off len => Sys2Proof.Machine.execHostTimeout bar2 off len s
  | .badAddrRead q => Sys2Proof.Machine.execBadAddrRead q s
  | .irqRearm k bits => Sys2Proof.Machine.execIrqRearm k bits s
  | .msixUnmask v => Sys2Proof.Machine.execMsixUnmask v s
  | .linkChange speed width up pm => Sys2Proof.Machine.execLinkChange speed width up pm s
  | .perst => Sys2Proof.Machine.execPerst s
  | .functionLevelReset => Sys2Proof.Machine.execFunctionLevelReset s
  | .portUp p => Sys2Proof.Machine.execPortUp p s
  | .portDown p => Sys2Proof.Machine.execPortDown p s
  | .exchangePeriod t1 => Sys2Proof.Machine.execExchangePeriod t1 s
  | .announceRx p idx hops gm gmHops steps slew => Sys2Proof.Machine.execAnnounceRx p idx hops gm gmHops steps slew s
  | .foldEnd p => Sys2Proof.Machine.execFoldEnd p s
  | .linkRx p f bad => Sys2Proof.Machine.execLinkRx p f bad s
  | .heal p => Sys2Proof.Machine.execHeal p s
  | .iflAbort x => Sys2Proof.Machine.execIflAbort x s
  | .timeReqRx p seq t1 t2 t3 => Sys2Proof.Machine.execTimeReqRx p seq t1 t2 t3 s
  | .timeRespRx p seq t2 t3 t4 gm gmHops steps slew => Sys2Proof.Machine.execTimeRespRx p seq t2 t3 t4 gm gmHops steps slew s
  | .asymCalW x => Sys2Proof.Machine.execAsymCalW x s
  | .asymCalE x => Sys2Proof.Machine.execAsymCalE x s
  | .reflectReqRx p => Sys2Proof.Machine.execReflectReqRx p s
  | .asymDone p txDly => Sys2Proof.Machine.execAsymDone p txDly s
  | .asymTimeout p => Sys2Proof.Machine.execAsymTimeout p s
  | .schedSend => Sys2Proof.Machine.execSchedSend s
  | .schedRx p h level ts => Sys2Proof.Machine.execSchedRx p h level ts s
  | .tokenRefill p => Sys2Proof.Machine.execTokenRefill p s
  | .frameSend => Sys2Proof.Machine.execFrameSend s
  | .frameSent p => Sys2Proof.Machine.execFrameSent p s
  | .frameRx p bytes ts => Sys2Proof.Machine.execFrameRx p bytes ts s
  | .frameAgeDrop p index => Sys2Proof.Machine.execFrameAgeDrop p index s
  | .quarW x => Sys2Proof.Machine.execQuarW x s
  | .quarE x => Sys2Proof.Machine.execQuarE x s
  | .releaseW x => Sys2Proof.Machine.execReleaseW x s
  | .releaseE x => Sys2Proof.Machine.execReleaseE x s
  | .getCert => Sys2Proof.Machine.execGetCert s
  | .attest => Sys2Proof.Machine.execAttest s
  | .prgVerify => Sys2Proof.Machine.execPrgVerify s
  | .prgUnlock => Sys2Proof.Machine.execPrgUnlock s
  | .prgCommitSvn => Sys2Proof.Machine.execPrgCommitSvn s
  | .fwUpdate => Sys2Proof.Machine.execFwUpdate s
  | .fwCommit => Sys2Proof.Machine.execFwCommit s
  | .enroll => Sys2Proof.Machine.execEnroll s
  | .revoke => Sys2Proof.Machine.execRevoke s
  | .lcAdvance => Sys2Proof.Machine.execLcAdvance s
  | .debugLock => Sys2Proof.Machine.execDebugLock s
  | .ringKey => Sys2Proof.Machine.execRingKey s
  | .calEpoch => Sys2Proof.Machine.execCalEpoch s
  | .sealFlush => Sys2Proof.Machine.execSealFlush s
  | .hedgeCmdDone timeout fuseFail rnd => Sys2Proof.Machine.execHedgeCmdDone timeout fuseFail rnd s
  | .boot aOk bOk completed broken => Sys2Proof.Machine.execBoot aOk bOk completed broken s
  | .bootDone => Sys2Proof.Machine.execBootDone s
  | .leafHashed n served same => Sys2Proof.Machine.execLeafHashed n served same s
  | .sealDecision aged => Sys2Proof.Machine.execSealDecision aged s
  | .sealWritten rnd => Sys2Proof.Machine.execSealWritten rnd s
  | .powerOnReset => Sys2Proof.Machine.execPowerOnReset s
  | .modRst low => Sys2Proof.Machine.execModRst low s
  | .railChange r ok breaks => Sys2Proof.Machine.execRailChange r ok breaks s
  | .railFault r => Sys2Proof.Machine.execRailFault r s
  | .refWaitExpire => Sys2Proof.Machine.execRefWaitExpire s
  | .softReset bits => Sys2Proof.Machine.execSoftReset bits s
  | .softResetDone k => Sys2Proof.Machine.execSoftResetDone k s
  | .sensorReading temps power => Sys2Proof.Machine.execSensorReading temps power s
  | .thermalShutdown => Sys2Proof.Machine.execThermalShutdown s
  | .restart => Sys2Proof.Machine.execRestart s
  | .timebaseLock => Sys2Proof.Machine.execTimebaseLock s
  | .tickStrobe cycles sdi cdr => Sys2Proof.Machine.execTickStrobe cycles sdi cdr s
  | .postedWriteDone n block => Sys2Proof.Machine.execPostedWriteDone n block s
  | .bar0WindowAccess off x => Sys2Proof.Machine.execBar0WindowAccess off x s
  | .perstRelease => Sys2Proof.Machine.execPerstRelease s
  | .pcieRefChange present => Sys2Proof.Machine.execPcieRefChange present s
  | .debugPortInstruction t => Sys2Proof.Machine.execDebugPortInstruction t s
  | .pcieAerError uncorrectable status => Sys2Proof.Machine.execPcieAerError uncorrectable status s

end Sys2Proof.Machine
end

