-- ==== Sys2Proof/WellFormed.lean ====
section
/-! DEFINITION. Which commands a sender can spell: operand lists have the lengths the spec gives them, numbers fit the fields that
carry them. The meanings do not rest on it: they answer for every command. -/
namespace Sys2Proof

/-- Only the host writes other sizes than a word, and configuration space (R405, R410). -/
def registerTargetOk (q : Requester) : RegTarget → Bool
  | .bar0 off bytes =>
    decide (0 < bytes.length ∧ off.toNat + bytes.length ≤ 2 ^ 26) && (q == .host || (bytes.length == 4 && off.toNat % 4 == 0))
  | .config _ => q == .host

/-- A register read: any size from the host, a word from the others (R410, R36). -/
def readOk (q : Requester) (off : BitVec 26) (len : Nat) : Bool :=
  decide (0 < len ∧ off.toNat + len ≤ 2 ^ 26) && (q == .host || (len == 4 && off.toNat % 4 == 0))

def accessLen : MemAccess → Nat
  | .read n => n
  | .write bs => bs.length

/-- A host access moves at least one byte and at most a request's 4,096 (R414). -/
def accessOk (x : MemAccess) : Bool := decide (0 < accessLen x ∧ accessLen x ≤ 4096)

/-- Each number lies below its bound. -/
def fits (l : List (Nat × Nat)) : Bool := l.all fun x => x.1 < x.2

/-- A LINK flit's numbers fit its bytes (Table 18.2). -/
def linkOk (f : LinkFlit) : Bool :=
  fits [(f.level, 3), (f.addr, 2 ^ 18)] && decide (-(2 : Int) ^ 31 ≤ f.txDly ∧ f.txDly < 2 ^ 31)

/-- A SCHED flit's numbers fit their fields (Table 18.2). -/
def routeOk (h : RouteHead) : Bool :=
  fits [(h.flags, 4), (h.hops, 256), (h.dest, 2 ^ 18), (h.mask, 2 ^ 18), (h.src, 2 ^ 18)]

/-- A procedure's results name sub-converters 0 to 32 and seven delays (Table 13.3). -/
def calResultOk (r : CalResult) : Bool :=
  r.trims.all (fun p => p.sub ≤ 32) && r.failed.all (fun f => f.2 ≤ 32) && decide (r.delays.length ≤ 7)

def wellFormed : Instr → Bool
  | .registerWrite q t => registerTargetOk q.req t
  | .rcRead q off len => readOk q off len
  | .pairLoRead q off len => readOk q off len
  | .configWrite _ off _ => off.toNat % 4 == 0
  | .bar2Access _ x => accessOk x
  | .bar0WindowAccess off x => accessOk x && decide (off.toNat + accessLen x ≤ 2 ^ 26)
  | .vectorDelivered _ _ samples ahead cdr => samples.length == 256 && ahead.length == 4 && cdr.all (fun o => o.pos < 65536)
  | .estWindowEnd quals leaks props => quals.length == 4 && leaks.all (fun l => l.sub ≤ 32) && props.all (fun p => p.sub ≤ 32)
  | .calDone r => calResultOk r
  | .tickStrobe _ _ cdr => cdr.all (fun o => o.pos < 16)
  | .br _ cond _ => cond != 15#4
  | .ddrRequest r => decide (r.addr < 2 ^ 48) && (!r.write || r.data.length == 64)
  | .neighbourRefresh _ _ sub bank => fits [(sub, 2), (bank, 32)]
  | .linkRx _ f _ => linkOk f
  | .schedRx _ h level _ => routeOk h && decide (level < 3)
  | .frameRx _ bytes _ => decide (68 ≤ bytes.length ∧ bytes.length ≤ 68 + 1024)
  | .eventDiscard _ | .evEventLost _ | .modeRequest _ | .drainEnd | .waitClockLock | .switchDone | .wakeSwitch
  | .unitDrainDone _ | .unitAbortDone _ | .shadowEnd _ _ _ | .refPresent | .refLoss | .holdoverEntry | .refReturn _
  | .slewDone | .snapStep | .tbLoad _ | .slDivApply | .slUnlock | .slSearchStart | .slLock _ | .slBandFail | .tbLoopFail
  | .refOffsetMeas _ | .foxArmArm | .foxArmDisarm | .foxArmForce | .swPendingTaken | .trigoutEdge | .trigoutActiveEnd
  | .holdoffEnd | .busyEnd | .seqWindowExpire | .trigoutMinRecompute | .cdrLock _ | .cdrLost _ | .bodyBurst | .recordClose
  | .headerWrite | .acqHeaderWrite | .streamBlockClose | .capStreamRd _ | .overflowResume | .redBlockDone _
  | .redBlockHandoff _ | .redStart _ | .redAbort _ | .redMemDone _ | .stkFoldFinal | .stkClear | .stkClearDone | .stkAbort
  | .nop _ | .add _ _ _ _ | .sub _ _ _ _ | .and _ _ _ _ | .or _ _ _ _ | .xor _ _ _ _ | .shl _ _ _ _ | .shr _ _ _ _
  | .sar _ _ _ _ | .mul _ _ _ _ | .cmp _ _ _ | .addi _ _ _ _ | .andi _ _ _ _ | .ori _ _ _ _ | .xori _ _ _ _ | .shli _ _ _ _
  | .shri _ _ _ _ | .sari _ _ _ _ | .cmpi _ _ _ | .movi _ _ _ | .movh _ _ _ | .ld _ _ _ _ | .ldw _ _ _ _ | .st _ _ _ _
  | .stw _ _ _ _ | .fadd _ _ _ _ | .call _ _ | .ret _ | .jr _ _ | .loop _ _ _ | .csrr _ _ _ _ | .csrw _ _ _ _
  | .csrri _ _ _ _ | .csrwi _ _ _ _ | .cfgl _ _ _ | .commit _ _ | .wait _ _ _ _ | .waitt _ _ _ | .waitc _ _ | .wset _ _ _
  | .evr _ _ _ | .tsr _ _ | .lyq _ _ _ _ | .arm _ | .disarm _ | .force _ | .mode _ _ _ _ _ | .dmaq _ _ _ _ | .emit _ _ _
  | .start _ _ _ | .stop _ _ | .halt _ | .bkpt _ | .illegalOp _ | .csrReadDone _ | .fabricAccessDone _ | .cfglDone _
  | .dmaqDone _ | .lyqDone _ | .busTimeout _ | .busTimeoutW _ _ | .memTimeout _ | .eventArrival _ | .waitWake _
  | .waitTimeout _ | .waittDone _ | .waitcDone _ | .aqsCtxStart _ _ | .aqsCtxStop _ | .aqsCtxAbort _ _ | .aqsCtxStep _ _
  | .sreset | .cfgcCommit _ | .cfgcDiscard _ | .commitCheckDone | .commitApply _ | .lynxStart _ | .lynxAbort _
  | .lynxFlush _ | .lynxCalDone _ _ _ _ | .lynxEdge _ _ _ _ | .lynxEpochEnd _ | .lynxGateClose _ | .lynxQPop _ _
  | .exttrigEdge _ _ _ | .owlCrossing _ _ _ | .seedDone _ _ _ _ | .owlSeed _ | .owlReadback _ | .readbackDone _ _ _
  | .owlAbort _ | .pulseCmdFire _ | .pulseClear _ | .pulseAbort _ | .pulseWidthEnd _ | .trainPeriod _ | .calStart _
  | .calFail _ | .calSave | .calRestore | .calBundle | .bundleDone | .calAbort | .calStaleEval | .laneTake _ _
  | .badgerBlockDone _ _ | .jobFetch _ _ | .badgerDoorbell _ | .badgerAbort | .jobTimeout _ _ | .ddrTrain _
  | .trainingDone _ _ | .ddrChAbort _ | .stripeApply | .rateWindowEnd _ _ | .refreshDue _ _ | .classDQuiet _
  | .ddrTempChange _ _ | .retrain _ _ | .powerDownEntry _ _ | .selfRefreshEntry _ | .burstService _ _ | .agePromote _ _
  | .chainHandover _ _ | .beaverDoorbell _ | .beaverClear _ | .beaverChAbort _ | .beaverAbort | .descFetch _ _
  | .descWriteback _ | .beaverBurst _ _ _ | .dmaTimeout _ _ _ _ | .blockOffer _ | .schedStepLaunch _ | .schedRunDone _
  | .hostTimeout _ _ _ | .badAddrRead _ | .irqRearm _ _ | .msixUnmask _ | .linkChange _ _ _ _ | .perst | .functionLevelReset
  | .portUp _ | .portDown _ | .exchangePeriod _ | .announceRx _ _ _ _ _ _ _ | .foldEnd _ | .heal _ | .iflAbort _
  | .timeReqRx _ _ _ _ _ | .timeRespRx _ _ _ _ _ _ _ _ _ | .asymCalW _ | .asymCalE _ | .reflectReqRx _ | .asymDone _ _
  | .asymTimeout _ | .schedSend | .tokenRefill _ | .frameSend | .frameSent _ | .frameAgeDrop _ _ | .quarW _ | .quarE _
  | .releaseW _ | .releaseE _ | .getCert | .attest | .prgVerify | .prgUnlock | .prgCommitSvn | .fwUpdate | .fwCommit
  | .enroll | .revoke | .lcAdvance | .debugLock | .ringKey | .calEpoch | .sealFlush | .hedgeCmdDone _ _ _ | .boot _ _ _ _
  | .bootDone | .leafHashed _ _ _ | .sealDecision _ | .sealWritten _ | .powerOnReset | .modRst _ | .railChange _ _ _
  | .railFault _ | .refWaitExpire | .softReset _ | .softResetDone _ | .sensorReading _ _ | .thermalShutdown | .restart
  | .timebaseLock | .postedWriteDone _ _ | .perstRelease | .pcieRefChange _ | .debugPortInstruction _ | .pcieAerError _ _ => true

end Sys2Proof
end

