-- ==== Sys2Proof/Safety.lean ====
section
/-! DEFINITION. What claims are stated in: a module that is up, a command that runs, what it posts, what it leaves unchanged, the
canonical form of the stores, and for AQS the instruction a context is about to issue, with Tables 9.3 and 9.4 in numbers. -/
namespace Sys2Proof.Machine

/-- No event crossing holds a block. -/
def Dev.noneHeld (d : Dev) : Bool := d.crossings.toList.all (fun c => c.held.isEmpty)

/-- Every island is released, no soft reset runs and no event crossing holds a block. -/
def Dev.Up (d : Dev) : Prop :=
  d.pwr.kUp = true ∧ d.pwr.qUp = true ∧ d.pwr.up = true ∧ d.pwr.sreset = 0 ∧ d.noneHeld = true

/-- The same, but for the crossings: some may hold their blocks. -/
def Dev.Released (d : Dev) : Prop := d.pwr.kUp = true ∧ d.pwr.qUp = true ∧ d.pwr.up = true ∧ d.pwr.sreset = 0

/-- No span of vectors is part delivered and no request of FOX_ARM waits for one to end (R522). -/
def Dev.Between (d : Dev) : Prop := midSpan d = false ∧ d.fox.due = []

/-- A command runs on a state and leaves exactly this hardware; the queue stays. -/
def Gives (c : Instr) (s : State) (d : Dev) : Prop := exec c s = .next { s with dev := d }

/-- A command runs on a state: it answers a next state, the queue stays, and the hardware is as `p` says. -/
def Runs (c : Instr) (s : State) (p : Dev → Prop) : Prop := ∃ d, exec c s = .next { s with dev := d } ∧ p d

/-- Exactly one event is posted, on island i's crossing. -/
def Says (i : Island) (num sub arg : Nat) (ts : Option TS) (d e : Dev) : Prop := e.crossings = (d.post i num sub arg ts).crossings

/-- What a refused mode request leaves (R58): GLB_MODE as written, the code, and EV_MODE_REFUSED; nothing else changes. -/
def refusedRequest (v : Word) (code : Nat) (d : Dev) : Dev :=
  (((d.wr R.GLB_MODE (v &&& 0x337#32)).put F.GLB_MODE_STATUS_LAST_CODE code).put F.GLB_STATUS_LAST_CODE code).post .q evModeRefused 0 code

/-- A HEDGE command has ended with a code (R483): BUSY is clear, LAST_CODE and EV_HEDGE_DONE say the code. -/
def HedgeEnded (c : HedgeCmd) (code : Nat) (d e : Dev) : Prop :=
  e.hedge.cmd = none ∧ e.get F.HEDGE_STATUS_BUSY = 0 ∧ e.get F.HEDGE_STATUS_LAST_CODE = code ∧ Says .k evHedgeDone c.op code none d e

/-- Registers outside `touched` read as before. -/
def RegsOutside (touched : List Nat) (d e : Dev) : Prop := ∀ a, a ∉ touched → e.rd a = d.rd a

/-- Memory reads as before outside [a, a + n). -/
def MemoryOutside (a n : Nat) (d e : Dev) : Prop := ∀ k, k < a ∨ a + n ≤ k → e.byte k = d.byte k

/-- Every sparse store is in its canonical form. -/
def Dev.storesWf (d : Dev) : Bool :=
  Store.wf regReset d.regs && Store.wf regReset d.eff && Store.wf (memReset d.gen) d.mem && Store.wf zeroByte d.host.evq
    && Store.wf zeroByte d.host.mem && Store.wf zeroByte d.cfgc.rpt && Store.wf zeroByte d.cal.live
    && Store.wf (fun _ => 0#32) d.cal.buf

/-! ### Register accesses (R7, R10) -/

/-- The registers, by the offset of their first copy, that a write does more with than R7 says: queue pointers, GLB_MODE, GLB_IRQ_REARM,
a PC, the trim buffer, and two that clamp what is written. -/
def ownWrite : List Nat :=
  [R.GLB_MODE, R.GLB_EVQ_RD, R.GLB_IRQ_REARM 0, R.CFGC_RPT_RD, R.AQS_CTX_n_PC 0, R.CAL_IMAGE 0, R.PCIE_CTRL, R.IFL_RX_RD,
    R.HEDGE_SEAL_CTRL, R.HEDGE_SEAL_RD]

/-- The register pairs whose write has a row of its own or acts on state beside the register. -/
def ownPair : List Nat := [R.STAG_TB_LOAD_LO, R.AQS_CTX_n_G_LO 0 0, R.CAP_STREAM_RD_LO, R.BEAVER_CH_n_HEAD_LO 0]

/-- A register that stands alone, does not pass CFGC, holds no command bit and is written as R7 says. -/
def RegRow.plain (r : RegRow) : Bool := r.part == .single && !r.cfg && r.wo == 0 && !ownWrite.contains r.off

/-- Bit i of a register after a write of `new` over `old` (R7). -/
def RegRow.written (r : RegRow) (old new : Word) (i : Nat) : Bool :=
  if r.w1s.testBit i && new.getLsbD i then true
  else if r.w1c.testBit i && new.getLsbD i then false
  else if r.rw.testBit i then new.getLsbD i else old.getLsbD i

/-- A requester's access reaches the register at BAR0 offset a. -/
def Dev.Reaches (d : Dev) (q : Requester) (a : Nat) : Prop :=
  d.Up ∧ (q = .host → hostReaches d = true) ∧ a % 4 = 0 ∧ a + 8 ≤ csrEnd ∧ isMsix a = false ∧ isMsix (a + 4) = false

/-- What the host reads; a program's read completes in its context. -/
def Read (q : Requester) (w : Word) (d e : Dev) : Prop :=
  e.host.completion = if q = .host then leBytes 4 w.toNat else d.host.completion

/-! ### Fuses (R466, R467) -/

/-- No fuse of g reads back: the lifecycle, DEBUG_LOCK and the counters of g have reached those of h. -/
def Hedge.fusesLe (h g : Hedge) : Prop :=
  h.lc ≤ g.lc ∧ (h.debugLock = true → g.debugLock = true) ∧ h.fwCtr ≤ g.fwCtr ∧ h.prgCtr ≤ g.prgCtr ∧ h.calCtr ≤ g.calCtr

/-- Only while island K is in reset is there a cut command's record, and the fuses it would complete lie ahead of those burnt. -/
def Dev.FusesAhead (d : Dev) : Prop := ∀ f, d.hedge.after = some f →
  d.pwr.kUp = false ∧ d.hedge.fusesLe { d.hedge with lc := f.lc, debugLock := f.debugLock, fwCtr := f.fwCtr, prgCtr := f.prgCtr, calCtr := f.calCtr }

/-! ### AQS -/

/-- The context whose instruction a command is. -/
def aqsContext : Instr → Option (Fin 8)
  | .nop n | .add n _ _ _ | .sub n _ _ _ | .and n _ _ _ | .or n _ _ _ | .xor n _ _ _ | .shl n _ _ _ | .shr n _ _ _ | .sar n _ _ _
  | .mul n _ _ _ | .cmp n _ _ | .addi n _ _ _ | .andi n _ _ _ | .ori n _ _ _ | .xori n _ _ _ | .shli n _ _ _ | .shri n _ _ _
  | .sari n _ _ _ | .cmpi n _ _ | .movi n _ _ | .movh n _ _ | .ld n _ _ _ | .ldw n _ _ _ | .st n _ _ _ | .stw n _ _ _
  | .fadd n _ _ _ | .br n _ _ | .call n _ | .ret n | .jr n _ | .loop n _ _ | .csrr n _ _ _ | .csrw n _ _ _ | .csrri n _ _ _
  | .csrwi n _ _ _ | .cfgl n _ _ | .commit n _ | .wait n _ _ _ | .waitt n _ _ | .waitc n _ | .wset n _ _ | .evr n _ _ | .tsr n _
  | .lyq n _ _ _ | .arm n | .disarm n | .force n | .mode n _ _ _ _ | .dmaq n _ _ _ | .emit n _ _ | .start n _ _ | .stop n _
  | .halt n | .bkpt n => some n
  | _ => none

/-- Context n is RUNNING, not stepped, with nothing in progress, and the word at its PC is the instruction i. -/
def Dev.Issues (d : Dev) (n : Fin 8) (i : Instr) : Prop :=
  (d.ctx n).run = .running ∧ (d.ctx n).busy = .idle ∧ (d.ctx n).single = false ∧ aqsContext i = some n ∧
    aqsEncode i = some (wordAt d (d.ctx n).pc)

/-- Context n goes on as `c` at `pc`. -/
def Dev.goes (d : Dev) (n : Fin 8) (c : Ctx) (pc : BitVec 19) : Dev := d.setCtx n { c with pc, busy := .idle, run := .running }

/-- Context n faults (R257, R258). -/
def Dev.faults (d : Dev) (n : Fin 8) (code : Nat) (pc : BitVec 19) : Dev :=
  (d.setCtx n { d.ctx n with run := .faulted, busy := .idle, single := false, late := none, code := BitVec.ofNat 16 code, faultPc := pc }).post
    .q evCtxFault n.val (code + pc.toNat * 2 ^ 32)

/-- A result in Gd, with the flags: Z and N of its 64 bits, and C and V as given. -/
def Ctx.result (x : Ctx) (g : Fin 16) (r : Int) (carry overflow : Bool) : Ctx :=
  { x.setReg g (BitVec.ofInt 64 r) with z := BitVec.ofInt 64 r == 0, n := (BitVec.ofInt 64 r).msb, c := carry, v := overflow }

/-- The two's-complement range of 64 bits. -/
def fits64 (r : Int) : Bool := decide (-(2 ^ 63) ≤ r) && decide (r < 2 ^ 63)

/-- Table 9.4's arithmetic in integers: the context after an instruction that only changes its context, without the PC. -/
def arithmetic (x : Ctx) : Instr → Option Ctx
  | .nop _ => some x
  | .add _ d a b => some (x.result d ((x.reg a).toNat + (x.reg b).toNat) (decide (2 ^ 64 ≤ (x.reg a).toNat + (x.reg b).toNat))
      (!fits64 ((x.reg a).toInt + (x.reg b).toInt)))
  | .addi _ d a imm => some (x.result d ((x.reg a).toInt + imm.toInt)
      (decide (2 ^ 64 ≤ (x.reg a).toNat + (BitVec.ofInt 64 imm.toInt).toNat)) (!fits64 ((x.reg a).toInt + imm.toInt)))
  | .sub _ d a b => some (x.result d ((x.reg a).toInt - (x.reg b).toInt) (decide ((x.reg b).toNat ≤ (x.reg a).toNat))
      (!fits64 ((x.reg a).toInt - (x.reg b).toInt)))
  | .cmp _ a b => some (x.result 0 ((x.reg a).toInt - (x.reg b).toInt) (decide ((x.reg b).toNat ≤ (x.reg a).toNat))
      (!fits64 ((x.reg a).toInt - (x.reg b).toInt)))
  | .cmpi _ a imm => some (x.result 0 ((x.reg a).toInt - imm.toInt)
      (decide ((BitVec.ofInt 64 imm.toInt).toNat ≤ (x.reg a).toNat)) (!fits64 ((x.reg a).toInt - imm.toInt)))
  | .and _ d a b => some (x.result d ((x.reg a).toNat &&& (x.reg b).toNat : Nat) false false)
  | .or _ d a b => some (x.result d ((x.reg a).toNat ||| (x.reg b).toNat : Nat) false false)
  | .xor _ d a b => some (x.result d ((x.reg a).toNat ^^^ (x.reg b).toNat : Nat) false false)
  | .andi _ d a imm => some (x.result d ((x.reg a).toNat &&& imm.toNat : Nat) false false)
  | .ori _ d a imm => some (x.result d ((x.reg a).toNat ||| imm.toNat : Nat) false false)
  | .xori _ d a imm => some (x.result d ((x.reg a).toNat ^^^ imm.toNat : Nat) false false)
  | .shl _ d a b => some (shiftLeft x d a ((x.reg b).toNat % 64))
  | .shli _ d a k => some (shiftLeft x d a k.toNat)
  | .shr _ d a b => some (shiftRight x d a (x.reg a).toNat ((x.reg b).toNat % 64))
  | .shri _ d a k => some (shiftRight x d a (x.reg a).toNat k.toNat)
  | .sar _ d a b => some (shiftRight x d a (x.reg a).toInt ((x.reg b).toNat % 64))
  | .sari _ d a k => some (shiftRight x d a (x.reg a).toInt k.toNat)
  | .mul _ d a b => some (x.result d ((x.reg a).toNat * (x.reg b).toNat) (decide (2 ^ 64 ≤ (x.reg a).toNat * (x.reg b).toNat))
      (!fits64 ((x.reg a).toInt * (x.reg b).toInt)))
  | .movi _ d imm => some (x.setReg d (BitVec.ofInt 64 imm.toInt))
  | .movh _ d imm => some (x.setReg d (BitVec.ofNat 64 ((x.reg d).toNat * 2 ^ 22 + imm.toNat)))
  | _ => none
where
  /-- C is the last bit shifted out; a count of 0 leaves it 0. -/
  shiftLeft (x : Ctx) (d a : Fin 16) (k : Nat) : Ctx :=
    x.result d ((x.reg a).toNat * 2 ^ k) (decide (k ≠ 0 ∧ (x.reg a).toNat / 2 ^ (64 - k) % 2 = 1)) false
  shiftRight (x : Ctx) (d a : Fin 16) (v : Int) (k : Nat) : Ctx :=
    x.result d (v / 2 ^ k) (decide (k ≠ 0 ∧ (x.reg a).toNat / 2 ^ (k - 1) % 2 = 1)) false

end Sys2Proof.Machine
end

