-- ==== Sys2Proof/Certificates/Slice0/Obligations.lean ====
section
/-! DEFINITION. The statements for the provers, each with the rules of the spec it rests on. `Gives c s d`: command c leaves exactly the
hardware d; `Runs c s p`: it runs and leaves hardware of which p holds. Both are what `exec` answers. -/
open Sys2Proof Sys2Proof.Machine

/-- A step takes the command at the front of the queue and runs it with the queue's rest; with none waiting the block idles (a
DESIGN CHOICE, log 3). Every command answers a next state and leaves the queue. -/
def Obligations.StepRunsFront : Prop :=
  (∀ (c : Instr) (s : State), step { s with pending := c :: s.pending } = exec c s) ∧
  (∀ s : State, s.pending = [] → step s = .next s) ∧
  (∀ (c : Instr) (s : State), ∃ d, exec c s = .next { s with dev := d })

/-- R49, R107, R489, R495: after reset the module is in SENTRY, arrangement SEPARATE, disarmed, its islands held and nothing
waiting; registers read as their reset values. That a byte reads 0 is the model's choice (log 2). -/
def Obligations.ResetValues : Prop :=
  State.reset.pending = [] ∧ State.reset.dev.mode = mSentry ∧ State.reset.dev.arr = 0 ∧ State.reset.dev.phase = 0 ∧
  State.reset.dev.armed = false ∧ State.reset.dev.pwr.kUp = false ∧ State.reset.dev.pwr.up = false ∧
  State.reset.dev.stag.counting = false ∧ (∀ a, State.reset.dev.rd a = regReset a) ∧ (∀ a, State.reset.dev.byte a = 0) ∧
  (∀ p ∈ [(R.PWR_START, 5), (R.PWR_RESET_CAUSE, 1), (R.PWR_THERM_CFG, 0x695F), (R.HEDGE_SEAL_CTRL, 0x11080400), (R.HEDGE_SEAL_PERIOD, 100)],
    (State.reset.dev.rd p.1).toNat = p.2) ∧ State.reset.dev.storesWf = true

/-- State.reset is a state from which FusesNeverGoBack speaks. -/
def Obligations.ResetFusesAhead : Prop := State.reset.dev.FusesAhead

/-- R466, R467, R473: fuses only ever go one way. From every state in which a cut command's record stands only while island K is in
reset and lies ahead of the fuses burnt, a step burns no fuse back (the lifecycle and the counters do not fall, DEBUG_LOCK stays),
and the next state is such a state. -/
def Obligations.FusesNeverGoBack : Prop :=
  ∀ s t : State, s.dev.FusesAhead → step s = .next t → t.dev.FusesAhead ∧ Hedge.fusesLe s.dev.hedge t.dev.hedge

/-- R233, Tables 9.2 to 9.4: every AQS instruction but a branch with condition 0xF has a word, and the word decodes to it, with
every operand at every value. -/
def Obligations.AqsDecodeEncode : Prop :=
  ∀ (n : Fin 8) (i : Instr), aqsContext i = some n → ∃ w, aqsEncode i = some w ∧ (wellFormed i = true → aqsDecode n w = some i)

/-- R234: opcodes 0x00 and 0x37 to 0x3F, a must-be-zero bit that is set (a word decodes only if it is the encoding of what it
decodes to, in which those bits are 0) and the condition 0xF decode to nothing; a context whose word decodes to nothing faults with
ILLEGAL_OP. -/
def Obligations.AqsReservedWords : Prop :=
  (∀ (n : Fin 8) (w : Word), w.toNat / 2 ^ 26 = 0 ∨ 0x37 ≤ w.toNat / 2 ^ 26 → aqsDecode n w = none) ∧
  (∀ (n : Fin 8) (w : Word), w.toNat / 2 ^ 26 = 0x1B → w.toNat / 2 ^ 22 % 16 = 15 → aqsDecode n w = none) ∧
  (∀ (n : Fin 8) (w : Word) (i : Instr), aqsDecode n w = some i → aqsEncode i = some w ∧ aqsContext i = some n ∧ wellFormed i = true) ∧
  (∀ (s : State) (n : Fin 8), s.dev.Up → (s.dev.ctx n).run = .running → (s.dev.ctx n).busy = .idle →
    aqsDecode n (wordAt s.dev (s.dev.ctx n).pc) = none → Gives (.illegalOp n) s (s.dev.faults n 0x0A01 (s.dev.ctx n).pc))

/-- Tables 9.2 to 9.4, words written out from their fields: the instructions they are, and words that are none: opcode 0, a reserved
opcode, a must-be-zero bit and the condition 0xF. -/
def Obligations.AqsWorkedWords : Prop :=
  (∀ n : Fin 8, ∀ p ∈ [(0xA40002C3#32, Instr.wset n 0 0x2C3), (0x5080004A#32, .movi n 2 0x4A), (0x54A05F20#32, .movh n 2 0x205F20),
      (0xB4000000#32, .arm n), (0x98C80001#32, .wait n 3 2 1), (0x6C400004#32, .br n 1 4), (0xA9000001#32, .evr n 4 1),
      (0xC8100001#32, .emit n 4 1), (0xD4000000#32, .halt n), (0xB8000000#32, .disarm n), (0xC80000FF#32, .emit n 0 0xFF)],
    aqsDecode n p.1 = some p.2) ∧
  (∀ n : Fin 8, ∀ w ∈ [0x00000000#32, 0xDC000000#32, 0x04000001#32, 0x6FC00000#32], aqsDecode n w = none)

/-- R229, R236: an instruction acts only while its context is RUNNING with nothing in progress and its word at the PC; going on in
sequence past the last word of program SRAM faults with PC_RANGE. R232, R235, Table 9.4: an arithmetic instruction writes its result
to Gd, sets the flags and goes on at the next word; nothing else changes. G0 reads 0 and discards writes. -/
def Obligations.AqsIssueAndArithmetic : Prop :=
  ((∀ (s : State) (i : Instr) (n : Fin 8) (w : Word), aqsContext i = some n → aqsEncode i = some w → issues s.dev n w = false →
    Gives i s s.dev) ∧
  (∀ (s : State) (n : Fin 8) (i : Instr) (x : Ctx), s.dev.Up → s.dev.Issues n i → (s.dev.ctx n).pc = lastPc →
    arithmetic (s.dev.ctx n) i = some x → Gives i s (s.dev.faults n 0x0A02 lastPc))) ∧
  ((∀ (s : State) (n : Fin 8) (i : Instr) (x : Ctx), s.dev.Up → s.dev.Issues n i → (s.dev.ctx n).pc ≠ lastPc →
    arithmetic (s.dev.ctx n) i = some x → Gives i s (s.dev.goes n x ((s.dev.ctx n).pc + 1))) ∧
  (∀ (x : Ctx) (d j : Fin 16) (v : Word64), (x.setReg d v).reg j = if j = d ∧ d ≠ 0 then v else x.reg j) ∧
  (∀ x : Ctx, x.reg 0 = 0))

/-- R235, R236, Tables 9.3 and 9.4: branches, calls, returns, jumps and loops; after a comparison the conditions hold as their names
say. -/
def Obligations.AqsControlTransfer : Prop :=
  (∀ (s : State) (n : Fin 8) (cond : BitVec 4) (imm : BitVec 22) (taken : Bool) (t : BitVec 19), s.dev.Up →
    s.dev.Issues n (.br n cond imm) → condition (s.dev.ctx n) cond = some taken → (t.toNat : Int) = (s.dev.ctx n).pc.toNat + imm.toInt →
    taken = true ∨ (s.dev.ctx n).pc ≠ lastPc →
    Gives (.br n cond imm) s (s.dev.goes n (s.dev.ctx n) (if taken then t else (s.dev.ctx n).pc + 1))) ∧
  (∀ (s : State) (n : Fin 8) (cond : BitVec 4) (imm : BitVec 22), s.dev.Up → s.dev.Issues n (.br n cond imm) → cond ≠ 15 →
    ((s.dev.ctx n).pc.toNat : Int) + imm.toInt < 0 ∨ 524287 < ((s.dev.ctx n).pc.toNat : Int) + imm.toInt →
    Gives (.br n cond imm) s (s.dev.faults n 0x0A02 (s.dev.ctx n).pc)) ∧
  (∀ (s : State) (n : Fin 8) (imm : BitVec 22) (t : BitVec 19), s.dev.Up → s.dev.Issues n (.call n imm) → (s.dev.ctx n).pc ≠ lastPc →
    (t.toNat : Int) = (s.dev.ctx n).pc.toNat + imm.toInt →
    Gives (.call n imm) s (if (s.dev.ctx n).stack.length < 16 then
        s.dev.goes n { s.dev.ctx n with stack := (s.dev.ctx n).stack ++ [(s.dev.ctx n).pc + 1] } t
      else s.dev.faults n 0x0A0A (s.dev.ctx n).pc)) ∧
  (∀ (s : State) (n : Fin 8) (st : List (BitVec 19)) (t : BitVec 19), s.dev.Up → s.dev.Issues n (.ret n) →
    (s.dev.ctx n).stack = st ++ [t] → Gives (.ret n) s (s.dev.goes n { s.dev.ctx n with stack := st } t)) ∧
  (∀ (s : State) (n : Fin 8), s.dev.Up → s.dev.Issues n (.ret n) → (s.dev.ctx n).stack = [] →
    Gives (.ret n) s (s.dev.faults n 0x0A0B (s.dev.ctx n).pc)) ∧
  (∀ (s : State) (n : Fin 8) (a : Fin 16), s.dev.Up → s.dev.Issues n (.jr n a) →
    Gives (.jr n a) s (if ((s.dev.ctx n).reg a).toNat ≤ 524287 then s.dev.goes n (s.dev.ctx n) (BitVec.ofNat 19 ((s.dev.ctx n).reg a).toNat)
      else s.dev.faults n 0x0A02 (s.dev.ctx n).pc)) ∧
  (∀ (s : State) (n : Fin 8) (g : Fin 16) (imm : BitVec 22) (t : BitVec 19), s.dev.Up → s.dev.Issues n (.loop n g imm) →
    (s.dev.ctx n).pc ≠ lastPc → (t.toNat : Int) = (s.dev.ctx n).pc.toNat + imm.toInt →
    Gives (.loop n g imm) s (s.dev.goes n ((s.dev.ctx n).setReg g ((s.dev.ctx n).reg g - 1))
      (if (s.dev.ctx n).reg g = 1 then (s.dev.ctx n).pc + 1 else t))) ∧
  (∀ (x : Ctx) (a b : Word64) (code : Fin 15), condition (x.setFlags (aluSub a b)) (BitVec.ofNat 4 code.val) = some
    (match code.val with
      | 0 => true | 1 => decide (a = b) | 2 => decide (a ≠ b) | 3 => decide (a.toInt < b.toInt) | 4 => decide (b.toInt ≤ a.toInt)
      | 5 => decide (a.toNat < b.toNat) | 6 => decide (b.toNat ≤ a.toNat) | 7 => decide ((a - b).toInt < 0)
      | 8 => decide (0 ≤ (a - b).toInt) | 9 => !fits64 (a.toInt - b.toInt) | 10 => fits64 (a.toInt - b.toInt)
      | 11 => decide (b.toInt < a.toInt) | 12 => decide (a.toInt ≤ b.toInt) | 13 => decide (b.toNat < a.toNat)
      | _ => decide (a.toNat ≤ b.toNat)))

/-- R237 to R239: loads, stores and FADD in SRAM complete in their slot; others go through the fabric and complete when it has
served them, one to DRAM when its channel has answered; holes, misaligned addresses, refused stores and silence fault. -/
def Obligations.AqsMemoryAccess : Prop :=
  (∀ (s : State) (n : Fin 8) (g a : Fin 16) (imm : BitVec 18), ∀ p ∈ [(Instr.ld n g a imm, 8), (Instr.ldw n g a imm, 4)],
    s.dev.Up → s.dev.Issues n p.1 → (s.dev.ctx n).pc ≠ lastPc →
    regionOf s.dev ((s.dev.ctx n).address a imm) = some .data ∨ regionOf s.dev ((s.dev.ctx n).address a imm) = some .program →
    (s.dev.ctx n).address a imm % p.2 = 0 →
    Gives p.1 s (s.dev.goes n ((s.dev.ctx n).setReg g (BitVec.ofNat 64 (s.dev.load ((s.dev.ctx n).address a imm) p.2)))
      ((s.dev.ctx n).pc + 1))) ∧
  (∀ (s : State) (n : Fin 8) (g a : Fin 16) (imm : BitVec 18), ∀ p ∈ [(Instr.st n g a imm, 8), (Instr.stw n g a imm, 4)],
    s.dev.Up → s.dev.Issues n p.1 → (s.dev.ctx n).pc ≠ lastPc →
    regionOf s.dev ((s.dev.ctx n).address a imm) = some .data → (s.dev.ctx n).address a imm % p.2 = 0 →
    Runs p.1 s fun e => e.load ((s.dev.ctx n).address a imm) p.2 = ((s.dev.ctx n).reg g).toNat % 2 ^ (8 * p.2) ∧
      MemoryOutside ((s.dev.ctx n).address a imm) p.2 s.dev e ∧
      e = { s.dev.goes n (s.dev.ctx n) ((s.dev.ctx n).pc + 1) with mem := e.mem }) ∧
  (∀ (s : State) (n : Fin 8) (g a : Fin 16) (imm : BitVec 18),
    ∀ p ∈ [(Instr.ld n g a imm, 8), (Instr.ldw n g a imm, 4), (Instr.st n g a imm, 8), (Instr.stw n g a imm, 4)],
    s.dev.Up → s.dev.Issues n p.1 → (s.dev.ctx n).pc ≠ lastPc → s.dev.ddr.span ≤ dramEnd →
    ((s.dev.ctx n).address a imm < dramEnd → s.dev.ddr.span ≤ (s.dev.ctx n).address a imm →
      Gives p.1 s (s.dev.faults n 0x0A04 (s.dev.ctx n).pc)) ∧
    (regionOf s.dev ((s.dev.ctx n).address a imm) ≠ none → (s.dev.ctx n).address a imm < 2 ^ 48 →
      (s.dev.ctx n).address a imm % p.2 ≠ 0 → Gives p.1 s (s.dev.faults n 0x0A03 (s.dev.ctx n).pc))) ∧
  (∀ (s : State) (n : Fin 8) (g a : Fin 16) (imm : BitVec 18), s.dev.Up → s.dev.Issues n (.st n g a imm) →
    (s.dev.ctx n).pc ≠ lastPc → (s.dev.ctx n).address a imm % 8 = 0 → regionOf s.dev ((s.dev.ctx n).address a imm) = some .program →
    Gives (.st n g a imm) s (s.dev.faults n 0x0A05 (s.dev.ctx n).pc)) ∧
  (∀ (s : State) (n : Fin 8) (g a : Fin 16) (imm : BitVec 18), s.dev.Up → s.dev.Issues n (.ld n g a imm) →
    (s.dev.ctx n).pc ≠ lastPc → (s.dev.ctx n).address a imm % 8 = 0 → (s.dev.ctx n).address a imm < s.dev.ddr.span →
    s.dev.ddr.span ≤ dramEnd →
    Gives (.ld n g a imm) s (s.dev.setCtx n { s.dev.ctx n with busy := .fabric .ld g ((s.dev.ctx n).address a imm) })) ∧
  (∀ (s : State) (n : Fin 8) (g : Fin 16) (a : Nat), s.dev.Up → (s.dev.ctx n).run = .running → (s.dev.ctx n).single = false →
    (s.dev.ctx n).late = none → (s.dev.ctx n).busy = .fabric .ld g a →
    regionOf s.dev a = some .stk ∨ regionOf s.dev a = some .badger ∨ regionOf s.dev a = some .table → noHole s.dev a 8 = true →
    Gives (.fabricAccessDone n) s (s.dev.goes n ((s.dev.ctx n).setReg g (BitVec.ofNat 64 (s.dev.load a 8))) ((s.dev.ctx n).pc + 1))) ∧
  (∀ (s : State) (n : Fin 8) (g : Fin 16) (op : MemOp) (v : Word64), s.dev.Up → (s.dev.ctx n).run = .running →
    (s.dev.ctx n).single = false → (s.dev.ctx n).late = none → (s.dev.ctx n).busy = .answered op g v →
    Gives (.fabricAccessDone n) s
      (s.dev.goes n (if op.isLoad then (s.dev.ctx n).setReg g v else s.dev.ctx n) ((s.dev.ctx n).pc + 1))) ∧
  (∀ (s : State) (n : Fin 8) (g : Fin 16) (op : MemOp) (a : Nat), s.dev.Up → (s.dev.ctx n).busy = .fabric op g a →
    Gives (.memTimeout n) s ((withdraw n s.dev).faults n 0x0A06 (s.dev.ctx n).pc)) ∧
  (∀ (s : State) (n : Fin 8) (g a b : Fin 16), s.dev.Up → s.dev.Issues n (.fadd n g a b) → (s.dev.ctx n).pc ≠ lastPc →
    regionOf s.dev ((s.dev.ctx n).reg a).toNat = some .data → ((s.dev.ctx n).reg a).toNat % 8 = 0 →
    Runs (.fadd n g a b) s fun e =>
      e.load ((s.dev.ctx n).reg a).toNat 8 = (s.dev.load ((s.dev.ctx n).reg a).toNat 8 + ((s.dev.ctx n).reg b).toNat) % 2 ^ 64 ∧
      MemoryOutside ((s.dev.ctx n).reg a).toNat 8 s.dev e ∧
      e = { s.dev.goes n ((s.dev.ctx n).setReg g (BitVec.ofNat 64 (s.dev.load ((s.dev.ctx n).reg a).toNat 8))) ((s.dev.ctx n).pc + 1)
            with mem := e.mem })

/-- R240 to R242, R36, R244: a register read is in progress until its response returns; a write, ARM, DISARM, FORCE and MODE are
posted, at most four in flight, and take effect at their block later; silence faults, for a posted write at the write's PC, once the
instruction that the context has reached has ended. -/
def Obligations.AqsRegisterBus : Prop :=
  (∀ (s : State) (n : Fin 8) (g a : Fin 16) (imm : BitVec 18) (blk : BitVec 5) (woff : BitVec 17),
    ∀ p ∈ [(Instr.csrr n g blk woff, blk.toNat * 0x100000 + 4 * woff.toNat), (Instr.csrri n g a imm, (s.dev.ctx n).address a imm)],
    s.dev.Up → s.dev.Issues n p.1 → (s.dev.ctx n).pc ≠ lastPc →
    Gives p.1 s (if 0x1600000 ≤ p.2 then s.dev.faults n 0x0A07 (s.dev.ctx n).pc
      else if p.2 % 4 ≠ 0 then s.dev.faults n 0x0A03 (s.dev.ctx n).pc
      else s.dev.setCtx n { s.dev.ctx n with busy := .csr p.2 g })) ∧
  (∀ (s : State) (n : Fin 8) (g : Fin 16), s.dev.Up → (s.dev.ctx n).run = .running → (s.dev.ctx n).single = false →
    (s.dev.ctx n).late = none → (s.dev.ctx n).busy = .csr R.CFGC_SEQ g → s.dev.aqs.posted = [] → s.dev.aqs.urgent = [] →
    Gives (.csrReadDone n) s (s.dev.goes n ((s.dev.ctx n).setReg g ((s.dev.rd R.CFGC_SEQ).setWidth 64)) ((s.dev.ctx n).pc + 1))) ∧
  (∀ (s : State) (n : Fin 8) (g : Fin 16) (a : Nat) (r : RegRow) (ix : List Nat), s.dev.Reaches (.ctx n) a → findReg a = some (r, ix) →
    r.part = .single → (s.dev.ctx n).run = .running → (s.dev.ctx n).single = false → (s.dev.ctx n).late = none →
    (s.dev.ctx n).busy = .csr a g → s.dev.aqs.posted = [] → s.dev.aqs.urgent = [] →
    Runs (.csrReadDone n) s fun e =>
      e.aqs = (s.dev.goes n ((s.dev.ctx n).setReg g ((busView s.dev a &&& readMask r).setWidth 64)) ((s.dev.ctx n).pc + 1)).aqs ∧
      e.rd a = s.dev.rd a &&& ~~~(busView s.dev a &&& readMask r &&& BitVec.ofNat 32 r.rc) ∧ RegsOutside [a] s.dev e ∧
      e.mem = s.dev.mem ∧ e.crossings = s.dev.crossings) ∧
  (∀ (s : State) (n : Fin 8) (g a : Fin 16) (imm : BitVec 18) (blk : BitVec 5) (woff : BitVec 17) (how wake : Bool) (arr : BitVec 2)
    (m : BitVec 3),
    ∀ p ∈ [(Instr.csrw n g blk woff, blk.toNat * 0x100000 + 4 * woff.toNat, ((s.dev.ctx n).reg g).toNat),
      (Instr.csrwi n g a imm, (s.dev.ctx n).address a imm, ((s.dev.ctx n).reg g).toNat), (Instr.arm n, R.FOX_ARM, 1),
      (Instr.disarm n, R.FOX_ARM, 2), (Instr.force n, R.FOX_ARM, 4),
      (Instr.mode n how wake arr m, R.GLB_MODE, how.toNat * 512 + wake.toNat * 256 + arr.toNat * 16 + m.toNat)],
    s.dev.Up → s.dev.Issues n p.1 → (s.dev.ctx n).pc ≠ lastPc → p.2.1 < 0x1600000 → p.2.1 % 4 = 0 →
    Gives p.1 s (if 4 ≤ (s.dev.aqs.posted.filter (fun x => x.ctx == n)).length then s.dev
      else Dev.goes { s.dev with aqs := { s.dev.aqs with posted := s.dev.aqs.posted ++ [⟨n, p.2.1, BitVec.ofNat 32 p.2.2, (s.dev.ctx n).pc⟩] } }
        n (s.dev.ctx n) ((s.dev.ctx n).pc + 1))) ∧
  (∀ (s : State) (n : Fin 8) (v : Word) (pc : BitVec 19), s.dev.Up → s.dev.aqs.posted = [⟨n, R.GLB_EVQ_MASK, v, pc⟩] →
    s.dev.aqs.urgent = [] →
    Runs (.postedWriteDone n 0) s fun e => e.aqs = { s.dev.aqs with posted := [] } ∧ e.get F.GLB_EVQ_MASK_BLOCKS = v.toNat % 2 ^ 22 ∧
      RegsOutside [R.GLB_EVQ_MASK] s.dev e ∧ e = { s.dev with regs := e.regs, aqs := e.aqs }) ∧
  (∀ (s : State) (n : Fin 8) (b : Fin 22) (a : Nat) (r : RegRow) (ix : List Nat) (v : Word) (pc : BitVec 19), s.dev.Reaches (.ctx n) a →
    findReg a = some (r, ix) → r.plain = true → a / 0x100000 = b.val → s.dev.aqs.posted = [⟨n, a, v, pc⟩] → s.dev.aqs.urgent = [] →
    Runs (.postedWriteDone n b) s fun e => e = Dev.wr { s.dev with aqs := { s.dev.aqs with posted := [] } } a (e.rd a) ∧
      ∀ k : Fin 32, (e.rd a).getLsbD k.val = r.written (s.dev.rd a) v k.val) ∧
  (∀ (s : State) (n : Fin 8) (g : Fin 16) (a : Nat), s.dev.Up → (s.dev.ctx n).busy = .csr a g →
    Gives (.busTimeout n) s (s.dev.faults n 0x0A08 (s.dev.ctx n).pc)) ∧
  (∀ (s : State) (n : Fin 8) (block : Fin 22) (a : Nat) (v : Word) (pc : BitVec 19), s.dev.Up → s.dev.aqs.posted = [⟨n, a, v, pc⟩] →
    a / 0x100000 = block.val → (s.dev.ctx n).busy = .idle →
    Gives (.busTimeoutW n block) s (Dev.faults { s.dev with aqs := { s.dev.aqs with posted := [] } } n 0x0A09 pc)) ∧
  (∀ (s : State) (n : Fin 8) (block : Fin 22) (a : Nat) (v : Word) (pc : BitVec 19), s.dev.Up → s.dev.aqs.posted = [⟨n, a, v, pc⟩] →
    a / 0x100000 = block.val → (s.dev.ctx n).busy ≠ .idle → (s.dev.ctx n).run = .running → (s.dev.ctx n).late = none →
    Gives (.busTimeoutW n block) s
      (Dev.setCtx { s.dev with aqs := { s.dev.aqs with posted := [] } } n { s.dev.ctx n with late := some pc })) ∧
  (∀ (s : State) (n : Fin 8) (g : Fin 16) (pc : BitVec 19), s.dev.Up → (s.dev.ctx n).run = .running → (s.dev.ctx n).single = false →
    (s.dev.ctx n).late = some pc → (s.dev.ctx n).busy = .csr R.CFGC_SEQ g → s.dev.aqs.posted = [] → s.dev.aqs.urgent = [] →
    Gives (.csrReadDone n) s
      ((s.dev.goes n ((s.dev.ctx n).setReg g ((s.dev.rd R.CFGC_SEQ).setWidth 64)) ((s.dev.ctx n).pc + 1)).faults n 0x0A09 pc))

/-- R244 to R246: CFGL, DMAQ and LYQ are in progress until CFGC, BEAVER and T answer; each returns a code, or the popped entry, and
Z; COMMIT returns the commit's sequence number. -/
def Obligations.AqsConfigurationAndDma : Prop :=
  (∀ (s : State) (n : Fin 8) (g a : Fin 16) (ch : Fin 32) (q : Fin 8),
    ∀ p ∈ [(Instr.cfgl n g a, Busy.cfgl g ((s.dev.ctx n).reg a).toNat), (Instr.dmaq n g a ch, Busy.dmaq g ((s.dev.ctx n).reg a) ch),
      (Instr.lyq n g a q, Busy.lyq g a q)],
    s.dev.Up → s.dev.Issues n p.1 → (s.dev.ctx n).pc ≠ lastPc → Gives p.1 s (s.dev.setCtx n { s.dev.ctx n with busy := p.2 })) ∧
  (∀ (s : State) (n : Fin 8) (g : Fin 16) (a : Nat), s.dev.Up → (s.dev.ctx n).run = .running → (s.dev.ctx n).single = false →
    (s.dev.ctx n).late = none → (s.dev.ctx n).busy = .cfgl g a → s.dev.aqs.posted = [] →
    (a % 8 ≠ 0 → Gives (.cfglDone n) s
      (s.dev.goes n { (s.dev.ctx n).setReg g 0x0111 with z := false } ((s.dev.ctx n).pc + 1))) ∧
    (a % 8 = 0 → regionOf s.dev a = some .data → regionOf s.dev (a + 23) = some .data → s.dev.load (a + 4) 2 = 1 →
      s.dev.load (a + 6) 2 = 0 → s.dev.load (a + 8) 4 = 24 → s.dev.load (a + 16) 2 = R.FOX_SEQ_COUNT / 0x100000 →
      s.dev.load (a + 18) 2 = R.FOX_SEQ_COUNT % 0x100000 / 4 → s.dev.load (a + 20) 4 ≠ 0 → s.dev.cfgc.staged = [] →
      Runs (.cfglDone n) s fun e => e.cfgc.staged = [⟨R.FOX_SEQ_COUNT, BitVec.ofNat 32 (s.dev.load (a + 20) 4), s.dev.cfgc.next⟩] ∧
        e.aqs = (s.dev.goes n { (s.dev.ctx n).setReg g (BitVec.ofNat 64 (2 ^ 32)) with z := true } ((s.dev.ctx n).pc + 1)).aqs ∧
        e.eff = s.dev.eff ∧ e.mem = s.dev.mem)) ∧
  (∀ (s : State) (n : Fin 8) (g : Fin 16), s.dev.Up → s.dev.Issues n (.commit n g) → (s.dev.ctx n).pc ≠ lastPc → s.dev.aqs.posted = [] →
    (8 ≤ s.dev.cfgc.commits.length →
      Gives (.commit n g) s (s.dev.goes n { (s.dev.ctx n).setReg g 0x0114 with z := false } ((s.dev.ctx n).pc + 1))) ∧
    (s.dev.cfgc.commits.length < 8 → Runs (.commit n g) s fun e =>
      e.aqs = (s.dev.goes n { (s.dev.ctx n).setReg g (BitVec.ofNat 64 (s.dev.cfgc.next * 2 ^ 32)) with z := true }
        ((s.dev.ctx n).pc + 1)).aqs ∧
      e.cfgc.staged = [] ∧ e.cfgc.commits.length = s.dev.cfgc.commits.length + 1 ∧ e.eff = s.dev.eff ∧ e.mem = s.dev.mem)) ∧
  (∀ (s : State) (n : Fin 8) (g : Fin 16) (head : Word64) (ch : Fin 32), s.dev.Up → (s.dev.ctx n).run = .running →
    (s.dev.ctx n).single = false → (s.dev.ctx n).late = none → (s.dev.ctx n).busy = .dmaq g head ch → s.dev.aqs.posted = [] → s.dev.aqs.urgent = [] →
    handoverCode ch head.toNat s.dev = 0 →
    Runs (.dmaqDone n) s fun e =>
      e.aqs = (s.dev.goes n { (s.dev.ctx n).setReg g 0 with z := true } ((s.dev.ctx n).pc + 1)).aqs ∧
      e.rd64 (R.BEAVER_CH_n_CUR_LO ch) = head.toNat ∧ e.get (F.BEAVER_CH_n_STATUS_RUN ch) = runRunning ∧ e.mem = s.dev.mem) ∧
  (∀ (s : State) (n q : Fin 8) (g a : Fin 16), s.dev.Up → (s.dev.ctx n).run = .running → (s.dev.ctx n).single = false →
    (s.dev.ctx n).late = none → (s.dev.ctx n).busy = .lyq g a q → s.dev.aqs.posted = [] → s.dev.aqs.urgent = [] →
    ((s.dev.lynx.get q).queue = [] → Gives (.lyqDone n) s (s.dev.goes n { s.dev.ctx n with z := true } ((s.dev.ctx n).pc + 1))) ∧
    (∀ w0 w1 rest, (s.dev.lynx.get q).queue = (w0, w1) :: rest → Runs (.lyqDone n) s fun e =>
      e.aqs = (s.dev.goes n { ((s.dev.ctx n).setReg g w0).setReg a w1 with z := false } ((s.dev.ctx n).pc + 1)).aqs ∧
      (e.lynx.get q).queue = rest ∧ RegsOutside [R.LYNX_n_LEVEL q] s.dev e ∧ e.mem = s.dev.mem))

/-- R247 to R252: WAIT takes the lowest ready slot of its mask, at once or when a slot gets a count, or times out; WAITT and WAITC
end at their tick and cycle count; WSET binds a slot, EVR reads the latch, TSR the tick copy, EMIT posts EV_PROGn. -/
def Obligations.AqsWaits : Prop :=
  (∀ (s : State) (n : Fin 8) (g k : Fin 16) (mask : BitVec 16), s.dev.Up →
    mask.getLsbD k.val = true → ((s.dev.ctx n).watch.get k).cnt ≠ 0 →
    (∀ j : Fin 16, j < k → mask.getLsbD j.val = true → ((s.dev.ctx n).watch.get j).cnt = 0) →
    ∀ c : Instr, (∃ a, c = .wait n g a mask ∧ s.dev.Issues n c ∧ (s.dev.ctx n).pc ≠ lastPc) ∨
      (∃ t, c = .waitWake n ∧ (s.dev.ctx n).busy = .waitEv g mask t ∧ (s.dev.ctx n).run = .waiting ∧ (s.dev.ctx n).single = false) →
    Gives c s (s.dev.goes n
      { (s.dev.ctx n).setReg g (BitVec.ofNat 64 k.val) with
        z := false, c := decide (((s.dev.ctx n).watch.get k).cnt ≠ 1), v := ((s.dev.ctx n).watch.get k).ovr,
        watch := (s.dev.ctx n).watch.set k.val
          { (s.dev.ctx n).watch.get k with cnt := ((s.dev.ctx n).watch.get k).cnt - 1, ovr := false },
        latch := ⟨((s.dev.ctx n).watch.get k).num, ((s.dev.ctx n).watch.get k).sub, BitVec.ofNat 4 k.val,
          ((s.dev.ctx n).watch.get k).arg, ((s.dev.ctx n).watch.get k).ts⟩ } ((s.dev.ctx n).pc + 1))) ∧
  (∀ (s : State) (n : Fin 8) (g a : Fin 16) (mask : BitVec 16), s.dev.Up → s.dev.Issues n (.wait n g a mask) →
    (s.dev.ctx n).pc ≠ lastPc → (∀ j : Fin 16, mask.getLsbD j.val = true → ((s.dev.ctx n).watch.get j).cnt = 0) →
    Gives (.wait n g a mask) s (if a = 0 then s.dev.setCtx n { s.dev.ctx n with busy := .waitEv g mask none, run := .waiting }
      else if (s.dev.ctx n).reg a = 0 then
        s.dev.goes n { (s.dev.ctx n).setReg g 16 with z := true, c := false, v := false } ((s.dev.ctx n).pc + 1)
      else s.dev.setCtx n { s.dev.ctx n with
        busy := .waitEv g mask (some (s.dev.aqs.tick.toNat + ((s.dev.ctx n).reg a).toNat)), run := .waiting })) ∧
  (∀ (s : State) (n : Fin 8) (g : Fin 16) (mask : BitVec 16) (t : Nat), s.dev.Up → (s.dev.ctx n).busy = .waitEv g mask (some t) →
    (s.dev.ctx n).run = .waiting → (s.dev.ctx n).single = false → t ≤ s.dev.aqs.tick.toNat →
    (∀ j : Fin 16, mask.getLsbD j.val = true → ((s.dev.ctx n).watch.get j).cnt = 0) →
    Gives (.waitTimeout n) s
      (s.dev.goes n { (s.dev.ctx n).setReg g 16 with z := true, c := false, v := false } ((s.dev.ctx n).pc + 1))) ∧
  (∀ (s : State) (n : Fin 8) (a : Fin 16) (rel : Bool), s.dev.Up → s.dev.Issues n (.waitt n a rel) → (s.dev.ctx n).pc ≠ lastPc →
    Gives (.waitt n a rel) s
      (if (if rel then (s.dev.ctx n).reg a = 0 else ((s.dev.ctx n).reg a).toNat ≤ s.dev.aqs.tick.toNat) then
        s.dev.goes n { s.dev.ctx n with c := true } ((s.dev.ctx n).pc + 1)
      else s.dev.setCtx n { s.dev.ctx n with
        busy := .waitTick (((s.dev.ctx n).reg a).toNat + if rel then s.dev.aqs.tick.toNat else 0), run := .waiting })) ∧
  (∀ (s : State) (n : Fin 8) (t : Nat), s.dev.Up → (s.dev.ctx n).busy = .waitTick t → (s.dev.ctx n).run = .waiting →
    (s.dev.ctx n).single = false →
    Gives (.waittDone n) s (if t ≤ s.dev.aqs.tick.toNat then s.dev.goes n { s.dev.ctx n with c := false } ((s.dev.ctx n).pc + 1)
      else s.dev)) ∧
  (∀ (s : State) (n : Fin 8) (k : BitVec 22), s.dev.Up → s.dev.Issues n (.waitc n k) → (s.dev.ctx n).pc ≠ lastPc →
    Gives (.waitc n k) s (if k.toNat ≤ 8 then s.dev.goes n (s.dev.ctx n) ((s.dev.ctx n).pc + 1)
      else s.dev.setCtx n { s.dev.ctx n with busy := .waitCyc k.toNat, run := .waiting })) ∧
  (∀ (s : State) (n : Fin 8) (k : Nat), s.dev.Up → (s.dev.ctx n).busy = .waitCyc k → (s.dev.ctx n).run = .waiting →
    (s.dev.ctx n).single = false → Gives (.waitcDone n) s (s.dev.goes n (s.dev.ctx n) ((s.dev.ctx n).pc + 1))) ∧
  (∀ (s : State) (n : Fin 8) (k : Fin 16) (ev : BitVec 12), s.dev.Up → s.dev.Issues n (.wset n k ev) → (s.dev.ctx n).pc ≠ lastPc →
    Gives (.wset n k ev) s (s.dev.goes n { s.dev.ctx n with watch := (s.dev.ctx n).watch.set k.val { num := ev } }
      ((s.dev.ctx n).pc + 1))) ∧
  (∀ (s : State) (n : Fin 8) (g : Fin 16) (sel : BitVec 2), s.dev.Up → s.dev.Issues n (.evr n g sel) → (s.dev.ctx n).pc ≠ lastPc →
    Gives (.evr n g sel) s (s.dev.goes n ((s.dev.ctx n).setReg g (BitVec.ofNat 64 (match sel.toNat with
      | 0 => (s.dev.ctx n).latch.num.toNat + (s.dev.ctx n).latch.sub.toNat * 2 ^ 16 + (s.dev.ctx n).latch.slot.toNat * 2 ^ 32
      | 1 => (s.dev.ctx n).latch.arg.toNat
      | 2 => TS.ticks (s.dev.ctx n).latch.ts
      | _ => TS.frac (s.dev.ctx n).latch.ts))) ((s.dev.ctx n).pc + 1))) ∧
  (∀ (s : State) (n : Fin 8) (g : Fin 16), s.dev.Up → s.dev.Issues n (.tsr n g) → (s.dev.ctx n).pc ≠ lastPc →
    Gives (.tsr n g) s (s.dev.goes n ((s.dev.ctx n).setReg g s.dev.aqs.tick) ((s.dev.ctx n).pc + 1))) ∧
  (∀ (s : State) (n : Fin 8) (a : Fin 16) (sub : BitVec 8), s.dev.Up → s.dev.Issues n (.emit n a sub) → (s.dev.ctx n).pc ≠ lastPc →
    Gives (.emit n a sub) s ((s.dev.goes n (s.dev.ctx n) ((s.dev.ctx n).pc + 1)).post .q (0x288 + n.val) sub.toNat
      ((s.dev.ctx n).reg a).toNat (some (mkTS s.dev.aqs.tick.toNat))))

/-- R253 to R256: START, STOP, HALT and BKPT, the host's START, STEP, STOP and ABORT of a context, and SRESET. -/
def Obligations.AqsContextControl : Prop :=
  (∀ (s : State) (n m : Fin 8) (a : Fin 16), s.dev.Up → s.dev.Issues n (.start n m a) → (s.dev.ctx n).pc ≠ lastPc → m ≠ n →
    s.dev.sealedState = false → ((s.dev.ctx n).reg a).toNat ≤ 524287 →
    Gives (.start n m a) s (if (s.dev.ctx m).run = .stopped ∨ (s.dev.ctx m).run = .halted ∨ (s.dev.ctx m).run = .brk then
        (s.dev.setCtx m { s.dev.ctx m with run := .running, single := false, pc := BitVec.ofNat 19 ((s.dev.ctx n).reg a).toNat,
                                           code := 0 }).goes n { s.dev.ctx n with z := true } ((s.dev.ctx n).pc + 1)
      else s.dev.goes n { s.dev.ctx n with z := false } ((s.dev.ctx n).pc + 1))) ∧
  (∀ (s : State) (n m : Fin 8), s.dev.Up → s.dev.Issues n (.stop n m) → (s.dev.ctx n).pc ≠ lastPc → m ≠ n →
    (s.dev.ctx m).run = .waiting → Gives (.stop n m) s
      ((s.dev.setCtx m { s.dev.ctx m with run := .stopped, busy := .idle, single := false }).goes n (s.dev.ctx n)
        ((s.dev.ctx n).pc + 1))) ∧
  (∀ (s : State) (n : Fin 8), s.dev.Up → (s.dev.ctx n).pc ≠ lastPc →
    ∀ p ∈ [(Instr.halt n, RunState.halted, evCtxHalt), (Instr.stop n n, RunState.halted, evCtxHalt), (Instr.bkpt n, RunState.brk, evCtxBreak)],
    s.dev.Issues n p.1 → Gives p.1 s ((s.dev.setCtx n { s.dev.ctx n with run := p.2.1, pc := (s.dev.ctx n).pc + 1 }).post .q p.2.2 n.val
      ((s.dev.ctx n).pc.toNat + 1))) ∧
  (∀ (s : State) (q : Requester) (n : Fin 8), s.dev.Up → s.dev.sealedState = false →
    (s.dev.ctx n).run = .stopped ∨ (s.dev.ctx n).run = .halted ∨ (s.dev.ctx n).run = .brk ∨ (s.dev.ctx n).run = .faulted →
    Gives (.aqsCtxStart q n) s (s.dev.setCtx n { s.dev.ctx n with run := .running, single := false, code := 0 }) ∧
    Gives (.aqsCtxStep q n) s (s.dev.setCtx n { s.dev.ctx n with run := .running, single := true })) ∧
  (∀ (s : State) (q : Requester) (n : Fin 8), s.dev.Up → (s.dev.ctx n).run = .running ∨ (s.dev.ctx n).run = .waiting →
    Gives (.aqsCtxStart q n) s (if q = .host then s.dev.put F.AQS_STATUS_LAST_CODE 0x0A11 else s.dev)) ∧
  (∀ (s : State) (n : Fin 8), s.dev.Up → (s.dev.ctx n).run = .running → (s.dev.ctx n).busy = .idle →
    (s.dev.ctx n).single = true → (s.dev.ctx n).pc ≠ lastPc → aqsEncode (.nop n) = some (wordAt s.dev (s.dev.ctx n).pc) →
    Gives (.nop n) s (s.dev.setCtx n { s.dev.ctx n with run := .stopped, single := false, pc := (s.dev.ctx n).pc + 1 })) ∧
  (∀ (s : State) (n : Fin 8), s.dev.Up → (s.dev.ctx n).run = .running → (s.dev.ctx n).late = none →
    Gives (.aqsCtxStop n) s (if (s.dev.ctx n).busy = .idle then s.dev.setCtx n { s.dev.ctx n with run := .stopped, single := false }
      else s.dev.setCtx n { s.dev.ctx n with run := .stopping })) ∧
  (∀ (s : State) (n : Fin 8) (k : Nat), s.dev.Up → (s.dev.ctx n).run = .running ∨ (s.dev.ctx n).run = .waiting →
    (s.dev.ctx n).late = none → (∀ g a, (s.dev.ctx n).busy ≠ .cfgl g a) →
    Gives (.aqsCtxAbort n k) s ((withdraw n s.dev).setCtx n { s.dev.ctx n with run := .stopped, busy := .idle, single := false })) ∧
  (∀ s : State, s.dev.Up → (∀ n g a, (s.dev.ctx n).busy ≠ .cfgl g a) → (∀ n, withdraw n s.dev = s.dev) → Runs .sreset s fun e =>
    (∀ n, e.ctx n = { code := (s.dev.ctx n).code, faultPc := (s.dev.ctx n).faultPc }) ∧ e.aqs = { s.dev.aqs with ctxs := e.aqs.ctxs } ∧
    e = { s.dev with aqs := e.aqs })

/-- R7, R36: a requester's write of a register that stands alone, does not pass CFGC and has neither a command bit nor a rule of its
own acts by its access types: a 1 written to a W1S bit sets it and to a W1C bit clears it, an RW bit takes what is written, every
other bit and all other state stay. A write of an 8-byte register pair replaces both halves. With a program's write in flight to the
same block in the same Q cycle, that write takes effect first (R20). R7: a host write of GLB_EVQ_MASK replaces its 22 RW bits and
leaves its reserved bits. A read of a register that stands alone answers its readable bits and clears the RC bits that it answered
as 1, no other bit and no memory. R410, R411: a register access of the wrong size or alignment changes nothing and is reported; the
first such access since GLB_BAD_ADDR_LO was read posts EV_HOST_FAULT, and reading GLB_BAD_ADDR_LO lets the next one post again. R10:
a read of a _LO half answers it and keeps the _HI half of that moment for the reader's next read of it; that read answers what was
kept, once, and a read of a _HI half with nothing kept answers its present content. A read of word 0 of a multi-word register keeps
the other words of that moment. Another requester's shadows and the registers stay. -/
def Obligations.RegisterAccess : Prop :=
  ((∀ (s : State) (q : Requester) (a : Nat) (r : RegRow) (ix : List Nat) (bytes : List Byte), s.dev.Reaches q a → findReg a = some (r, ix) →
    r.plain = true → bytes.length = 4 →
    Runs (.registerWrite ⟨q, none⟩ (.bar0 (BitVec.ofNat 26 a) bytes)) s fun e => e = s.dev.wr a (e.rd a) ∧
      ∀ i : Fin 32, (e.rd a).getLsbD i.val = r.written (s.dev.rd a) (BitVec.ofNat 32 (leNat bytes)) i.val) ∧
  (∀ (s : State) (a : Nat) (r h : RegRow) (ix iy : List Nat) (bytes : List Byte), s.dev.Reaches .host a → findReg a = some (r, ix) →
    findReg (a + 4) = some (h, iy) → r.part = .lo → h.part = .hi → r.cfg = false → h.cfg = false → r.rw ≠ 0 → h.rw ≠ 0 → r.off ∉ ownPair →
    bytes.length = 8 →
    Runs (.registerWrite ⟨.host, none⟩ (.bar0 (BitVec.ofNat 26 a) bytes)) s fun e => e.rd64 a = leNat bytes ∧
      RegsOutside [a, a + 4] s.dev e ∧ e.mem = s.dev.mem ∧ e.eff = s.dev.eff) ∧
  (∀ (s u : State) (n : Fin 8) (b : Fin 22) (t : RegTarget), s.dev.Up → (s.dev.ctx n).busy = .idle → exec (.postedWriteDone n b) s = .next u →
    exec (.registerWrite ⟨.host, some (n, b)⟩ t) s = exec (.registerWrite ⟨.host, none⟩ t) u)) ∧
  ((∀ (s : State) (bytes : List Byte), s.dev.Up → hostReaches s.dev = true → bytes.length = 4 →
    Runs (.registerWrite ⟨.host, none⟩ (.bar0 (BitVec.ofNat 26 R.GLB_EVQ_MASK) bytes)) s fun e =>
      e.get F.GLB_EVQ_MASK_BLOCKS = leNat bytes % 2 ^ 22 ∧
      bitsOf (e.rd R.GLB_EVQ_MASK).toNat 31 22 = bitsOf (s.dev.rd R.GLB_EVQ_MASK).toNat 31 22 ∧
      RegsOutside [R.GLB_EVQ_MASK] s.dev e ∧ e = { s.dev with regs := e.regs }) ∧
  (∀ (s : State) (q : Requester) (a : Nat) (r : RegRow) (ix : List Nat), s.dev.Reaches q a → findReg a = some (r, ix) → r.part = .single →
    Runs (.rcRead q (BitVec.ofNat 26 a) 4) s fun e => Read q (busView s.dev a &&& readMask r) s.dev e ∧
      e.rd a = s.dev.rd a &&& ~~~(busView s.dev a &&& readMask r &&& BitVec.ofNat 32 r.rc) ∧ RegsOutside [a] s.dev e ∧
      e.eff = s.dev.eff ∧ e.mem = s.dev.mem ∧ e.crossings = s.dev.crossings)) ∧
  ((∀ (s : State) (off : BitVec 26) (bytes : List Byte), s.dev.Up → hostReaches s.dev = true → off.toNat + bytes.length ≤ 0x1600000 →
    ¬ (off.toNat % 4 = 0 ∧ (bytes.length = 4 ∨ bytes.length = 8)) →
    Runs (.registerWrite ⟨.host, none⟩ (.bar0 off bytes)) s fun e =>
      e.get F.GLB_STATUS_SIZE_ERR = 1 ∧ e.get F.GLB_STATUS_LAST_CODE = 0x20 ∧ e.rd64 R.GLB_BAD_ADDR_LO = off.toNat ∧
      e.host.faultNotified = true ∧ e.mem = s.dev.mem ∧ e.eff = s.dev.eff ∧
      RegsOutside [R.GLB_STATUS, R.GLB_BAD_ADDR_LO, R.GLB_BAD_ADDR_LO + 4] s.dev e ∧
      (if s.dev.host.faultNotified then e.crossings = s.dev.crossings else Says .q evHostFault 0x20 off.toNat none s.dev e)) ∧
  (∀ (s : State) (q : Requester), s.dev.Reaches q R.GLB_BAD_ADDR_LO →
    Runs (.badAddrRead q) s fun e => e.host.faultNotified = false ∧ Read q (s.dev.rd R.GLB_BAD_ADDR_LO) s.dev e ∧
      shadowOf e q (R.GLB_BAD_ADDR_LO + 4) = some (s.dev.rd (R.GLB_BAD_ADDR_LO + 4) &&& 0x800000FF#32) ∧
      e.regs = s.dev.regs ∧ e.mem = s.dev.mem ∧ e.crossings = s.dev.crossings)) ∧
  ((∀ (s : State) (q : Requester) (a : Nat) (r h : RegRow) (ix iy : List Nat), s.dev.Reaches q a → findReg a = some (r, ix) → r.part = .lo →
    findReg (a + 4) = some (h, iy) → r.rc = 0 → a ≠ R.GLB_BAD_ADDR_LO →
    Runs (.pairLoRead q (BitVec.ofNat 26 a) 4) s fun e => Read q (busView s.dev a &&& readMask r) s.dev e ∧
      shadowOf e q (a + 4) = some (busView s.dev (a + 4) &&& readMask h) ∧
      (∀ p b, (p, b) ≠ (q, a + 4) → shadowOf e p b = shadowOf s.dev p b) ∧ e.regs = s.dev.regs ∧ e.mem = s.dev.mem) ∧
  (∀ (s : State) (q : Requester) (a : Nat) (r : RegRow) (ix : List Nat), s.dev.Reaches q a → findReg a = some (r, ix) → r.part = .hi →
    Runs (.rcRead q (BitVec.ofNat 26 a) 4) s fun e =>
      Read q ((shadowOf s.dev q a).getD (busView s.dev a &&& readMask r)) s.dev e ∧ shadowOf e q a = none ∧ e.regs = s.dev.regs ∧
      e.mem = s.dev.mem) ∧
  (∀ (s : State) (q : Requester) (a k : Nat) (r : RegRow) (ix : List Nat), s.dev.Reaches q a → findReg a = some (r, ix) → r.part = .word0 k →
    ix.getLastD 0 = 0 → r.off ≠ R.LYNX_n_Q 0 0 →
    Runs (.pairLoRead q (BitVec.ofNat 26 a) 4) s fun e => Read q (busView s.dev a &&& readMask r) s.dev e ∧
      (∀ i, 0 < i → i < k → shadowOf e q (a + 4 * i) = some (busView s.dev (a + 4 * i) &&& readMask r)) ∧ e.regs = s.dev.regs ∧
      e.mem = s.dev.mem))

/-- R35, R248, R249, R415, R416: an arriving event is counted in every watch slot of its number, takes the tick copy where it has no
TS, and is appended to a queue with room; on a full queue it is lost and counted. A held event takes its place in the crossing. A
rearm in the same Q cycle takes effect first (R418). R35: an event held too long is discarded and counted for its island;
EV_EVENT_LOST follows once the crossing has room. -/
def Obligations.EventDelivery : Prop :=
  ((∀ (s : State) (i : Island) (x : Event) (rest held : List Event) (lost : Nat), s.dev.Released →
    s.dev.crossings.get i = ⟨x :: rest, held, lost⟩ → x.num ≠ 0 → x.num < 64 * 22 →
    bitsOf (s.dev.get F.GLB_EVQ_MASK_BLOCKS) (x.num / 64) (x.num / 64) = 1 → s.dev.get (F.GLB_IRQ_ROUTE_EN (x.num / 64)) = 0 →
    s.dev.rd R.GLB_EVQ_RD = 0 → (s.dev.rd R.GLB_EVQ_WR).toNat < 8192 →
    Runs (.eventArrival ⟨i, none⟩) s fun e =>
      e.crossings.get i = ⟨rest ++ held.take 1, held.drop 1, lost⟩ ∧ (∀ j, j ≠ i → e.crossings.get j = s.dev.crossings.get j) ∧
      (e.rd R.GLB_EVQ_WR).toNat = (s.dev.rd R.GLB_EVQ_WR).toNat + 1 ∧
      (∀ k : Fin 32, Store.get zeroByte e.host.evq (32 * (s.dev.rd R.GLB_EVQ_WR).toNat + k.val) =
        (evqEntry x (x.ts.getD (mkTS s.dev.aqs.tick.toNat)) s.dev.host.gap s.dev.host.seq).getD k.val 0) ∧
      (∀ (n : Fin 8) (w : Fin 16), (((e.aqs.ctxs.get n).watch.get w).num = ((s.dev.aqs.ctxs.get n).watch.get w).num) ∧
        (((s.dev.aqs.ctxs.get n).watch.get w).num.toNat = x.num → ((s.dev.aqs.ctxs.get n).watch.get w).cnt ≠ 255 →
          ((e.aqs.ctxs.get n).watch.get w).cnt = ((s.dev.aqs.ctxs.get n).watch.get w).cnt + 1 ∧
          ((e.aqs.ctxs.get n).watch.get w).arg = x.arg) ∧
        (((s.dev.aqs.ctxs.get n).watch.get w).num.toNat ≠ x.num → (e.aqs.ctxs.get n).watch.get w = (s.dev.aqs.ctxs.get n).watch.get w)) ∧
      e.mem = s.dev.mem ∧ RegsOutside [R.GLB_EVQ_WR] s.dev e) ∧
  (∀ (s : State) (i : Island) (x : Event) (rest held : List Event) (lost : Nat), s.dev.Released →
    s.dev.crossings.get i = ⟨x :: rest, held, lost⟩ → x.num ≠ 0 → x.num < 64 * 22 →
    bitsOf (s.dev.get F.GLB_EVQ_MASK_BLOCKS) (x.num / 64) (x.num / 64) = 1 → s.dev.rd R.GLB_EVQ_RD = 0 → (s.dev.rd R.GLB_EVQ_WR).toNat = 8192 →
    Runs (.eventArrival ⟨i, none⟩) s fun e => e.crossings.get i = ⟨rest ++ held.take 1, held.drop 1, lost⟩ ∧ e.host.evq = s.dev.host.evq ∧
      e.host.gap = true ∧ e.get F.GLB_STATUS_EVQ_OVF = 1 ∧
      (e.rd R.GLB_EVQ_LOST).toNat = min ((s.dev.rd R.GLB_EVQ_LOST).toNat + 1) 0xFFFFFFFF ∧
      RegsOutside [R.GLB_STATUS, R.GLB_EVQ_LOST] s.dev e ∧ e.mem = s.dev.mem) ∧
  (∀ (s u : State) (i : Island) (k : Fin 2) (bits : Word), s.dev.Released → hostReaches s.dev = true → exec (.irqRearm k bits) s = .next u →
    exec (.eventArrival ⟨i, some (k, bits)⟩) s = exec (.eventArrival ⟨i, none⟩) u)) ∧
  ((∀ (s : State) (i : Island) (x : Event) (rest : List Event), s.dev.Released → (s.dev.crossings.get i).held = x :: rest →
    Runs (.eventDiscard i) s fun e => e.crossings.get i = ⟨(s.dev.crossings.get i).fifo, rest, (s.dev.crossings.get i).lost + 1⟩ ∧
      (e.rd (R.GLB_EVENT_LOST i.val)).toNat = min ((s.dev.rd (R.GLB_EVENT_LOST i.val)).toNat + 1) 0xFFFFFFFF ∧
      RegsOutside [R.GLB_EVENT_LOST i.val] s.dev e ∧ ∀ j, j ≠ i → e.crossings.get j = s.dev.crossings.get j) ∧
  (∀ (s : State) (i : Island), s.dev.Released → (s.dev.crossings.get i).held = [] → (s.dev.crossings.get i).fifo.length < 32 →
    (s.dev.crossings.get i).lost ≠ 0 →
    Runs (.evEventLost i) s fun e => (e.crossings.get i).lost = 0 ∧
      ((e.crossings.get i).fifo.getLast?.map (·.num)) = some 1 ∧ e.regs = s.dev.regs ∧
      ∀ j, j ≠ i → e.crossings.get j = s.dev.crossings.get j))

/-- R418: a rearm of a vector whose latch is clear arms it; with the latch set the message is issued at once, the latch is cleared
and the vector disarmed; clearing a vector's mask issues its pending message. -/
def Obligations.Interrupts : Prop :=
  (∀ (s : State) (v : Fin 64), s.dev.Up → s.dev.host.latch.getLsbD v.val = false →
    Runs (.irqRearm ⟨v.val / 32, by omega⟩ (BitVec.ofNat 32 (2 ^ (v.val % 32)))) s fun e => vectorArmed e v = true ∧
      e.host = s.dev.host ∧ RegsOutside [R.GLB_IRQ_REARM (v.val / 32)] s.dev e) ∧
  (∀ (s : State) (k : Fin 2) (bits : Word), s.dev.Up → s.dev.host.latch = 0 →
    Runs (.irqRearm k bits) s fun e => e.host = s.dev.host ∧ RegsOutside [R.GLB_IRQ_REARM k.val] s.dev e ∧
      ∀ v : Fin 64, vectorArmed e v = (vectorArmed s.dev v || (v.val / 32 == k.val && bits.getLsbD (v.val % 32)))) ∧
  (∀ (s : State) (v : Fin 64), s.dev.Up → s.dev.host.latch.getLsbD v.val = true → deliverable s.dev v = true →
    Runs (.irqRearm ⟨v.val / 32, by omega⟩ (BitVec.ofNat 32 (2 ^ (v.val % 32)))) s fun e => vectorArmed e v = false ∧
      e.host.latch.getLsbD v.val = false ∧
      e.host.messages = ((s.dev.host.msix.get v).addr, (s.dev.host.msix.get v).data) :: s.dev.host.messages) ∧
  (∀ (s : State) (v : Fin 64), s.dev.Up → s.dev.host.pba = BitVec.ofNat 64 (2 ^ v.val) → s.dev.host.msixEn = true →
    s.dev.host.funcMask = false → mayIssue s.dev = true →
    Runs (.msixUnmask v) s fun e => (e.host.msix.get v).masked = false ∧ e.host.pba = 0 ∧
      e.host.messages = ((s.dev.host.msix.get v).addr, (s.dev.host.msix.get v).data) :: s.dev.host.messages ∧ e.regs = s.dev.regs)

/-- R272, R273, R276: a write of a configuration register takes the next sequence number; a value that the clamps of its register
leave as it is is staged as its RW bits, in place of a word staged for that register before, with nothing reported, and nothing
committed or in effect changes; a pair's _LO half is held, and the write of its _HI half stages both. A value out of range is staged
as the nearest one and reported. A full staging set refuses a new word. R272, R274, R275: a commit takes the staging set and the
next sequence number; checked, its words are the registers' values and go to their unit; the unit applies them together,
CFGC_APPLIED_SEQ follows and EV_CFG_APPLIED is posted. Checked in a mode transition, they wait for the target mode (R64). A discard
empties the staging set; a ninth commit is refused. -/
def Obligations.ConfigurationCommits : Prop :=
  ((∀ (s : State) (q : Requester) (a : Nat) (r : RegRow) (ix : List Nat) (v : Word), s.dev.Reaches q a → findReg a = some (r, ix) → r.cfg = true →
    r.part = .single → sealedWrite s.dev q a = false → s.dev.cfgc.staged.length < 4096 → v.toNat &&& rowBits r = v.toNat →
    clampBy (singleRules r.off) (v.toNat &&& r.rw) = (v.toNat &&& r.rw, []) →
    Runs (.configWrite ⟨q, none⟩ (BitVec.ofNat 26 a) v) s fun e =>
      e.cfgc.staged = s.dev.cfgc.staged.filter (fun w => w.addr ≠ a) ++ [⟨a, BitVec.ofNat 32 (v.toNat &&& r.rw), s.dev.cfgc.next⟩] ∧
      e.rd R.CFGC_SEQ = BitVec.ofNat 32 s.dev.cfgc.next ∧ RegsOutside [R.CFGC_STATUS, R.CFGC_SEQ] s.dev e ∧ e.eff = s.dev.eff ∧
      e.cfgc.commits = s.dev.cfgc.commits ∧ e.cfgc.parts = s.dev.cfgc.parts ∧ e.crossings = s.dev.crossings ∧ e.mem = s.dev.mem) ∧
  (∀ (s : State) (q : Requester) (a : Nat) (r : RegRow) (ix : List Nat) (v : Word), s.dev.Reaches q a → findReg a = some (r, ix) → r.cfg = true →
    r.part = .lo → sealedWrite s.dev q a = false →
    Runs (.configWrite ⟨q, none⟩ (BitVec.ofNat 26 a) v) s fun e =>
      e.halves = s.dev.halves.filter (fun h => !(h.req == q && h.addr == a)) ++ [⟨q, a, v, s.dev.cfgc.next⟩] ∧
      e.cfgc.staged = s.dev.cfgc.staged ∧ RegsOutside [R.CFGC_STATUS, R.CFGC_SEQ] s.dev e ∧ e.eff = s.dev.eff ∧ e.mem = s.dev.mem) ∧
  (∀ (s : State) (q : Requester) (a : Nat) (r l : RegRow) (ix iy : List Nat) (v w : Word) (k : Nat), s.dev.Reaches q (a + 4) →
    findReg (a + 4) = some (r, ix) → findReg a = some (l, iy) → r.cfg = true → r.part = .hi → sealedWrite s.dev q (a + 4) = false →
    s.dev.cfgc.staged.length + 2 ≤ 4096 → s.dev.halves = [⟨q, a, w, k⟩] → w.toNat &&& l.rw = w.toNat → v.toNat &&& r.rw = v.toNat →
    clampBy (pairRules l.off) (w.toNat + 2 ^ 32 * v.toNat) = (w.toNat + 2 ^ 32 * v.toNat, []) →
    Runs (.configWrite ⟨q, none⟩ (BitVec.ofNat 26 (a + 4)) v) s fun e => e.halves = [] ∧
      e.cfgc.staged = s.dev.cfgc.staged.filter (fun x => x.addr ≠ a ∧ x.addr ≠ a + 4) ++
        [⟨a, w, s.dev.cfgc.next⟩, ⟨a + 4, v, s.dev.cfgc.next⟩] ∧
      RegsOutside [R.CFGC_STATUS, R.CFGC_SEQ] s.dev e ∧ e.eff = s.dev.eff ∧ e.mem = s.dev.mem) ∧
  (∀ (s : State) (v : Word), s.dev.Up → s.dev.cfgc.staged = [] → s.dev.rd R.CFGC_RPT_RD = 0 → s.dev.rd R.CFGC_RPT_WR = 0 →
    Runs (.configWrite ⟨.host, none⟩ (BitVec.ofNat 26 R.FOX_SEQ_COUNT) v) s fun e =>
      e.cfgc.staged = [⟨R.FOX_SEQ_COUNT, if v = 0 then 1 else v, s.dev.cfgc.next⟩] ∧ e.eff = s.dev.eff ∧
      e.rd R.FOX_SEQ_COUNT = s.dev.rd R.FOX_SEQ_COUNT ∧ e.rd R.CFGC_SEQ = BitVec.ofNat 32 s.dev.cfgc.next ∧
      e.rd R.CFGC_RPT_WR = (if v = 0 then 1 else 0) ∧ e.get F.CFGC_STATUS_LAST_CODE = (if v = 0 then 0x0101 else 0) ∧
      RegsOutside [R.CFGC_STATUS, R.CFGC_SEQ, R.CFGC_RPT_WR] s.dev e) ∧
  (∀ (s : State) (v : Word), s.dev.Up → s.dev.cfgc.staged.length = 4096 → (∀ w ∈ s.dev.cfgc.staged, w.addr ≠ R.FOX_SEQ_COUNT) →
    Runs (.configWrite ⟨.host, none⟩ (BitVec.ofNat 26 R.FOX_SEQ_COUNT) v) s fun e =>
      e.cfgc.staged = s.dev.cfgc.staged ∧ e.eff = s.dev.eff ∧ e.get F.CFGC_STATUS_LAST_CODE = 0x0112)) ∧
  ((∀ (s : State) (q : Requester), s.dev.Up → s.dev.cfgc.commits.length < 8 →
    Runs (.cfgcCommit q) s fun e => e.cfgc.staged = [] ∧
      e.cfgc.commits = s.dev.cfgc.commits ++ [⟨s.dev.cfgc.next, s.dev.cfgc.staged.map (fun w => { w with addr := cfgKey s.dev w.addr }),
        s.dev.halves.filter (fun h => isCfgReg h.addr)⟩] ∧ e.halves = s.dev.halves.filter (fun h => !isCfgReg h.addr) ∧
      e.rd R.CFGC_COMMIT_SEQ = BitVec.ofNat 32 s.dev.cfgc.next ∧ e.get F.CFGC_STATUS_BUSY = 1 ∧ e.eff = s.dev.eff ∧
      RegsOutside [R.CFGC_STATUS, R.CFGC_SEQ, R.CFGC_COMMIT_SEQ] s.dev e) ∧
  (∀ (s : State) (q : Requester), s.dev.Up → 8 ≤ s.dev.cfgc.commits.length →
    Gives (.cfgcCommit q) s (if q = .host then s.dev.put F.CFGC_STATUS_LAST_CODE 0x0114 else s.dev)) ∧
  (∀ (s : State) (q : Requester), s.dev.Up → Runs (.cfgcDiscard q) s fun e => e.cfgc = { s.dev.cfgc with staged := [] } ∧ e.eff = s.dev.eff ∧
      e.get F.CFGC_STATUS_STAGED = 0 ∧ RegsOutside [R.CFGC_STATUS] s.dev e) ∧
  (∀ (s : State) (v : Word) (seq q : Nat), s.dev.Up → s.dev.cfgc.commits = [⟨seq, [⟨R.STAG_TB_CTRL, v, q⟩], []⟩] →
    s.dev.cfgc.parts = [] → s.dev.cfgc.waits = [] → s.dev.phase = 0 →
    Runs .commitCheckDone s fun e => e.rd R.STAG_TB_CTRL = v ∧ e.ef R.STAG_TB_CTRL = s.dev.ef R.STAG_TB_CTRL ∧
      e.cfgc.parts = [⟨.stagTb, R.STAG_TB_CTRL, v⟩] ∧ e.cfgc.waits = [⟨seq, [.stagTb], false⟩] ∧ e.cfgc.commits = []) ∧
  (∀ (s : State) (v : Word) (seq : Nat), s.dev.Up → s.dev.cfgc.parts = [⟨.stagTb, R.STAG_TB_CTRL, v⟩] →
    s.dev.cfgc.waits = [⟨seq, [.stagTb], false⟩] → (s.dev.rd R.CFGC_APPLIED_SEQ).toNat ≤ seq →
    seq < (s.dev.rd R.CFGC_APPLIED_SEQ).toNat + 2 ^ 31 → seq < 2 ^ 32 →
    Runs (.commitApply .stagTb) s fun e => e.ef R.STAG_TB_CTRL = v ∧ e.cfgc.parts = [] ∧ e.cfgc.waits = [] ∧
      e.rd R.CFGC_APPLIED_SEQ = BitVec.ofNat 32 seq ∧ Says .q evCfgApplied 0 seq none s.dev e ∧
      (∀ a, a ≠ R.STAG_TB_CTRL → e.ef a = s.dev.ef a)) ∧
  (∀ (s : State) (a : Nat) (v : Word) (seq : Nat), ∀ u ∈ [CfgUnit.stagTb, .lynxExt, .ilvCtrl, .fox], s.dev.Up → midSpan s.dev = false →
    s.dev.cfgc.parts = [⟨u, a, v⟩] → s.dev.cfgc.waits = [⟨seq, [u], false⟩] →
    Runs (.commitApply u) s fun e => e.ef a = v ∧ (∀ b, b ≠ a → e.ef b = s.dev.ef b) ∧ e.cfgc.parts = [] ∧ e.cfgc.waits = [] ∧ e.mem = s.dev.mem) ∧
  (∀ (s : State) (v : Word) (seq q : Nat), s.dev.Up → s.dev.cfgc.commits = [⟨seq, [⟨R.STAG_TB_CTRL, v, q⟩], []⟩] →
    s.dev.cfgc.parts = [] → s.dev.cfgc.waits = [] → s.dev.phase ≠ 0 →
    Runs .commitCheckDone s fun e => e.rd R.STAG_TB_CTRL = v ∧ e.eff = s.dev.eff ∧ e.cfgc.parts = [] ∧ e.cfgc.commits = [] ∧
      e.cfgc.withMode = s.dev.cfgc.withMode ++ [⟨seq, [⟨R.STAG_TB_CTRL, v, q⟩], []⟩] ∧ e.cfgc.waits = [⟨seq, [], true⟩]))

/-- R412, R413, R42: a host read through BAR2 returns the bytes of the device addresses it maps; a write through BAR0 changes
exactly the bytes it covers; a hole reads as 0 and is reported; an access that is not served completes with all ones. -/
def Obligations.HostMemoryWindows : Prop :=
  (∀ (s : State) (off : BitVec 39) (n : Nat), s.dev.Up → hostReaches s.dev = true → off.toNat + n ≤ dramEnd → off.toNat + n ≤ s.dev.ddr.span →
    0 < n → burstPoisoned s.dev off.toNat n = false →
    Gives (.bar2Access off (.read n)) s
      { s.dev with host := { s.dev.host with completion := s.dev.loadBytes off.toNat n, poisoned := false } }) ∧
  (∀ (s : State) (off : BitVec 39) (n : Nat), s.dev.Up → hostReaches s.dev = true → 0x7100000000 ≤ off.toNat →
    Runs (.bar2Access off (.read n)) s fun e => e.host.completion = zeros n ∧ e.get F.GLB_STATUS_HOLE = 1 ∧
      e.get F.GLB_STATUS_LAST_CODE = 0x21 ∧ e.rd64 R.GLB_BAD_ADDR_LO = 2 ^ 63 + off.toNat ∧ e.mem = s.dev.mem) ∧
  (∀ (s : State) (k : Nat) (bytes : List Byte), s.dev.Up → hostReaches s.dev = true → bytes ≠ [] → k + bytes.length ≤ 0x200000 →
    s.dev.ddr.span ≤ dramEnd →
    Runs (.bar0WindowAccess (BitVec.ofNat 26 (0x2200000 + k)) (.write (bytes.map some))) s fun e =>
      e.loadBytes (dataBase + k) bytes.length = bytes ∧ MemoryOutside (dataBase + k) bytes.length s.dev e ∧ e.regs = s.dev.regs) ∧
  (∀ (s : State) (bar2 : Bool) (off : BitVec 39) (len : Option Nat), s.dev.Up → hostReaches s.dev = true →
    Runs (.hostTimeout bar2 off len) s fun e => e.get F.GLB_STATUS_TIMEOUT = 1 ∧ e.get F.GLB_STATUS_LAST_CODE = 0x22 ∧
      e.rd64 R.GLB_BAD_ADDR_LO = (if bar2 then 2 ^ 63 else 0) + off.toNat ∧ e.mem = s.dev.mem ∧
      e.host.completion = match len with
        | some n => List.replicate n 0xFF
        | none => s.dev.host.completion) ∧
  (∀ (s : State) (off : BitVec 39) (bytes : List Byte), s.dev.Up → hostReaches s.dev = true → bytes ≠ [] →
    off.toNat + bytes.length ≤ dramEnd → off.toNat + bytes.length ≤ s.dev.ddr.span → canWrite s.dev off.toNat bytes.length = true →
    Runs (.bar2Access off (.write (bytes.map some))) s fun e => e.loadBytes off.toNat bytes.length = bytes ∧
      MemoryOutside off.toNat bytes.length s.dev e ∧ e.regs = s.dev.regs ∧ e.crossings = s.dev.crossings)

/-- R30, R405 to R407: a link change is shown and posted; AER errors are counted and posted; PERST_N and Function Level Reset return
the PCIE registers and configuration space to reset and leave the event queue, memory and the mode. -/
def Obligations.EndpointEvents : Prop :=
  (∀ (s : State) (speed : Fin 7) (width : Fin 17) (up : Bool) (pm : BitVec 2), s.dev.Up → hRuns s.dev = true →
    speed.val ≤ s.dev.get F.PCIE_CTRL_TARGET_SPEED →
    Runs (.linkChange speed width up pm) s fun e => e.get F.PCIE_STATUS_SPEED = speed.val ∧ e.get F.PCIE_STATUS_WIDTH = width.val ∧
      e.get F.PCIE_STATUS_DL_UP = up.toNat ∧ e.get F.PCIE_STATUS_PM = pm.toNat ∧ RegsOutside [R.PCIE_STATUS] s.dev e ∧
      Says .h evPcieLink 0 (speed.val + 16 * width.val + 512 * up.toNat) none s.dev e ∧
      (s.dev.get F.PCIE_STATUS_DL_UP = 1 → s.dev.get F.PCIE_STATUS_PM = 0 → pm = 3 ∨ up = false →
        e.get F.PCIE_STATUS_LAST_CODE = 0x1203)) ∧
  (∀ s : State, ∀ c ∈ [Instr.perst, .functionLevelReset], s.dev.Up → hRuns s.dev = true →
    Runs c s fun e => e.host.busMaster = false ∧ e.host.msixEn = false ∧ e.get F.PCIE_CTRL_TARGET_SPEED = 6 ∧
      e.host.msix = Vector.replicate 64 {} ∧ e.host.evq = s.dev.host.evq ∧ e.mem = s.dev.mem ∧ e.crossings = s.dev.crossings ∧
      (∀ a, a / 0x100000 ≠ 18 → a < 2 ^ 32 → e.rd a = s.dev.rd a) ∧ (c = .perst → e.host.perst = true)) ∧
  (∀ s : State, Gives .perstRelease s { s.dev with host := { s.dev.host with perst := false } }) ∧
  (∀ (s : State) (p : Bool), Gives (.pcieRefChange p) s { s.dev with host := { s.dev.host with refPresent := p } }) ∧
  (∀ (s : State) (st : Word), s.dev.Up → hRuns s.dev = true →
    (Runs (.pcieAerError true st) s fun e => e.host.aerUncor = s.dev.host.aerUncor ||| st ∧
      (e.rd R.PCIE_UE_CNT).toNat = min ((s.dev.rd R.PCIE_UE_CNT).toNat + 1) 0xFFFFFFFF ∧
      Says .h evPcieAer 1 (s.dev.host.aerUncor ||| st).toNat none s.dev e ∧ RegsOutside [R.PCIE_UE_CNT] s.dev e) ∧
    (Runs (.pcieAerError false st) s fun e => e.host.aerCor = s.dev.host.aerCor ||| st ∧
      (e.rd R.PCIE_CE_CNT).toNat = min ((s.dev.rd R.PCIE_CE_CNT).toNat + 1) 0xFFFFFFFF ∧
      Says .h evPcieAer 0 (s.dev.host.aerCor ||| st).toNat none s.dev e ∧ RegsOutside [R.PCIE_CE_CNT] s.dev e))

/-- R50, R58: the causes of refusal, in their order of precedence. R52, R53, R55, R57: an accepted request for another mode or
arrangement, or with HOW 1, leaves the module draining in the mode it was and FOX disarmed (with HOW 0 between spans of vectors);
one for the current mode and arrangement with HOW 0 completes at once and leaves the armed state. A request accepted while another
is pending replaces its target, and the one it replaces ends with MODE_SUPERSEDED. A program's MODE that arrives in the same Q cycle
takes effect first (R56). -/
def Obligations.ModeRequests : Prop :=
  (∀ (s : State) (v : Word), s.dev.Up →
    (s.dev.get F.GLB_STATUS_READY = 0 → Gives (.modeRequest ⟨v, none⟩) s (refusedRequest v 0x15 s.dev)) ∧
    (s.dev.get F.GLB_STATUS_READY = 1 → s.dev.phase = 2 → Gives (.modeRequest ⟨v, none⟩) s (refusedRequest v 0x11 s.dev)) ∧
    (s.dev.get F.GLB_STATUS_READY = 1 → s.dev.phase ≠ 2 → bitsOf v.toNat 5 4 = 3 ∨ (bitsOf v.toNat 2 0 = mFine ∧ bitsOf v.toNat 5 4 ≠ 0) →
      Gives (.modeRequest ⟨v, none⟩) s (refusedRequest v 0x10 s.dev)) ∧
    (s.dev.get F.GLB_STATUS_READY = 1 → s.dev.phase ≠ 2 → bitsOf v.toNat 5 4 ≠ 3 → bitsOf v.toNat 2 0 < mFine ∨ (bitsOf v.toNat 2 0 = mFine ∧
      bitsOf v.toNat 5 4 = 0) → s.dev.cfg F.STAG_SL_CTRL_EN = 0 → Gives (.modeRequest ⟨v, none⟩) s (refusedRequest v 0x12 s.dev))) ∧
  ((∀ (s : State) (v : Word), s.dev.Up → s.dev.get F.GLB_STATUS_READY = 1 → s.dev.phase = 0 → s.dev.cfg F.STAG_SL_CTRL_EN = 1 →
    bitsOf v.toNat 5 4 ≠ 3 → bitsOf v.toNat 2 0 ≠ mFine ∨ bitsOf v.toNat 5 4 = 0 →
    bitsOf v.toNat 9 9 = 1 ∨ (midSpan s.dev = false ∧ (bitsOf v.toNat 2 0 ≠ s.dev.mode ∨
      (bitsOf v.toNat 5 4 ≠ s.dev.arr ∧ s.dev.mode ≠ mSentry ∧ s.dev.mode ≠ mCount))) →
    Runs (.modeRequest ⟨v, none⟩) s fun e => e.phase = 1 ∧ e.armed = false ∧ e.mode = s.dev.mode ∧ e.arr = s.dev.arr ∧
      e.get F.GLB_MODE_STATUS_TGT_MODE = bitsOf v.toNat 2 0 ∧ e.get F.GLB_MODE_STATUS_TGT_ARR = bitsOf v.toNat 5 4 ∧
      e.rd R.GLB_MODE = v &&& 0x337#32) ∧
  (∀ (s : State) (v : Word), s.dev.Up → s.dev.get F.GLB_STATUS_READY = 1 → s.dev.phase = 0 → s.dev.cfg F.STAG_SL_CTRL_EN = 1 →
    bitsOf v.toNat 5 4 ≠ 3 → bitsOf v.toNat 2 0 ≠ mFine ∨ bitsOf v.toNat 5 4 = 0 → bitsOf v.toNat 2 0 = s.dev.mode →
    bitsOf v.toNat 5 4 = s.dev.arr → bitsOf v.toNat 9 9 = 0 →
    Runs (.modeRequest ⟨v, none⟩) s fun e => e.phase = 0 ∧ e.armed = s.dev.armed ∧ e.mode = s.dev.mode ∧ e.arr = s.dev.arr ∧
      e.get F.GLB_MODE_STATUS_LAST_CODE = 0 ∧ e.cap = s.dev.cap ∧ e.fox = s.dev.fox ∧ e.mem = s.dev.mem ∧
      Says .q evModeDone 0 (e.rd R.GLB_MODE_STATUS).toNat none s.dev e) ∧
  (∀ (s : State) (v : Word), s.dev.Up → s.dev.get F.GLB_STATUS_READY = 1 → s.dev.phase = 1 → s.dev.cfg F.STAG_SL_CTRL_EN = 1 →
    bitsOf v.toNat 5 4 ≠ 3 → bitsOf v.toNat 2 0 ≠ mFine ∨ bitsOf v.toNat 5 4 = 0 →
    Runs (.modeRequest ⟨v, none⟩) s fun e => e.phase = 1 ∧ e.mode = s.dev.mode ∧ e.arr = s.dev.arr ∧
      e.get F.GLB_MODE_STATUS_TGT_MODE = bitsOf v.toNat 2 0 ∧ e.get F.GLB_MODE_STATUS_TGT_ARR = bitsOf v.toNat 5 4 ∧
      e.get F.GLB_MODE_STATUS_LAST_CODE = 0x14 ∧ e.rd R.GLB_MODE = v &&& 0x337#32) ∧
  (∀ (s u : State) (v : Word) (n : Fin 8) (b : Fin 22), s.dev.Up → (s.dev.ctx n).busy = .idle → exec (.postedWriteDone n b) s = .next u →
    exec (.modeRequest ⟨v, some (n, b)⟩) s = exec (.modeRequest ⟨v, none⟩) u))

/-- R53, R65, R66: with every unit that leaves service OFF, no unit of CAP open nor a post-trigger count running on, FOX disarmed
and no span of vectors in progress, the drain ends: the module enters SWITCHING, or WAIT_CLOCK when the target converts and the
sample loop is not locked; with a unit that is not OFF, or an open unit of CAP, it goes on. WAIT_CLOCK is left for SWITCHING when
the loop has locked, and not before. Nothing else changes. R51, R54: at the end of SWITCHING the module is in the target mode and
arrangement and STABLE, the trim registers address the target's set (R79), and the armed state and memory stay; at a wake, which is
no request, no EV_MODE_DONE is posted and LAST_CODE reads OK (the model's choice, log 153). R62, Table 2.8: a unit that has drained,
or aborted, is OFF, and memory stays: a LYNX input with no measurement in progress keeps its queue; a decoder between frames, a
pipe, STK with no fold in progress, a pulse unit that is idle. A unit that is not DRAINING does not end a drain, nor one that is not
ABORTING an abort. -/
def Obligations.ModeChanges : Prop :=
  ((∀ s : State, s.dev.Up → s.dev.phase = 1 → (∀ u ∈ s.dev.mod.leaving, unitOff s.dev u = true) → s.dev.cap.unit = none → s.dev.cap.tail = none →
    midSpan s.dev = false → s.dev.fox.due = [] →
    Gives .drainEnd s (s.dev.put F.GLB_MODE_STATUS_PHASE
      (if s.dev.get F.GLB_MODE_STATUS_TGT_MODE ≤ mFine ∧ s.dev.get F.STAG_STATUS_SL_LOCK = 0 then 3 else 2))) ∧
  (∀ (s : State) (u : UnitId), s.dev.Up → s.dev.phase ≠ 1 ∨ (u ∈ s.dev.mod.leaving ∧ unitOff s.dev u = false) ∨ s.dev.cap.unit.isSome = true →
    Gives .drainEnd s s.dev) ∧
  (∀ s : State, s.dev.Up → s.dev.phase = 3 → s.dev.get F.STAG_STATUS_SL_LOCK = 1 →
    Gives .waitClockLock s (s.dev.put F.GLB_MODE_STATUS_PHASE 2)) ∧
  (∀ s : State, s.dev.Up → s.dev.phase ≠ 3 ∨ s.dev.get F.STAG_STATUS_SL_LOCK = 0 → Gives .waitClockLock s s.dev)) ∧
  ((∀ s : State, s.dev.Up → s.dev.phase = 2 → s.dev.mod.wake = false → s.dev.mod.forCal = false → s.dev.cal.startup = false →
    s.dev.cfgc.withMode = [] → s.dev.get F.GLB_MODE_STATUS_TGT_ARR ≤ 2 →
    Runs .switchDone s fun e => e.phase = 0 ∧ e.mode = s.dev.get F.GLB_MODE_STATUS_TGT_MODE ∧
      e.arr = s.dev.get F.GLB_MODE_STATUS_TGT_ARR ∧ e.get F.GLB_MODE_STATUS_LAST_CODE = 0 ∧ e.armed = s.dev.armed ∧
      e.conv.addressed.val = s.dev.get F.GLB_MODE_STATUS_TGT_ARR ∧ e.mod.leaving = [] ∧ e.mem = s.dev.mem) ∧
  (∀ s : State, s.dev.Up → s.dev.phase = 2 → s.dev.mod.wake = true → s.dev.get F.GLB_MODE_WAKE_ARM = 0 → s.dev.cfgc.withMode = [] →
    s.dev.get F.GLB_MODE_STATUS_TGT_ARR ≤ 2 →
    Runs .wakeSwitch s fun e => e.phase = 0 ∧ e.mode = s.dev.get F.GLB_MODE_STATUS_TGT_MODE ∧
      e.arr = s.dev.get F.GLB_MODE_STATUS_TGT_ARR ∧ e.get F.GLB_MODE_STATUS_LAST_CODE = 0 ∧ e.armed = s.dev.armed ∧
      e.conv.addressed.val = s.dev.get F.GLB_MODE_STATUS_TGT_ARR ∧ e.mem = s.dev.mem) ∧
  (∀ s : State, s.dev.Up → s.dev.phase ≠ 2 → Gives .switchDone s s.dev ∧ Gives .wakeSwitch s s.dev)) ∧
  ((∀ (s : State) (n : Fin 8), s.dev.Up → s.dev.unitState (.lynx n) = stDraining → (s.dev.lynx.get n).measuring = false →
    Runs (.unitDrainDone (.lynx n)) s fun e => e.unitState (.lynx n) = stOff ∧ (e.lynx.get n).queue = (s.dev.lynx.get n).queue ∧
      RegsOutside (R.LYNX_n_STATUS n :: (lynxUses s.dev n).map (fun m => R.LYNX_n_STATUS m.val)) s.dev e ∧ e.mem = s.dev.mem) ∧
  (∀ (s : State) (p : Fin 4), s.dev.Up → s.dev.unitState (.red p) = stDraining →
    Runs (.unitDrainDone (.red p)) s fun e => e.unitState (.red p) = stOff ∧ (e.red.get p).running = false ∧ e.mem = s.dev.mem) ∧
  (∀ (s : State) (p : Fin 4), s.dev.Up → s.dev.unitState (.sdec p) = stDraining → sdecInFrame s.dev p = false → hasPart s.dev (.sdec p) = false →
    Runs (.unitDrainDone (.sdec p)) s fun e => e.unitState (.sdec p) = stOff ∧ e.mem = s.dev.mem) ∧
  (∀ (s : State) (p : Fin 4), s.dev.Up → s.dev.unitState (.pulse p) = stDraining → (s.dev.pulse.get p).active = false →
    hasPart s.dev (.pulse p) = false →
    Runs (.unitDrainDone (.pulse p)) s fun e => e.unitState (.pulse p) = stOff ∧ e.mem = s.dev.mem) ∧
  (∀ s : State, s.dev.Up → s.dev.unitState .stk = stDraining → s.dev.stk.fold = none →
    Runs (.unitDrainDone .stk) s fun e => e.unitState .stk = stOff ∧ e.mem = s.dev.mem) ∧
  (∀ (s : State) (p : Fin 4), s.dev.Up → s.dev.unitState (.red p) = stAborting →
    Gives (.unitAbortDone (.red p)) s (s.dev.put (F.RED_p_STATUS_STATE p) stOff)) ∧
  (∀ s : State, s.dev.Up → s.dev.get F.CAP_STATUS_STATE = stAborting →
    Gives (.unitAbortDone .cap) s (s.dev.put F.CAP_STATUS_STATE stOff)) ∧
  (∀ (s : State) (n : Fin 8) (p : Fin 4), s.dev.Up → hasPart s.dev (.sdec p) = false → hasPart s.dev (.pulse p) = false →
    ∀ u ∈ [UnitId.sdec p, .pulse p, .lynx n, .stk], s.dev.unitState u = stAborting →
    Runs (.unitAbortDone u) s fun e => e.unitState u = stOff ∧ e.mem = s.dev.mem) ∧
  (∀ (s : State) (u : UnitId), s.dev.Up → s.dev.unitState u ≠ stDraining → Gives (.unitDrainDone u) s s.dev) ∧
  (∀ (s : State) (u : UnitId), s.dev.Up → s.dev.unitState u ≠ stAborting → Gives (.unitAbortDone u) s s.dev))

/-- R84 to R87: with 2^WIN conversions in, and proposals that are each input's full set and keep its means, an estimation window
ends: ILV shows the quality and counts the window for the banks of every input, publishes the proposals of the inputs whose quality
reaches QUAL_MIN, keeps them for the next application point when APPLY is set, and puts nothing into effect. R90, R91: once the
spare has shadowed a slot for one window its trims for that slot are written and SHADOW_READY is set; nothing takes effect before
the swap. Before that, or while OWL has the spare, the shadow goes on. -/
def Obligations.Interleaving : Prop :=
  ((∀ (s : State) (quals : List Nat) (leaks : List SubLeak) (props : List TrimProp), s.dev.Up → estimating s.dev = true →
    2 ^ s.dev.cfg F.ILV_CTRL_WIN ≤ s.dev.conv.window → windowOk quals props s.dev = true → (props.map (fun p => (p.bank, p.sub))).Nodup →
    Runs (.estWindowEnd quals leaks props) s fun e => e.eff = s.dev.eff ∧ e.mem = s.dev.mem ∧
      e.conv.window = s.dev.conv.window - 2 ^ s.dev.cfg F.ILV_CTRL_WIN ∧
      (∀ inp ∈ sampledInputs s.dev.arr, ∀ b ∈ banksOf s.dev.arr inp, e.get (F.ILV_b_EST_QUAL b) = min 255 (quals.getD inp 0) ∧
        e.get (F.ILV_b_EST_WINDOWS b) = (s.dev.get (F.ILV_b_EST_WINDOWS b) + 1) % 65536 ∧
        ∀ p ∈ props, p.bank.val = b → s.dev.cfg F.ILV_CTRL_QUAL_MIN ≤ min 255 (quals.getD inp 0) →
          e.rd (R.ILV_b_PROPA b p.sub) = propWordA (clampProp p).1 ∧ e.rd (R.ILV_b_PROPB b p.sub) = propWordB (clampProp p).1 ∧
          (s.dev.cfg F.ILV_CTRL_APPLY = 1 → (clampProp p).1 ∈ e.conv.proposals)) ∧
      (s.dev.cfg F.ILV_CTRL_APPLY = 0 → e.conv.proposals = s.dev.conv.proposals)) ∧
  (∀ (s : State) (quals : List Nat) (leaks : List SubLeak) (props : List TrimProp), s.dev.Up →
    estimating s.dev = false ∨ s.dev.conv.window < 2 ^ s.dev.cfg F.ILV_CTRL_WIN → Gives (.estWindowEnd quals leaks props) s s.dev)) ∧
  ((∀ (s : State) (b : Fin 4) (slot n : Nat) (x y : Word), s.dev.Up → s.dev.conv.shadow.get b = some (slot, n) →
    2 ^ s.dev.cfg F.ILV_CTRL_WIN ≤ n → s.dev.owlSvc.get b = none →
    Runs (.shadowEnd b x y) s fun e => e.get (F.ILV_b_SPARE_SHADOW_READY b) = 1 ∧ e.conv.shadow.get b = none ∧
      e.rd (setKey s.dev.arr (R.CONV_b_TRIMA b 32)) = x ∧ e.rd (setKey s.dev.arr (R.CONV_b_TRIMB b 32)) = y ∧
      e.rd (R.ILV_b_PROPA b 32) = x ∧ e.rd (R.ILV_b_PROPB b 32) = y ∧ e.eff = s.dev.eff ∧ e.mem = s.dev.mem) ∧
  (∀ (s : State) (b : Fin 4) (slot n : Nat) (x y : Word), s.dev.Up → s.dev.conv.shadow.get b = some (slot, n) →
    n < 2 ^ s.dev.cfg F.ILV_CTRL_WIN ∨ (s.dev.owlSvc.get b).isSome = true → Gives (.shadowEnd b x y) s s.dev))

/-- R155, R247: at a tick the count advances by one tick, and AQS takes the new count and the Q cycles that passed. R110: with FOX
disarmed and nothing open, a changed N within 200 ppm is taken under lock, and EV_SL_RETUNED carries it. -/
def Obligations.TickAndDivider : Prop :=
  (∀ (s : State) (q : Nat) (sdi : Vector (BitVec 16) 8) (cdr : List CdrBit), s.dev.Up → s.dev.stag.counting = true → s.dev.stag.starting = false →
    s.dev.stag.load = none → s.dev.mode = mSentry → s.dev.armed = false →
    Runs (.tickStrobe q sdi cdr) s fun e => e.stag.now = s.dev.stag.now + 0x100000000#96 ∧ e.sdi = sdi ∧
      e.aqs.cycle = s.dev.aqs.cycle + BitVec.ofNat 64 q ∧ e.aqs.tick = (e.stag.now >>> 32).setWidth 64) ∧
  (∀ (s : State) (v : Word) (seq : Nat), s.dev.Up → s.dev.armed = false → capOpen s.dev = false → s.dev.cfgc.parts = [⟨.stagSl, R.STAG_SL_DIV, v⟩] →
    s.dev.cfgc.waits = [⟨seq, [.stagSl], false⟩] → s.dev.cfg F.STAG_SL_CTRL_EN = 1 → s.dev.get F.STAG_STATUS_SL_LOCK = 1 →
    divN v ≠ divN (s.dev.ef R.STAG_SL_DIV) →
    ((divN v : Int) - divN (s.dev.ef R.STAG_SL_DIV)).natAbs * 5000 ≤ divN (s.dev.ef R.STAG_SL_DIV) →
    Runs .slDivApply s fun e => e.ef R.STAG_SL_DIV = v ∧ e.get F.STAG_STATUS_SL_PENDING = 0 ∧ e.get F.STAG_STATUS_SL_LOCK = 1 ∧
      e.cfgc.parts = [] ∧ (e.crossings.get Island.t).fifo.length + (e.crossings.get Island.t).held.length =
        (s.dev.crossings.get Island.t).fifo.length + (s.dev.crossings.get Island.t).held.length + 1 ∧ e.stag.now = s.dev.stag.now ∧ e.mem = s.dev.mem)

/-- R101: REFIN is declared present, or absent with REF_LOSS set and EV_REF_LOSS posted with the time of the loss; nothing else
changes. R103: losing the source in use, the timebase enters holdover with no step: the count stays and a slew in progress ends.
R104 to R106: with automatic choice REFIN is taken from holdover. The jump, reduced to the ambiguity period, is in STAG_JUMP; under
SNAP it waits for its step tick, under SLEW it is the remainder of a slew. The count itself does not change. R105: a slew whose
remainder is within ±1 ps ends with EV_TB_SLEW_DONE. -/
def Obligations.ReferenceChanges : Prop :=
  ((∀ s : State, s.dev.Up → Gives .refPresent s (s.dev.put F.STAG_STATUS_REF_OK 1)) ∧
  (∀ s : State, s.dev.Up → s.dev.get F.STAG_STATUS_REF_OK = 1 →
    Gives .refLoss s (((s.dev.put F.STAG_STATUS_REF_OK 0).put F.STAG_STATUS_REF_LOSS 1).post .t evRefLoss 0 0 (some s.dev.stag.now)))) ∧
  (∀ s : State, s.dev.Up → s.dev.get F.STAG_STATUS_TB_SRC = 1 → s.dev.get F.STAG_STATUS_REF_OK = 0 →
    Runs .holdoverEntry s fun e => e.get F.STAG_STATUS_TB_SRC = 3 ∧ e.get F.STAG_STATUS_SLEWING = 0 ∧ e.rd64 R.STAG_PHASE_ERR_LO = 0 ∧
      RegsOutside [R.STAG_STATUS, R.STAG_PHASE_ERR_LO, R.STAG_PHASE_ERR_LO + 4] s.dev e ∧
      e = { s.dev with regs := e.regs, stag := { s.dev.stag with slewRem := 0 } }) ∧
  (∀ (s : State) (j : Int), s.dev.Up → s.dev.cfg F.STAG_TB_CTRL_SRC = 0 → s.dev.get F.STAG_STATUS_REF_OK = 1 →
    s.dev.get F.STAG_STATUS_TB_SRC = 3 → s.dev.stag.counting = true →
    Runs (.refReturn j) s fun e => e.get F.STAG_STATUS_TB_SRC = 1 ∧ e.stag.now = s.dev.stag.now ∧
      e.rd64 R.STAG_JUMP_LO = encodeSigned 64 (reduceJump s.dev 1 j) ∧
      (if s.dev.cfg F.STAG_TB_CTRL_POLICY = 0
       then e.stag.slewRem = reduceJump s.dev 1 j * 10 ^ 7 ∧ e.stag.snap = s.dev.stag.snap
       else e.stag.snap = some (reduceJump s.dev 1 j) ∧ e.stag.slewRem = 0)) ∧
  (∀ s : State, s.dev.Up → s.dev.get F.STAG_STATUS_SLEWING = 1 → s.dev.stag.slewRem.natAbs ≤ onePs * 10 ^ 7 →
    Gives .slewDone s ((s.dev.put F.STAG_STATUS_SLEWING 0).post .t evSlewDone 0 0))

/-- R106, R108: a step moves the tick count and the sample grid by the jump; a count load is taken while nothing captures, refused
under ring time with TB_LOAD_RING, and while armed with TB_LOAD_BUSY. -/
def Obligations.CountSteps : Prop :=
  (∀ (s : State) (j : Int), s.dev.Up → s.dev.stag.snap = some j →
    Runs .snapStep s fun e => e.stag.now = BitVec.ofInt 96 ((s.dev.stag.now.toNat : Int) + j) ∧ e.stag.origin = s.dev.stag.origin + j ∧
      e.stag.snap = none ∧ Says .t evTbStep 0 (encodeSigned 64 j) (some e.stag.now) s.dev e) ∧
  (∀ (s : State) (c : Word64), s.dev.Up → s.dev.get F.STAG_STATUS_TB_SRC ≠ 2 → s.dev.armed = false → capOpen s.dev = false →
    Gives (.tbLoad c) s { s.dev with stag := { s.dev.stag with load := some c } }) ∧
  (∀ (s : State) (c : Word64), s.dev.Up → s.dev.get F.STAG_STATUS_TB_SRC = 2 →
    Gives (.tbLoad c) s (s.dev.put F.STAG_STATUS_LAST_CODE 0x0403)) ∧
  (∀ (s : State) (c : Word64), s.dev.Up → s.dev.get F.STAG_STATUS_TB_SRC ≠ 2 → s.dev.armed = true →
    Gives (.tbLoad c) s (s.dev.put F.STAG_STATUS_LAST_CODE 0x0402))

/-- R113, R114, R116: a loss of lock clears SL_LOCK, sets ON_BYCLK and counts, and leaves the tick count; with AUTO_RELOCK a search
begins; its end sets SL_LOCK and BAND, clears ON_BYCLK and posts EV_SL_LOCK; a search that finds no band sets SL_BAND_FAIL. R102,
R117, R521: the timebase locks to a present REFIN; a failed loop reads as holdover, not locked, and keeps the count; REFIN's offset
is shown. -/
def Obligations.ClockLoops : Prop :=
  ((∀ s : State, s.dev.Up → s.dev.get F.STAG_STATUS_SL_LOCK = 1 → s.dev.cap.unit = none → s.dev.cal.proc = none →
    Runs .slUnlock s fun e => e.get F.STAG_STATUS_SL_LOCK = 0 ∧ e.get F.STAG_STATUS_ON_BYCLK = 1 ∧
      (e.rd R.STAG_UNLOCK_CNT).toNat = min ((s.dev.rd R.STAG_UNLOCK_CNT).toNat + 1) 0xFFFFFFFF ∧ e.stag.now = s.dev.stag.now ∧
      e.stag.lost = true ∧ e.mem = s.dev.mem) ∧
  (∀ s : State, s.dev.Up → s.dev.cfg F.STAG_SL_CTRL_EN = 1 → s.dev.get F.STAG_STATUS_SL_LOCK = 0 → s.dev.cfg F.STAG_SL_CTRL_AUTO_RELOCK = 1 →
    Gives .slSearchStart s { s.dev with stag := { s.dev.stag with searching := true } }) ∧
  (∀ (s : State) (b : BitVec 6), s.dev.Up → s.dev.stag.searching = true → s.dev.cfg F.STAG_SL_CTRL_EN = 1 → s.dev.get F.GLB_STATUS_READY = 1 →
    s.dev.get F.PWR_STATUS_PHASE = 8 →
    Runs (.slLock b) s fun e => e.get F.STAG_STATUS_SL_LOCK = 1 ∧ e.get F.STAG_STATUS_ON_BYCLK = 0 ∧ e.get F.STAG_STATUS_BAND = b.toNat ∧
      e.stag.searching = false ∧ Says .t evSlLock 0 b.toNat none s.dev e) ∧
  (∀ s : State, s.dev.Up → s.dev.stag.searching = true → s.dev.cfg F.STAG_SL_CTRL_EN = 1 →
    Gives .slBandFail s (s.dev.put F.STAG_STATUS_LAST_CODE 0x0401))) ∧
  ((∀ s : State, s.dev.Up → s.dev.cfg F.STAG_TB_CTRL_SRC = 0 → s.dev.get F.STAG_STATUS_REF_OK = 1 → s.dev.stag.counting = false →
    s.dev.get F.GLB_STATUS_READY = 1 → s.dev.get F.PWR_STATUS_PHASE = 8 →
    Runs .timebaseLock s fun e => e.get F.STAG_STATUS_TB_LOCK = 1 ∧ e.get F.STAG_STATUS_TB_SRC = 1 ∧ e.stag.starting = true) ∧
  (∀ s : State, s.dev.Up →
    Runs .tbLoopFail s fun e => e.get F.STAG_STATUS_TB_LOCK = 0 ∧ e.get F.STAG_STATUS_TB_SRC = 3 ∧ e.stag.now = s.dev.stag.now) ∧
  (∀ (s : State) (v : Word), s.dev.Up → s.dev.get F.STAG_STATUS_REF_OK = 1 → Gives (.refOffsetMeas v) s (s.dev.wr R.STAG_REF_OFFSET v)))

/-- R141: ARM arms FOX, and refuses with ARM_BUSY before the start-up calibration and with NO_SOURCE without a usable source; DISARM
disarms and clears holdoff and the pending software trigger; each leaves the current mode. R522: within a span of vectors a request
waits for the span's end, in the order of the requests (the model's reading, log 150). -/
def Obligations.ArmAndDisarm : Prop :=
  (∀ s : State, s.dev.Up → s.dev.Between → s.dev.phase = 0 → s.dev.mode ≠ mCalibrate → s.dev.get F.PWR_STATUS_READY = 1 →
    srcEnabled s.dev 1 = true → mainUnsampled s.dev = false → s.dev.armed = false →
    Runs .foxArmArm s fun e => e.armed = true ∧ e.get F.GLB_MODE_STATUS_ARMED = 1 ∧ e.get F.FOX_STATUS_HOLDOFF = 0 ∧
      e.get F.FOX_STATUS_FORCE_PENDING = 0 ∧ e.mode = s.dev.mode ∧ e.phase = 0) ∧
  (∀ s : State, s.dev.Up → s.dev.Between → s.dev.get F.PWR_STATUS_READY = 0 → s.dev.armed = false →
    Gives .foxArmArm s (s.dev.put F.FOX_STATUS_LAST_CODE 0x0703)) ∧
  (∀ s : State, s.dev.Up → s.dev.Between → s.dev.phase = 0 → s.dev.mode ≠ mCalibrate → s.dev.get F.PWR_STATUS_READY = 1 →
    s.dev.cfg F.FOX_CTRL_SRC_EN = 0 → s.dev.armed = false → Gives .foxArmArm s (s.dev.put F.FOX_STATUS_LAST_CODE 0x0704)) ∧
  (∀ s : State, s.dev.Up → s.dev.Between → s.dev.armed = true →
    Runs .foxArmDisarm s fun e => e.armed = false ∧ e.get F.GLB_MODE_STATUS_ARMED = 0 ∧ e.get F.FOX_STATUS_HOLDOFF = 0 ∧
      e.get F.FOX_STATUS_FORCE_PENDING = 0 ∧ e.fox.holdUntil = none ∧ e.mode = s.dev.mode) ∧
  (∀ s : State, s.dev.Up → midSpan s.dev = true →
    Gives .foxArmArm s { s.dev with fox := { s.dev.fox with due := s.dev.fox.due ++ [.arm] } } ∧
    Gives .foxArmDisarm s { s.dev with fox := { s.dev.fox with due := s.dev.fox.due ++ [.disarm] } } ∧
    Gives .foxArmForce s { s.dev with fox := { s.dev.fox with due := s.dev.fox.due ++ [.force] } })

/-- R140: a FORCE while disarmed sets FORCE_DISARMED and does nothing else; while armed, where vectors come, it joins the next
vector; a second one before that is missed. A FORCE held through the busy interval is released to the next vector. R51: a trigger
accepted in armed SENTRY disarms FOX, asks for SINGLE in the arrangement of GLB_MODE, and switches; one accepted while a mode
request is pending disarms FOX and leaves the request. -/
def Obligations.SoftwareTriggers : Prop :=
  ((∀ s : State, s.dev.Up → s.dev.Between → s.dev.armed = false → Gives .foxArmForce s (s.dev.put F.FOX_STATUS_LAST_CODE 0x0705)) ∧
  (∀ s : State, s.dev.Up → s.dev.Between → s.dev.armed = true → s.dev.mode ≠ mCount → s.dev.stag.lost = false →
    s.dev.fox.swNow = false → s.dev.get F.FOX_STATUS_FORCE_PENDING = 0 →
    Gives .foxArmForce s { s.dev with fox := { s.dev.fox with swNow := true } }) ∧
  (∀ s : State, s.dev.Up → s.dev.Between → s.dev.armed = true → s.dev.fox.swNow = true →
    Runs .foxArmForce s fun e => (e.rd R.FOX_MISSED_CNT).toNat = min ((s.dev.rd R.FOX_MISSED_CNT).toNat + 1) 0xFFFFFFFF ∧
      RegsOutside [R.FOX_MISSED_CNT] s.dev e ∧ e.cap = s.dev.cap ∧ e.mem = s.dev.mem) ∧
  (∀ s : State, s.dev.Up → s.dev.armed = true → s.dev.get F.FOX_STATUS_FORCE_PENDING = 1 →
    inBusy s.dev (s.dev.fox.vecK + 256 * foxStride s.dev) = false →
    Gives .swPendingTaken s ({ s.dev with fox := { s.dev.fox with swNow := true } }.put F.FOX_STATUS_FORCE_PENDING 0))) ∧
  ((∀ (d : Dev) (c : Cand), d.armed = true → d.mode = mSentry → d.phase = 0 → d.stag.lost = false →
    let e := takeCand d c
    e.phase = 2 ∧ e.mode = mSentry ∧ e.armed = false ∧ e.get F.GLB_MODE_STATUS_TGT_MODE = mSingle ∧
      e.get F.GLB_MODE_STATUS_TGT_ARR = (if d.get F.GLB_MODE_ARR = 3 then d.arr else d.get F.GLB_MODE_ARR) ∧
      e.get F.GLB_MODE_MODE = mSingle ∧ e.get F.GLB_MODE_WAKE_ARM = d.get F.GLB_MODE_WAKE_ARM ∧ e.mod.wake = true ∧
      e.mod.wakeTS = BitVec.ofNat 96 c.at'.ts ∧ e.cap = d.cap ∧ e.mem = d.mem) ∧
  (∀ (d : Dev) (c : Cand), d.armed = true → d.mode = mSentry → d.phase ≠ 0 → d.stag.lost = false →
    let e := takeCand d c
    e.phase = d.phase ∧ e.armed = false ∧ e.mod = d.mod ∧ e.rd R.GLB_MODE = d.rd R.GLB_MODE ∧ e.cap = d.cap ∧ e.mem = d.mem))

/-- R131, R132, R144: time holdoff, the busy interval and a sequence's window end. R147, R150: a planned edge opens an active period
that ends with it; one that would fall less than 1.6 ns after the end extends the period and is counted. R148, Table 5.5: at N = 64
with the sample loop locked, FOX_TRIGOUT_MIN is 20.8 ns for EXTTRIG alone in every capture mode, and 24.0 ns for SW alone in QUAD,
in units of 12.5 ps. -/
def Obligations.TriggerIntervals : Prop :=
  ((∀ (s : State) (t : Nat), s.dev.Up → s.dev.fox.holdUntil = some t → t ≤ s.dev.stag.now.toNat →
    Gives .holdoffEnd s (s.dev.put F.FOX_STATUS_HOLDOFF 0)) ∧
  (∀ (s : State) (k : Int), s.dev.Up → s.dev.fox.busyEnd = some k → k ≤ s.dev.fox.vecK + 256 * foxStride s.dev → s.dev.cap.unit = none →
    s.dev.cap.full = false →
    Gives .busyEnd s ({ s.dev with fox := { s.dev.fox with busy := false, busyEnd := none } }.put F.FOX_STATUS_BUSY 0)) ∧
  (∀ (s : State) (t : Nat), s.dev.Up → s.dev.fox.seqAt = some t → s.dev.cf64 R.FOX_SEQ_WIN_LO % 2 ^ 48 ≠ 0 →
    t + s.dev.cf64 R.FOX_SEQ_WIN_LO % 2 ^ 48 * 2 ^ 32 < min s.dev.stag.now.toNat (s.dev.sampleTS (foxIndex s.dev 255)).toNat →
    Gives .seqWindowExpire s ({ s.dev with fox := { s.dev.fox with seqAt := none, seqCount := 0 } }.put F.FOX_STATUS_SEQ_OPEN 0))) ∧
  ((∀ (s : State) (x fin : Nat) (rest : List (Nat × Nat)), s.dev.Up → s.dev.fox.trigout.edges = (x, fin) :: rest →
    s.dev.fox.trigout.active = false → s.dev.fox.trigout.endAt = 0 →
    Gives .trigoutEdge s { s.dev with fox := { s.dev.fox with
      trigout := { s.dev.fox.trigout with edges := rest, active := true, endAt := fin } } }) ∧
  (∀ (s : State) (x fin : Nat) (rest : List (Nat × Nat)), s.dev.Up → s.dev.fox.trigout.edges = (x, fin) :: rest →
    s.dev.fox.trigout.active = true → s.dev.fox.trigout.endAt ≠ 0 → x < s.dev.fox.trigout.endAt + 2 ^ 31 →
    Runs .trigoutEdge s fun e => e.fox.trigout.active = true ∧ e.fox.trigout.edges = rest ∧
      e.fox.trigout.endAt = max s.dev.fox.trigout.endAt fin ∧
      (e.rd R.FOX_MERGED_CNT).toNat = min ((s.dev.rd R.FOX_MERGED_CNT).toNat + 1) 0xFFFFFFFF ∧ RegsOutside [R.FOX_MERGED_CNT] s.dev e) ∧
  (∀ s : State, s.dev.Up → s.dev.fox.trigout.active = true → s.dev.fox.trigout.edges = [] →
    Runs .trigoutActiveEnd s fun e => e.fox.trigout.active = false ∧ e.fox.trigout.cfg = s.dev.ef R.FOX_TRIGOUT ∧ e.regs = s.dev.regs ∧
      e.crossings = s.dev.crossings)) ∧
  ((∀ s : State, s.dev.Up → s.dev.ef R.STAG_SL_DIV = 0x40000000#32 → isCapture s.dev.mode = true → s.dev.get F.STAG_STATUS_ON_BYCLK = 0 →
    s.dev.cfg F.FOX_CTRL_SRC_EN = 2 → Runs .trigoutMinRecompute s fun e => e.get F.FOX_TRIGOUT_MIN_MIN = 1664 ∧ e.fox = s.dev.fox) ∧
  (∀ s : State, s.dev.Up → s.dev.ef R.STAG_SL_DIV = 0x40000000#32 → isCapture s.dev.mode = true → s.dev.get F.STAG_STATUS_ON_BYCLK = 0 →
    s.dev.arr = 0 → s.dev.cfg F.FOX_CTRL_SRC_EN = 16 →
    Runs .trigoutMinRecompute s fun e => e.get F.FOX_TRIGOUT_MIN_MIN = 1920 ∧ e.fox = s.dev.fox))

/-- R18, R69, R70, R522: a vector that is due is delivered with overranged samples clipped, and the input's next vector is the one
that follows it; with no overranged sample nothing is counted and OVR_NOW reads 0 for the input's banks. R159: a recovered clock
locks for a decoder that decodes such a line; its loss clears CDR_LOCK and SYNC. -/
def Obligations.VectorsAndLines : Prop :=
  (∀ (s : State) (inp : Fin 4) (k0 : Int) (xs : List Sample) (ahead : List (BitVec 10)) (cdr : List CdrBit), s.dev.Up → vectorDue inp k0 xs.length s.dev = true →
    s.dev.armed = false → trimsWaiting s.dev = false →
    s.dev.fox.vec.get inp = [] ∨ (s.dev.fox.vec.get inp).length = 264 →
    Runs (.vectorDelivered inp k0 xs ahead cdr) s fun e =>
      e.conv.next.get inp = some (k0 + 256 * foxStride s.dev) ∧ (∀ i, i ≠ inp → e.conv.next.get i = s.dev.conv.next.get i) ∧
      ((e.fox.vec.get inp).drop 4).take 256 = (xs.map clipSample).map (·.code.toInt) ∧ e.armed = false ∧
      ((∀ x ∈ xs, x.ovr = false) → ∀ b ∈ banksOf (if s.dev.mode = mSentry then 0 else s.dev.arr) inp,
        e.get (F.CONV_b_STATUS_OVR_NOW b) = 0 ∧ e.rd (R.CONV_b_OVR_CNT b) = s.dev.rd (R.CONV_b_OVR_CNT b))) ∧
  ((∀ (s : State) (n : Fin 4), s.dev.Up → 4 ≤ sdecProto s.dev n → sdecDecodes s.dev n = true →
    Gives (.cdrLock n) s (s.dev.put (F.SDEC_d_STATUS_CDR_LOCK n) 1)) ∧
  (∀ (s : State) (n : Fin 4), s.dev.Up → s.dev.get (F.SDEC_d_STATUS_CDR_LOCK n) = 1 →
    Runs (.cdrLost n) s fun e => e.get (F.SDEC_d_STATUS_CDR_LOCK n) = 0 ∧ e.get (F.SDEC_d_STATUS_SYNC n) = 0 ∧
      e.get (F.SDEC_d_STATUS_LAST_CODE n) = 0x0804 ∧ RegsOutside [R.SDEC_d_STATUS n] s.dev e ∧
      (s.dev.get (F.SDEC_d_STATUS_SYNC n) = 1 → Says .c evSdecSync n.val 0 none s.dev e)))

/-- R157, R163: from its start edge a UART character is found bit by bit, first received bit lowest; with right parity and stop bits
it ends a frame, and with a wrong parity bit CHAR has completed before PARITY is reported. R160: a data byte's 8b/10b group, at
either disparity, decodes to that byte in that disparity's column; the 64b/66b descrambler holds after one payload what the
payload's bits give, whatever it held before. R161, R162, R164: a completed field is shown in LAST_FIELD; one that matches is
counted once and, with the decoder selected, becomes one SERIAL candidate; EQ and IN_RANGE compare under the mask. -/
def Obligations.SerialFields : Prop :=
  (∀ (c : RxCfg) (v t since : Nat) (p : Bool), 5 ≤ c.dataBits → c.dataBits ≤ 9 → c.parity ≤ 2 → 1 ≤ c.stops → c.stops ≤ 2 → v < 2 ^ c.dataBits →
    let data := (List.range c.dataBits).map fun i => decide (v / 2 ^ i % 2 = 1)
    let good := c.parity = 0 ∨ ((data.filter id).length + p.toNat) % 2 = (c.parity + 1) % 2
    let r := ([false] ++ data ++ (if c.parity = 0 then [] else [p]) ++ List.replicate c.stops true).foldl
      (fun (s : UartRx × List SdecItem) b => ((uartBit c b s.1).1, s.2 ++ (uartBit c b s.1).2)) ({ since := since, start := some t }, [])
    (good → r = ({ since := since, ready := true }, [.char v, .frameEnd])) ∧ (¬ good → r.2 = [.char v, .error 1])) ∧
  (∀ (v : Nat) (rd : Bool), v < 256 → decodeGroup (dataGroup v rd) rd = some v) ∧
  (∀ (c : RxCfg) (x y : BlkRx) (l : List Bool), x.n = 2 → y.n = 2 → l.length = 64 →
    (l.foldl (fun s b => (blkBit c b s).1) x).hist = (l.foldl (fun s b => (blkBit c b s).1) y).hist) ∧
  (∀ (d : Dev) (n : Fin 4) (t : Instant) (x : Nat), (fieldLen (sdecProto d n) (sdecField d n)).isSome = true →
    (∀ j ∈ [0, 1, 2, 3], (fieldComplete n t x d).rd (R.SDEC_d_LAST_FIELD n j) = BitVec.ofNat 32 (x / 2 ^ (32 * j))) ∧
    RegsOutside [R.SDEC_d_LAST_FIELD n 0, R.SDEC_d_LAST_FIELD n 1, R.SDEC_d_LAST_FIELD n 2, R.SDEC_d_LAST_FIELD n 3, R.SDEC_d_MATCH_CNT n] d
      (fieldComplete n t x d) ∧
    ((fieldComplete n t x d).rd (R.SDEC_d_MATCH_CNT n)).toNat =
      (if sdecMatches d n x = true then min ((d.rd (R.SDEC_d_MATCH_CNT n)).toNat + 1) 0xFFFFFFFF else (d.rd (R.SDEC_d_MATCH_CNT n)).toNat) ∧
    (fieldComplete n t x d).fox.cands = (if sdecMatches d n x = true ∧ bitsOf (d.cfg F.FOX_SER_MATCH) n n = 1 ∧ bitsOf (d.cfg F.FOX_CTRL_SRC_EN) 2 2 = 1
      then d.fox.cands ++ [⟨srcSerial, t, false, decide (sdecClass d n = 0), if sdecClass d n = 0 then d.cfg (F.SDEC_d_CFG_LINE0 n) else 4⟩] else d.fox.cands)) ∧
  (∀ (d : Dev) (n : Fin 4) (x : BitVec 128),
    let m := BitVec.ofNat 128 (words128 d (R.SDEC_d_MASK n 0))
    let a := BitVec.ofNat 128 (words128 d (R.SDEC_d_VAL_A n 0))
    let b := BitVec.ofNat 128 (words128 d (R.SDEC_d_VAL_B n 0))
    (d.cfg (F.SDEC_d_MATCH_REL n) = 1 → (sdecMatches d n x.toNat = true ↔ x &&& m = a &&& m)) ∧
    (d.cfg (F.SDEC_d_MATCH_REL n) = 5 → (sdecMatches d n x.toNat = true ↔ a &&& m ≤ x &&& m ∧ x &&& m ≤ b &&& m)))

/-- R174, R176: a record whose post-trigger count is reached closes with all its samples and waits to move to DRAM; memory does not
change. A stream block that is full closes and the next one begins at the next sample (R193). R194, R196: host software's count of
finished blocks is kept, and a ring that no burst waits for is not blocked; CAP that dropped vectors resumes at the next span once 4
MiB are free. -/
def Obligations.CaptureUnits : Prop :=
  ((∀ (s : State) (u : CapUnit), s.dev.Up → s.dev.cap.unit = some u → u.kind = .record → u.mode = mSingle → u.hold = false → u.keep = true →
    u.need ≤ u.indexOf s.dev.cap.have → trimsWaiting s.dev = false →
    Runs .recordClose s fun e => e.cap.unit = none ∧ e.cap.records = s.dev.cap.records + 1 ∧ e.mem = s.dev.mem ∧
      ∃ w, e.cap.moving = s.dev.cap.moving ++ [w] ∧ w.closed = true ∧ w.samples = u.need ∧ w.lastGood = some (u.need - 1) ∧
        w.start = u.start ∧ w.bodyAddr = u.bodyAddr ∧ w.hdrAddr = u.hdrAddr ∧ w.lost = u.lost ∧ w.node = (s.dev.ef R.IFL_ADDR).toNat) ∧
  (∀ (s : State) (u : CapUnit), s.dev.Up → s.dev.cap.unit = some u → u.kind = .block → u.mode = mStream → s.dev.cap.mode = mStream →
    s.dev.cap.nextInputs = none → u.hold = false → u.keep = true → u.start + u.need ≤ s.dev.cap.have → trimsWaiting s.dev = false →
    Runs .streamBlockClose s fun e => e.mem = s.dev.mem ∧ e.cap.blocks = s.dev.cap.blocks + 1 ∧
      (∃ w, e.cap.moving = s.dev.cap.moving ++ [w] ∧ w.samples = u.need ∧ w.closed = true ∧ w.index = u.index) ∧
      ∃ v, e.cap.unit = some v ∧ v.kind = .block ∧ v.start = u.start + u.need ∧ v.index = s.dev.cap.blocks)) ∧
  ((∀ (s : State) (v : Word64), s.dev.Up →
    Runs (.capStreamRd v) s fun e => e.rd64 R.CAP_STREAM_RD_LO = v.toNat ∧ e.cap = s.dev.cap ∧ e.mem = s.dev.mem ∧
      RegsOutside [R.CAP_STREAM_RD_LO, R.CAP_STREAM_RD_LO + 4, R.CAP_STATUS] s.dev e ∧
      (s.dev.cap.moving = [] → s.dev.cap.unit = none → e.get F.CAP_STATUS_RING_BLOCKED = 0) ∧
      (s.dev.get F.CAP_STATUS_RING_BLOCKED = 0 → e.get F.CAP_STATUS_RING_BLOCKED = 0)) ∧
  (∀ s : State, s.dev.Up → s.dev.cap.full = true → keptBytes s.dev + 0x400000 ≤ 0x4000000 →
    Gives .overflowResume s { s.dev with cap := { s.dev.cap with resume := true } }) ∧
  (∀ s : State, s.dev.Up → 0x4000000 < keptBytes s.dev + 0x400000 → Gives .overflowResume s s.dev))

/-- R175: a body burst stores the next 64 bytes of the oldest moving unit, at its place, and nothing else; a full ring under STOP
holds it back (R194). R176, R189, R191: with its bursts accepted a record's header of 192 bytes is stored, ending in the CRC of what
stands before it, and then EV_REC_DONE is posted; a held record's header likewise (R178), and an ended acquisition's, with
EV_ACQ_DONE. Nothing else in memory changes. -/
def Obligations.CaptureStores : Prop :=
  ((∀ (s : State) (u : CapUnit) (us : List CapUnit), s.dev.Up → s.dev.cap.moving = u :: us → u.closed = true → ringHolds s.dev u = false →
    u.bursts ≠ 0 ∨ u.hdrAddr ∉ s.dev.cap.written → u.bursts < u.inputs.length * bodyBursts u.mode u.samples →
    Runs .bodyBurst s fun e =>
      e.loadBytes (u.bodyAddr + u.bursts % u.inputs.length * u.inStride + 64 * (u.bursts / u.inputs.length)) 64 =
        (List.range 16).flatMap (fun w => leBytes 4 (bodyWord s.dev u (u.bursts % u.inputs.length) (16 * (u.bursts / u.inputs.length) + w))) ∧
      MemoryOutside (u.bodyAddr + u.bursts % u.inputs.length * u.inStride + 64 * (u.bursts / u.inputs.length)) 64 s.dev e ∧
      e.cap = { s.dev.cap with moving := { u with bursts := u.bursts + 1 } :: us } ∧ RegsOutside [R.CAP_STATUS, R.CAP_SRAM_LEVEL, R.CAP_SRAM_HWM] s.dev e) ∧
  (∀ (s : State) (u : CapUnit) (us : List CapUnit), s.dev.Up → s.dev.cap.moving = u :: us → u.closed = true → ringHolds s.dev u = true →
    u.bursts < u.inputs.length * bodyBursts u.mode u.samples →
    Gives .bodyBurst s ((s.dev.put F.CAP_STATUS_RING_BLOCKED 1).put F.CAP_STATUS_LAST_CODE 0x0B03))) ∧
  ((∀ (s : State) (u : CapUnit) (us : List CapUnit), s.dev.Up → s.dev.cap.moving = u :: us → u.kind = .record → u.closed = true →
    u.inputs.length * bodyBursts u.mode u.samples ≤ u.bursts →
    Runs .headerWrite s fun e => e.cap.moving = us ∧ e.load u.hdrAddr 4 = 0x52434147 ∧
      e.load (u.hdrAddr + 188) 4 = (crc32 (e.loadBytes u.hdrAddr 188)).toNat ∧ e.load (u.hdrAddr + 8) 1 = 1 ∧
      MemoryOutside u.hdrAddr 192 s.dev e ∧ Says .c evRecDone 0 u.hdrAddr none s.dev e) ∧
  (∀ (s : State) (u : CapUnit) (us : List CapUnit), s.dev.Up → s.dev.cap.moving = [] → s.dev.cap.heads = u :: us → u.kind = .record →
    Runs .headerWrite s fun e => e.cap.heads = us ∧ e.load u.hdrAddr 4 = 0x52434147 ∧
      e.load (u.hdrAddr + 188) 4 = (crc32 (e.loadBytes u.hdrAddr 188)).toNat ∧ e.load (u.hdrAddr + 8) 1 = 1 ∧
      MemoryOutside u.hdrAddr 192 s.dev e ∧ Says .c evRecDone 0 u.hdrAddr none s.dev e) ∧
  (∀ (s : State) (a : AcqAcc) (rest : List AcqAcc), s.dev.Up → s.dev.cap.ended = a :: rest → a.segments = 0 → a.hdrOk = true →
    (∀ u ∈ s.dev.cap.moving ++ s.dev.cap.unit.toList, u.acq ≠ a.num) → s.dev.sealing.on = false →
    Runs .acqHeaderWrite s fun e => e.cap.ended = rest ∧ e.load a.hdrAddr 4 = 0x52434147 ∧ e.load (a.hdrAddr + 8) 1 = 2 ∧
      e.load (a.hdrAddr + 188) 4 = (crc32 (e.loadBytes a.hdrAddr 188)).toNat ∧ MemoryOutside a.hdrAddr 192 s.dev e ∧
      Says .c evAcqDone 0 a.hdrAddr none s.dev e ∧ e.regs = s.dev.regs))

/-- R24, R213, R216, R218: a full block of a live pipe is finished with its header and loss statement in RED_p_CFG.BLK bytes; with
two blocks already held it is discarded whole and its samples are counted as lost. R203, R204, R62: a block goes where RED_p_DST
sends it: discarded, or to a channel that waits for one; a START runs a MEM pipe that is OFF and fits, ABORT discards the partial
block, and a MEM job with nothing left posts EV_RED_DONE. -/
def Obligations.ReductionPipes : Prop :=
  ((∀ (s : State) (p : Fin 4), s.dev.Up → s.dev.cfg (F.RED_p_CFG_MEM p) = 0 → blockFull s.dev p = true →
    (s.dev.red.get p).ready.length < 2 →
    Runs (.redBlockDone p) s fun e => (e.red.get p).index = (s.dev.red.get p).index + 1 ∧
      e.rd64 (R.RED_p_LOST_LO p) = s.dev.rd64 (R.RED_p_LOST_LO p) ∧ e.mem = s.dev.mem ∧
      ∃ b, (e.red.get p).ready = (s.dev.red.get p).ready ++ [b] ∧ b.bytes.length = (pipeCfg s.dev p).blk ∧
        b.bytes.take 4 = leBytes 4 0x44455242 ∧
        (b.bytes.drop 64).take 32 = lossStatement s.dev (pipeCfg s.dev p) (satCount (blockOuts s.dev p))) ∧
  (∀ (s : State) (p : Fin 4), s.dev.Up → s.dev.cfg (F.RED_p_CFG_MEM p) = 0 → blockFull s.dev p = true →
    2 ≤ (s.dev.red.get p).ready.length →
    (s.dev.rd64 (R.RED_p_LOST_LO p)) < 2 ^ 63 → (pipeCfg s.dev p).capacity * (pipeCfg s.dev p).decim < 2 ^ 63 →
    Runs (.redBlockDone p) s fun e => (e.red.get p).ready = (s.dev.red.get p).ready ∧ (e.red.get p).index = (s.dev.red.get p).index ∧
      e.rd64 (R.RED_p_LOST_LO p) = s.dev.rd64 (R.RED_p_LOST_LO p) +
        (pipeCfg s.dev p).capacity / (if (pipeCfg s.dev p).group = 2 then 2 else 1) * (pipeCfg s.dev p).decim ∧
      e.get (F.RED_p_STATUS_LAST_CODE p) = 0x0C06 ∧
      ((s.dev.red.get p).saidDiscard = false → Says .c evRedDiscard p.val 0 none s.dev e))) ∧
  ((∀ (s : State) (p : Fin 4) (b : RedBlock) (bs : List RedBlock), s.dev.Up → (s.dev.red.get p).ready = b :: bs →
    s.dev.cfg (F.RED_p_DST_KIND p) = 2 →
    Runs (.redBlockHandoff p) s fun e => (e.red.get p).ready = bs ∧
      e.rd64 (R.RED_p_BLOCKS_LO p) = (s.dev.rd64 (R.RED_p_BLOCKS_LO p) + 1) % 2 ^ 64 ∧ e.mem = s.dev.mem ∧ e.crossings = s.dev.crossings) ∧
  (∀ (s : State) (p : Fin 4) (b : RedBlock) (bs : List RedBlock) (x : DmaDesc) (n : Fin 32), s.dev.Up → (s.dev.red.get p).ready = b :: bs →
    s.dev.cfg (F.RED_p_DST_KIND p) = 0 → n.val = s.dev.cfg (F.RED_p_DST_CHAN p) → s.dev.badger.outQ = [] →
    (s.dev.beaver.chans.get n).desc = some x → x.feed = true → (s.dev.beaver.chans.get n).wb = none →
    (s.dev.beaver.chans.get n).block = none → b.bytes.length ≤ x.dstLen →
    Gives (.redBlockHandoff p) s
      (s.dev.setChan n { s.dev.beaver.chans.get n with block := some b.bytes, blockPipe := some (some p) })) ∧
  (∀ (s : State) (p : Fin 4), s.dev.Up → s.dev.unitState (.red p) ≠ stOff →
    Gives (.redStart p) s (s.dev.put (F.RED_p_STATUS_LAST_CODE p) 0x0C07)) ∧
  (∀ (s : State) (p : Fin 4), s.dev.Up → s.dev.unitState (.red p) = stOff → s.dev.cfgc.latched = [] → s.dev.cfg (F.RED_p_CFG_MEM p) = 1 →
    s.dev.cfg (F.RED_p_CFG_EN p) = 1 → isCapture s.dev.mode = true → s.dev.mode ≠ mFine →
    (pipeCost (pipeCfg s.dev p)).1 ≤ 32 * (pipeCost (pipeCfg s.dev p)).2 →
    (rangeRegion s.dev (s.dev.cf64 (R.RED_p_MEM_ADDR_LO p)) (max 1 (4 * divUp (s.dev.cf64 (R.RED_p_MEM_COUNT_LO p)) 3))).isSome = true →
    Runs (.redStart p) s fun e => e.unitState (.red p) = stOn ∧ (e.red.get p).running = true ∧ (e.red.get p).memK = 0 ∧
      e.rd64 (R.RED_p_BLOCKS_LO p) = 0 ∧ e.rd64 (R.RED_p_LOST_LO p) = 0 ∧ e.mem = s.dev.mem) ∧
  (∀ (s : State) (p : Fin 4), s.dev.Up → s.dev.unitState (.red p) = stOn →
    Runs (.redAbort p) s fun e => e.unitState (.red p) = stAborting ∧ (e.red.get p).vals = [] ∧
      (e.red.get p).ready = (s.dev.red.get p).ready ∧ e.mem = s.dev.mem) ∧
  (∀ (s : State) (p : Fin 4), s.dev.Up → s.dev.cfg (F.RED_p_CFG_MEM p) = 1 → s.dev.mode ≠ mFine → (s.dev.red.get p).running = true →
    s.dev.cf64 (R.RED_p_MEM_COUNT_LO p) ≤ (s.dev.red.get p).memK → (s.dev.red.get p).vals = [] → (s.dev.red.get p).ready = [] →
    Runs (.redMemDone p) s fun e => e.unitState (.red p) = stOff ∧ (e.red.get p).running = false ∧
      Says .c evRedDone p.val (s.dev.rd64 (R.RED_p_BLOCKS_LO p)) none s.dev e ∧ RegsOutside [R.RED_p_STATUS p] s.dev e))

/-- R221, R222, R226: folding one input's acquisition adds every sample to its 32-bit sum, saturating, counts the acquisition, and
posts EV_STK_DONE at the target. R227, R62: a CLEAR outside STACK begins at once; when it ends the count, the rejections and DONE
are 0 and the next acquisition sets the shape anew. ABORT discards the acquisition being folded and keeps the count. -/
def Obligations.StackFolding : Prop :=
  (∀ (s : State) (u : CapUnit) (i : Nat), s.dev.Up → s.dev.stk.fold = some u → u.inputs = [i] → 0 < u.samples → 4 * u.samples ≤ 0x1000000 →
    s.dev.cfg F.STK_CTRL_SUM = 1 → s.dev.cfg F.STK_CTRL_ENV = 0 → s.dev.cfg F.STK_CTRL_HIST = 0 → s.dev.ddr.span ≤ dramEnd →
    s.dev.stk.clearReq = false → stkCount s.dev + 1 < 2 ^ 32 →
    Runs .stkFoldFinal s fun e => stkCount e = stkCount s.dev + 1 ∧ e.stk.fold = none ∧
      (∀ j, j < u.samples → signedOf 32 (e.load (stkBase + 4 * j) 4) =
        clampInt (-(2 ^ 31)) (2 ^ 31 - 1) (signedOf 32 (s.dev.load (stkBase + 4 * j) 4) + (getSample s.dev 1 0 (u.start + j)).toInt)) ∧
      (∀ a, stkBase + 4 * u.samples ≤ a → a < badgerBase → e.byte a = s.dev.byte a) ∧
      (stkCount s.dev + 1 = s.dev.cfg F.STK_TARGET_TARGET → e.get F.STK_STATUS_DONE = 1 ∧
        Says .c evStkDone 0 (stkCount s.dev + 1) none s.dev e)) ∧
  ((∀ s : State, s.dev.Up → s.dev.stk.fold = none → s.dev.mode ≠ mStack →
    Runs .stkClear s fun e => e.stk = { s.dev.stk with clearReq := false, clearing := true } ∧ e.mem = s.dev.mem ∧
      RegsOutside [R.STK_STATUS] s.dev e) ∧
  (∀ s : State, s.dev.Up → s.dev.stk.clearing = true →
    Runs .stkClearDone s fun e => e.rd R.STK_COUNT = 0 ∧ e.rd R.STK_REJECT = 0 ∧ e.get F.STK_STATUS_DONE = 0 ∧ e.stk.len = none ∧
      e.stk.clearing = false) ∧
  (∀ s : State, s.dev.Up → s.dev.unitState .stk = stOn →
    Runs .stkAbort s fun e => e.unitState .stk = stAborting ∧ e.stk.fold = none ∧ stkCount e = stkCount s.dev ∧ e.mem = s.dev.mem ∧
      RegsOutside [R.STK_STATUS] s.dev e))

/-- R281 to R287, R292, R293, R298: START turns an enabled input on; a calibration gives g and z; an edge is stamped to the nearest
2^−32 tick and queued; an edge in the dead time is lost; an epoch's end exchanges the interpolators; EXTTRIG's stamps are
candidates. R289, R291, R294, R299: a gate that closes queues a duration and the count of edges of its stamps and completes a
measurement; ABORT queues nothing; FLUSH empties the queue; the read of word 0 of a queue pops its oldest entry, and of an empty one
gives zero. -/
def Obligations.LynxMeasurements : Prop :=
  ((∀ (s : State) (n : Fin 8), s.dev.Up → s.dev.unitState (.lynx n) = stOff → s.dev.cfgc.latched = [] →
    s.dev.cfgB (F.LYNX_n_CFG_EN n) = true → masterOf s.dev n = none → slaveOf s.dev n = none → lynxInternal (lynxSrc s.dev n) = false →
    Runs (.lynxStart n) s fun e => e.unitState (.lynx n) = stOn ∧ e.rd (R.LYNX_n_MEAS n) = 0 ∧ e.get (F.LYNX_n_STATUS_CALIB n) = 1 ∧
      (e.lynx.get n).queue = (s.dev.lynx.get n).queue ∧ (∀ m, m ≠ n → e.lynx.get m = s.dev.lynx.get m) ∧
      RegsOutside [R.LYNX_n_STATUS n, R.LYNX_n_MEAS n] s.dev e ∧ e.crossings = s.dev.crossings) ∧
  (∀ (s : State) (n : Fin 8), s.dev.Up → s.dev.unitState (.lynx n) ≠ stOff →
    Gives (.lynxStart n) s (s.dev.put (F.LYNX_n_STATUS_LAST_CODE n) 0x0903)) ∧
  (∀ (s : State) (n : Fin 8) (ip : Fin 2) (m1 m2 : Int), s.dev.Up → n.val % 2 = 0 → s.dev.unitState (.lynx n) = stOn →
    lynxInternal (lynxSrc s.dev n) = false → ((s.dev.lynx.get n).ip.get ip).ready = false → (s.dev.lynx.get n).measuring = true →
    Runs (.lynxCalDone ⟨n.val, by omega⟩ ip m1 m2) s fun e =>
      (e.rd (R.LYNX_n_CALRES n)).toNat = encodeSigned 16 (2 * m1 - m2) * 2 ^ 16 + encodeSigned 16 (m2 - m1) ∧
      (7600 ≤ m2 - m1 → m2 - m1 ≤ 8400 → (e.lynx.get n).ip.get ip = ⟨m2 - m1, 2 * m1 - m2, true⟩ ∧ (e.lynx.get n).fails = 0 ∧
        e.crossings = s.dev.crossings) ∧
      (m2 - m1 < 7600 ∨ 8400 < m2 - m1 → (e.lynx.get n).fails = (s.dev.lynx.get n).fails + 1 ∧
        (e.lynx.get n).ip = (s.dev.lynx.get n).ip ∧ Says .t evLynxCalFail n.val (encodeSigned 64 (m2 - m1)) none s.dev e ∧
        ((s.dev.lynx.get n).fails = 3 → e.unitState (.lynx n) = stOff))) ∧
  (∀ (s : State) (n : Fin 8) (te : Nat) (x : Int) (rising : Bool), s.dev.Up → masterOf s.dev n = none → lynxMode s.dev n = 0 →
    (s.dev.lynx.get n).measuring = true → s.dev.unitState (.lynx n) = stOn → lynxInternal (lynxSrc s.dev n) = false →
    s.dev.cfg (F.LYNX_n_CFG_EDGE n) = 2 → s.dev.cfg (F.LYNX_n_CFG_PRESCALE n) = 0 → s.dev.cfg (F.LYNX_n_WM_LEVEL n) = 0 →
    ((s.dev.lynx.get n).ip.get (lynxActive s.dev n)).gain ≠ 0 → (s.dev.lynx.get n).queue.length < 4096 →
    (s.dev.lynx.get n).start < te → te ≤ (s.dev.lynx.get n).start + 2 ^ s.dev.cfg (F.LYNX_n_EPOCH_EPOCH_LOG n) →
    let ip := (s.dev.lynx.get n).ip.get (lynxActive s.dev n)
    let ts := stampOf ip.gain ip.zero te x (Config.lynxDelay (lynxSrc s.dev n)) (s.dev.ef (R.LYNX_n_OFFSET n)).toInt
    ((s.dev.lynx.get n).lastStamp = none → Runs (.lynxEdge n te x rising) s fun e =>
      (e.lynx.get n).queue = (s.dev.lynx.get n).queue ++ [(BitVec.ofNat 64 (ts / 2 ^ 32),
        lynxWord1 (s.dev.lynx.get n).passed (lynxSrc s.dev n) 0 false (s.dev.lynx.get n).gap (s.dev.lynx.get n).stepMark
          (s.dev.flag F.STAG_STATUS_SLEWING) (tbUnref s.dev) rising ts)] ∧
      (e.lynx.get n).lastStamp = some (ts : Int) ∧ (e.lynx.get n).gap = false ∧ RegsOutside [R.LYNX_n_LEVEL n] s.dev e ∧
      e.crossings = s.dev.crossings) ∧
    (∀ t, (s.dev.lynx.get n).lastStamp = some t → (ts : Int) < t + 3355443200 → Runs (.lynxEdge n te x rising) s fun e =>
      (e.lynx.get n).queue = (s.dev.lynx.get n).queue ∧ (e.lynx.get n).gap = true ∧
      (e.rd (R.LYNX_n_LOST n)).toNat = min ((s.dev.rd (R.LYNX_n_LOST n)).toNat + 1) 0xFFFFFFFF ∧
      RegsOutside [R.LYNX_n_LOST n] s.dev e ∧ e.crossings = s.dev.crossings)) ∧
  (∀ (g z x delay offset : Int) (te : Nat), 0 < g →
    0 ≤ ((te : Int) * 2 ^ 32 - delay - offset * 2 ^ 16) * g - (x - z) * 2 ^ 32 →
    2 * g * stampOf g z te x delay offset ≤ 2 * (((te : Int) * 2 ^ 32 - delay - offset * 2 ^ 16) * g - (x - z) * 2 ^ 32) + g ∧
    2 * (((te : Int) * 2 ^ 32 - delay - offset * 2 ^ 16) * g - (x - z) * 2 ^ 32) < 2 * g * stampOf g z te x delay offset + g) ∧
  (∀ (s : State) (n : Fin 8), s.dev.Up → lynxMode s.dev n = 0 → (s.dev.lynx.get n).measuring = true → masterOf s.dev n = none →
    lynxInternal (lynxSrc s.dev n) = false → (s.dev.lynx.get n).start + 2 ^ s.dev.cfg (F.LYNX_n_EPOCH_EPOCH_LOG n) ≤ nowTick s.dev →
    Runs (.lynxEpochEnd n) s fun e => lynxActive e n = 1 - lynxActive s.dev n ∧ e.get (F.LYNX_n_STATUS_CALIB n) = 1 ∧
      ((e.lynx.get n).ip.get (lynxActive s.dev n)).ready = false ∧
      (e.lynx.get n).measuring = ((s.dev.lynx.get n).ip.get (1 - lynxActive s.dev n)).ready ∧
      ((e.lynx.get n).measuring = true →
        (e.lynx.get n).start = (s.dev.lynx.get n).start + 2 ^ s.dev.cfg (F.LYNX_n_EPOCH_EPOCH_LOG n)) ∧
      (e.lynx.get n).queue = (s.dev.lynx.get n).queue ∧ RegsOutside [R.LYNX_n_STATUS n] s.dev e) ∧
  (∀ (s : State) (te : Nat) (x : Int) (rising : Bool), s.dev.Up → srcEnabled s.dev 1 = true → s.dev.cfg F.FOX_EXT_SLOPE = 2 →
    s.dev.ext.measuring = true → s.dev.ext.start < te → te ≤ s.dev.ext.start + 2 ^ 16 →
    (s.dev.ext.ip.get s.dev.ext.active).gain ≠ 0 → s.dev.ext.lastStamp = none → takesAtOnce s.dev = false →
    let ip := s.dev.ext.ip.get s.dev.ext.active
    let ts := stampOf ip.gain ip.zero te x (Config.lynxDelay 0x10) (s.dev.ef R.LYNX_EXT_OFFSET).toInt
    Gives (.exttrigEdge te x rising) s { s.dev with
      ext := { s.dev.ext with lastStamp := some (ts : Int) }
      fox := { s.dev.fox with cands := s.dev.fox.cands ++ [plainCand s.dev srcExt ts] } })) ∧
  ((∀ (s : State) (n : Fin 8) (a b : LynxStamp), s.dev.Up → lynxMode s.dev n = 2 → (s.dev.lynx.get n).measuring = true →
    lynxInternal (lynxSrc s.dev n) = false →
    (s.dev.lynx.get n).start + s.dev.cf64 (R.LYNX_n_GATE_LO n) % 2 ^ 48 ≤ nowTick s.dev → (s.dev.lynx.get n).first = some a →
    (s.dev.lynx.get n).last = some b → 2 ≤ (s.dev.lynx.get n).stamps → (s.dev.lynx.get n).queue.length + 2 ≤ 4096 →
    s.dev.cfg (F.LYNX_n_WM_LEVEL n) = 0 → s.dev.ef (R.LYNX_n_REPEAT n) = 0 → s.dev.unitState (.lynx n) = stOn →
    Runs (.lynxGateClose n) s fun e =>
      (∃ duration counted : Word64 × Word64,
        (e.lynx.get n).queue = (s.dev.lynx.get n).queue ++ [duration, counted] ∧
        counted.1.toNat = (s.dev.cfg (F.LYNX_n_CFG_PRESCALE n) + 1) * ((s.dev.lynx.get n).stamps - 1) % 2 ^ 64 ∧
        bitsOf counted.2.toNat 39 38 = 2 ∧ bitsOf duration.2.toNat 39 38 = 1 ∧
        (a.steps = b.steps → a.ts ≤ b.ts → b.ts - a.ts < 2 ^ 80 →
          duration.1.toNat * 2 ^ 32 + duration.2.toNat % 2 ^ 32 = b.ts - a.ts)) ∧
      e.rd (R.LYNX_n_MEAS n) = s.dev.rd (R.LYNX_n_MEAS n) + 1 ∧ e.unitState (.lynx n) = stOn ∧
      RegsOutside [R.LYNX_n_MEAS n, R.LYNX_n_LEVEL n, R.LYNX_n_STATUS n] s.dev e ∧ e.crossings = s.dev.crossings) ∧
  (∀ (s : State) (n : Fin 8), s.dev.Up → s.dev.unitState (.lynx n) = stOn → Runs (.lynxAbort n) s fun e =>
    e.unitState (.lynx n) = stAborting ∧ (e.lynx.get n).measuring = false ∧ (e.lynx.get n).queue = (s.dev.lynx.get n).queue ∧
    RegsOutside [R.LYNX_n_STATUS n] s.dev e ∧ e.crossings = s.dev.crossings) ∧
  (∀ (s : State) (n : Fin 8), s.dev.Up → Runs (.lynxFlush n) s fun e =>
    e.lynx = s.dev.lynx.set n.val { s.dev.lynx.get n with queue := [] } ∧ e.get (F.LYNX_n_LEVEL_LEVEL n) = 0 ∧
    RegsOutside [R.LYNX_n_LEVEL n] s.dev e ∧ e.crossings = s.dev.crossings) ∧
  (∀ (s : State) (n : Fin 8) (q : Requester) (w0 w1 : Word64) (rest : List (Word64 × Word64)), s.dev.Reaches q (R.LYNX_n_Q n 0) →
    (s.dev.lynx.get n).queue = (w0, w1) :: rest → rest.length < 4096 →
    Runs (.lynxQPop q n) s fun e => Read q (w0.setWidth 32) s.dev e ∧ (e.lynx.get n).queue = rest ∧
      shadowOf e q (R.LYNX_n_Q n 1) = some ((w0 >>> 32).setWidth 32) ∧ shadowOf e q (R.LYNX_n_Q n 2) = some (w1.setWidth 32) ∧
      shadowOf e q (R.LYNX_n_Q n 3) = some ((w1 >>> 32).setWidth 32) ∧ e.get (F.LYNX_n_LEVEL_LEVEL n) = rest.length ∧
      RegsOutside [R.LYNX_n_LEVEL n] s.dev e) ∧
  (∀ (s : State) (n : Fin 8) (q : Requester), s.dev.Reaches q (R.LYNX_n_Q n 0) → (s.dev.lynx.get n).queue = [] →
    Runs (.lynxQPop q n) s fun e => Read q 0 s.dev e ∧ e.lynx = s.dev.lynx ∧ e.regs = s.dev.regs))

/-- R303, R306 to R310, R317: a crossing sets its latch and the trip state follows SENSE, is counted and posted once; a seeding or
readback takes the bank's spare, and its end sets what the reading decides, posts its event and gives the spare back; COUNT has no
spare; ABORT disables a monitor. -/
def Obligations.WindowMonitors : Prop :=
  (∀ (s : State) (n : Fin 8) (ts : TS), s.dev.Up → s.dev.unitState (.owl n) = stOn → s.dev.cfg (F.OWL_n_CFG_SENSE n) = 2 →
    (s.dev.owl.get n).crossOnly = false → s.dev.flag (F.OWL_n_STATUS_TRIP n) = false → s.dev.flag (F.OWL_n_STATUS_TRIP_STICKY n) = false →
    (∀ u : Fin 4, s.dev.cfg (F.PULSE_u_CFG_TRIP_MASK u) = 0) → s.dev.armed = false → takesAtOnce s.dev = false →
    Runs (.owlCrossing n 0 ts) s fun e => (e.owl.get n).upper = some true ∧ (e.owl.get n).lower = (s.dev.owl.get n).lower ∧
      e.get (F.OWL_n_STATUS_TRIP n) = 1 ∧ e.get (F.OWL_n_STATUS_TRIP_STICKY n) = 1 ∧ e.get (F.OWL_n_STATUS_UPPER n) = 1 ∧
      (e.rd (R.OWL_n_TRIP_CNT n)).toNat = min ((s.dev.rd (R.OWL_n_TRIP_CNT n)).toNat + 1) 0xFFFFFFFF ∧
      Says .t evOwlTrip n.val 0 (some (mkTS (nowTick s.dev + 1))) s.dev e ∧
      RegsOutside [R.OWL_n_STATUS n, R.OWL_n_TRIP_CNT n] s.dev e ∧ (∀ m, m ≠ n → e.owl.get m = s.dev.owl.get m)) ∧
  (∀ (s : State) (n : Fin 8) (level : Fin 4) (ts : TS), s.dev.Up → s.dev.unitState (.owl n) = stOn → (s.dev.owl.get n).crossOnly = false →
    Runs (.owlCrossing n level ts) s fun e => (∀ m, m ≠ n → e.owl.get m = s.dev.owl.get m) ∧ e.mem = s.dev.mem ∧
      (e.owl.get n).upper = (if level.val < 2 then some (decide (level.val = 0)) else (s.dev.owl.get n).upper) ∧
      (e.owl.get n).lower = (if level.val < 2 then (s.dev.owl.get n).lower else some (decide (level.val = 2)))) ∧
  (∀ sense u l, senseTrip sense u l = match sense with | 0 => u || l | 1 => !(u || l) | 2 => u | _ => l) ∧
  (∀ (s : State) (n : Fin 8), s.dev.Up → s.dev.unitState (.owl n) = stOn → s.dev.mode = mSingle → owlUnconnected s.dev n = false →
    s.dev.get (F.ILV_b_SPARE_ACTIVE (owlBank n)) = 63 → s.dev.owlSvc.get (owlBank n) = none →
    (∀ m, m ≠ n → (s.dev.owl.get m).wantSeed = false) →
    Runs (.owlSeed n) s fun e => e.owlSvc.get (owlBank n) = some ⟨n, true⟩ ∧ e.get (F.OWL_n_STATUS_SEED n) = 1 ∧
      spareUse e (owlBank n) = 2 ∧ RegsOutside [R.OWL_n_STATUS n] s.dev e ∧ e.crossings = s.dev.crossings) ∧
  (∀ (s : State) (n : Fin 8), s.dev.Up → s.dev.unitState (.owl n) = stOn → s.dev.mode = mCount → Runs (.owlSeed n) s fun e =>
    e.get (F.OWL_n_STATUS_LAST_CODE n) = 0x0501 ∧ e.owlSvc = s.dev.owlSvc ∧ RegsOutside [R.OWL_n_STATUS n] s.dev e) ∧
  (∀ (s : State) (n : Fin 8) (reading : Int) (o : Fin 3) (ts : TS), s.dev.Up → s.dev.unitState (.owl n) = stOn →
    s.dev.owlSvc.get (owlBank n) = some ⟨n, true⟩ → s.dev.cfg (F.OWL_n_CFG_SENSE n) = 2 → (s.dev.owl.get n).upper = none →
    s.dev.flag (F.OWL_n_STATUS_TRIP n) = true → readingAbove (atConnector s.dev n reading) o (s.dev.cfgS (F.OWL_n_THRESH_UPPER n)) = true →
    (∀ m, m ≠ n → (s.dev.owl.get m).wantSeed = false) → (∀ m, (s.dev.owl.get m).wantRb = false) →
    Runs (.seedDone n reading o ts) s fun e => (e.owl.get n).upper = some true ∧ e.get (F.OWL_n_STATUS_SEED n) = 2 ∧
      e.get (F.OWL_n_STATUS_TRIP n) = 1 ∧ e.owlSvc.get (owlBank n) = none ∧ Says .t evOwlSeeded n.val 2 none s.dev e ∧
      RegsOutside [R.OWL_n_STATUS n] s.dev e) ∧
  (∀ (s : State) (n : Fin 8), s.dev.Up → s.dev.mode = mSingle → s.dev.get (F.ILV_b_SPARE_ACTIVE (owlBank n)) = 63 →
    s.dev.owlSvc.get (owlBank n) = none → (∀ m, (s.dev.owl.get m).wantSeed = false) →
    (∀ m, m ≠ n → (s.dev.owl.get m).wantRb = false) →
    Runs (.owlReadback n) s fun e => e.owlSvc.get (owlBank n) = some ⟨n, false⟩ ∧ spareUse e (owlBank n) = 2 ∧
      RegsOutside [] s.dev e ∧ e.crossings = s.dev.crossings) ∧
  (∀ (s : State) (n : Fin 8) (up lo : BitVec 16), s.dev.Up → s.dev.owlSvc.get (owlBank n) = some ⟨n, false⟩ →
    (∀ m, (s.dev.owl.get m).wantSeed = false) → (∀ m, m ≠ n → (s.dev.owl.get m).wantRb = false) →
    Runs (.readbackDone n up lo) s fun e => (e.rd (R.OWL_n_RB n)).toNat = up.toNat * 2 ^ 16 + lo.toNat ∧
      e.get (F.OWL_n_STATUS_RB_VALID n) = 1 ∧ e.owlSvc.get (owlBank n) = none ∧
      Says .t evOwlReadback n.val (up.toNat * 2 ^ 16 + lo.toNat) none s.dev e ∧
      RegsOutside [R.OWL_n_STATUS n, R.OWL_n_RB n] s.dev e) ∧
  (∀ (s : State) (n : Fin 8), s.dev.Up → s.dev.unitState (.owl n) = stOn → s.dev.owlSvc.get (owlBank n) = none →
    (∀ m, (s.dev.owl.get m).wantSeed = false) → (∀ m, (s.dev.owl.get m).wantRb = false) →
    Runs (.owlAbort n) s fun e => e.unitState (.owl n) = stOff ∧ e.get (F.OWL_n_STATUS_TRIP n) = s.dev.get (F.OWL_n_STATUS_TRIP n) ∧
      RegsOutside [R.OWL_n_STATUS n] s.dev e ∧ e.crossings = s.dev.crossings)

/-- R311 to R315: FIRE and CLEAR wait for the next tick; a firing makes the output active and is counted and posted once; a one-shot
ends after its width, a train's last pulse ends it with EV_PULSE_END, a period starts the next pulse; ABORT returns the output to
idle. -/
def Obligations.PulseUnits : Prop :=
  (∀ (s : State) (u : Fin 4), s.dev.Up →
    Gives (.pulseCmdFire u) s (if s.dev.unitState (.pulse u) = stOn then s.dev.setPulse u { s.dev.pulse.get u with fireDue := true }
      else s.dev.put (F.PULSE_u_STATUS_LAST_CODE u) 0x0602) ∧
    Gives (.pulseClear u) s (s.dev.setPulse u { s.dev.pulse.get u with clearDue := true })) ∧
  (∀ (d : Dev) (u : Fin 4), d.unitState (.pulse u) = stOn → (d.pulse.get u) = { fireDue := true } →
    let e := pulseTick d u
    e.get (F.PULSE_u_STATUS_OUT u) = 1 ∧ e.get (F.PULSE_u_STATUS_FIRED u) = 1 ∧ (e.pulse.get u).active = true ∧
    (e.rd (R.PULSE_u_FIRE_CNT u)).toNat = min ((d.rd (R.PULSE_u_FIRE_CNT u)).toNat + 1) 0xFFFFFFFF ∧
    RegsOutside [R.PULSE_u_STATUS u, R.PULSE_u_FIRE_CNT u] d e ∧
    (d.flag (F.PULSE_u_STATUS_FIRED u) = false → Says .t evPulseFire u.val (owlTrips d + 256) none d e)) ∧
  (∀ (s : State) (u : Fin 4), s.dev.Up → s.dev.unitState (.pulse u) = stOn → (s.dev.pulse.get u).active = true →
    s.dev.get (F.PULSE_u_STATUS_OUT u) = 1 →
    ((s.dev.pulse.get u).mode = 0 → Runs (.pulseWidthEnd u) s fun e => (e.pulse.get u).active = false ∧
      e.get (F.PULSE_u_STATUS_OUT u) = 0 ∧ RegsOutside [R.PULSE_u_STATUS u] s.dev e ∧ e.crossings = s.dev.crossings) ∧
    ((s.dev.pulse.get u).mode = 2 → (s.dev.pulse.get u).endless = false → 2 ≤ (s.dev.pulse.get u).left →
      Runs (.pulseWidthEnd u) s fun e => e.pulse = s.dev.pulse.set u.val { s.dev.pulse.get u with left := (s.dev.pulse.get u).left - 1 } ∧
        e.get (F.PULSE_u_STATUS_OUT u) = 0 ∧ RegsOutside [R.PULSE_u_STATUS u] s.dev e ∧ e.crossings = s.dev.crossings) ∧
    ((s.dev.pulse.get u).mode = 2 → (s.dev.pulse.get u).endless = false → (s.dev.pulse.get u).left = 1 →
      Runs (.pulseWidthEnd u) s fun e => (e.pulse.get u).active = false ∧ e.get (F.PULSE_u_STATUS_OUT u) = 0 ∧
        RegsOutside [R.PULSE_u_STATUS u] s.dev e ∧ Says .t evPulseEnd u.val 0 none s.dev e)) ∧
  (∀ (s : State) (u : Fin 4), s.dev.Up → (s.dev.pulse.get u).active = true → (s.dev.pulse.get u).mode = 2 →
    s.dev.get (F.PULSE_u_STATUS_OUT u) = 0 → Gives (.trainPeriod u) s (s.dev.put (F.PULSE_u_STATUS_OUT u) 1)) ∧
  (∀ (s : State) (u : Fin 4), s.dev.Up → s.dev.unitState (.pulse u) = stOn → Runs (.pulseAbort u) s fun e =>
    e.unitState (.pulse u) = stAborting ∧ e.get (F.PULSE_u_STATUS_OUT u) = 0 ∧ (e.pulse.get u).active = false ∧
    RegsOutside [R.PULSE_u_STATUS u] s.dev e ∧
    (if (s.dev.pulse.get u).active then Says .t evPulseEnd u.val 2 none s.dev e else e.crossings = s.dev.crossings))

/-- R321, R324, R325, R327, R329, R330: CAL_START is refused with its code or starts a procedure, in CALIBRATE at once and else
through a transition into it; a procedure's end applies its results together and posts EV_CAL_DONE, under SEALED it applies nothing;
a failure posts EV_CAL_FAIL; staleness is reported when it begins. R332 to R337: SAVE copies the live image to the buffer; RESTORE
refuses a faulty image with its code, and under SEALED every one, and takes a good one; a bundle is checked before its image is
taken; a busy CAL refuses all three. -/
def Obligations.Calibration : Prop :=
  ((∀ (s : State) (v : Word), s.dev.Up →
    (s.dev.cal.proc ≠ none → Gives (.calStart v) s (s.dev.put F.CAL_STATUS_LAST_CODE 0x0E01)) ∧
    (calBusy s.dev = false → s.dev.mode = mCount → Gives (.calStart v) s (s.dev.put F.CAL_STATUS_LAST_CODE 0x0E02)) ∧
    (calBusy s.dev = false → s.dev.mode = mSingle → s.dev.phase = 0 → s.dev.get F.GLB_STATUS_READY = 1 → 4 ≤ v.toNat % 8 →
      Gives (.calStart v) s (s.dev.put F.CAL_STATUS_LAST_CODE 0x0E03))) ∧
  (∀ (s : State) (v : Word), s.dev.Up → calBusy s.dev = false → s.dev.mode = mCalibrate → s.dev.phase = 0 →
    s.dev.get F.GLB_STATUS_READY = 1 → v.toNat % 8 = 0 → bitsOf v.toNat 5 4 ≠ 3 → s.dev.cfgc.latched = [] →
    s.dev.get F.STAG_STATUS_SL_LOCK = 1 →
    Runs (.calStart v) s fun e => e.cal = { s.dev.cal with
        proc := some (0, bitsOf v.toNat 5 4, bitsOf v.toNat 15 8), begun := true, home := none } ∧
      e.unitState .cal = stOn ∧ e.get F.CAL_STATUS_PROC = 0 ∧ e.get F.CAL_STATUS_MEASURE_ONLY = s.dev.sealedState.toNat ∧
      RegsOutside [R.CAL_STATUS] s.dev e ∧ e.eff = s.dev.eff ∧ e.crossings = s.dev.crossings) ∧
  (∀ (s : State) (v : Word), s.dev.Up → calBusy s.dev = false → s.dev.mode = mSingle → s.dev.phase = 0 →
    s.dev.get F.GLB_STATUS_READY = 1 → v.toNat % 8 = 0 → bitsOf v.toNat 5 4 ≠ 3 →
    Runs (.calStart v) s fun e => e.cal.proc = some (0, bitsOf v.toNat 5 4, bitsOf v.toNat 15 8) ∧ e.cal.begun = false ∧
      e.cal.home = some (mSingle, s.dev.arr) ∧ e.get F.GLB_MODE_STATUS_TGT_MODE = mCalibrate ∧ e.get F.GLB_MODE_STATUS_PHASE = 1 ∧
      e.mod.forCal = true) ∧
  (∀ (s : State) (k mask : Nat) (p : TrimProp) (r : CalResult), s.dev.Up → k < 3 → s.dev.cal.proc = some (0, k, mask) →
    s.dev.cal.begun = true → s.dev.cal.home = none → s.dev.unitState .cal = stOn → s.dev.sealedState = false →
    clampProp p = (p, false) → p.sub ≤ 32 → r.trims = [p] → r.chans = [] → r.planes = [] → r.failed = [] → r.owls = [] →
    Runs (.calDone r) s fun e =>
      e.ef (setKey k (R.CONV_b_TRIMA p.bank p.sub)) = propWordA p ∧ e.rd (setKey k (R.CONV_b_TRIMA p.bank p.sub)) = propWordA p ∧
      e.ef (setKey k (R.CONV_b_TRIMB p.bank p.sub)) = propWordB p ∧ e.rd (setKey k (R.CONV_b_TRIMB p.bank p.sub)) = propWordB p ∧
      bitsOf (e.get F.CAL_STATUS_SET_VALID) k k = 1 ∧ e.get F.CAL_STATUS_TB_VALID = 1 ∧ e.get F.CAL_STATUS_OWL_VALID = 1 ∧
      (e.rd R.CAL_COUNT).toNat = min ((s.dev.rd R.CAL_COUNT).toNat + 1) 0xFFFFFFFF ∧ e.get F.CAL_STATUS_LAST_CODE = 0 ∧
      e.unitState .cal = stOff ∧ e.cal.proc = none ∧ Says .q evCalDone 0 (e.rd R.CAL_COUNT).toNat none s.dev e ∧
      (∀ a, a ≠ setKey k (R.CONV_b_TRIMA p.bank p.sub) → a ≠ setKey k (R.CONV_b_TRIMB p.bank p.sub) → e.ef a = s.dev.ef a) ∧
      RegsOutside [setKey k (R.CONV_b_TRIMA p.bank p.sub), setKey k (R.CONV_b_TRIMB p.bank p.sub), R.CAL_STATUS, R.CAL_COUNT,
        R.CAL_RESULT0, R.CAL_RESULT1, R.CAL_LAST_TEMP, R.CAL_LAST_TS 0, R.CAL_LAST_TS 1, R.CAL_LAST_TS 2] s.dev e) ∧
  (∀ (s : State) (pr k mask : Nat) (r : CalResult), s.dev.Up → s.dev.cal.proc = some (pr, k, mask) → s.dev.cal.begun = true →
    s.dev.cal.home = none → s.dev.unitState .cal = stOn → s.dev.sealedState = true →
    Runs (.calDone r) s fun e => e.eff = s.dev.eff ∧ e.cal.live = s.dev.cal.live ∧ e.unitState .cal = stOff ∧
      RegsOutside [R.CAL_STATUS, R.CAL_RESULT0, R.CAL_RESULT1] s.dev e ∧ Says .q evCalDone pr 0 none s.dev e) ∧
  (∀ (s : State) (k mask : Nat), s.dev.Up → s.dev.cal.proc = some (0, k, mask) → s.dev.cal.begun = true → s.dev.cal.home = none →
    s.dev.cal.startup = false → s.dev.unitState .cal = stOn →
    ∀ p ∈ [((none : Option Nat), 0x0E07, s.dev.get F.STAG_STATUS_SL_LOCK), (some 499999, 0x0E05, s.dev.cfg F.CAL_CTRL_REF_SRC)], p.2.2 = 0 →
      Runs (.calFail p.1) s fun e => e.get F.CAL_STATUS_LAST_CODE = p.2.1 ∧ e.unitState .cal = stOff ∧ e.cal.proc = none ∧
        Says .q evCalFail 0 p.2.1 none s.dev e ∧ RegsOutside [R.CAL_STATUS] s.dev e ∧ e.eff = s.dev.eff) ∧
  (∀ s : State, s.dev.Up → s.dev.cal.proc ≠ none → s.dev.unitState .cal = stOn → Gives .calAbort s (s.dev.setUnit .cal stAborting)) ∧
  (∀ s : State, s.dev.Up → hasPart s.dev .calStale = false → Runs .calStaleEval s fun e =>
    e.get F.CAL_STATUS_STALE = (staleBits s.dev != 0).toNat ∧ RegsOutside [R.CAL_STATUS] s.dev e ∧
    (if staleBits s.dev ≠ 0 ∧ s.dev.get F.CAL_STATUS_STALE = 0 then Says .q evCalStale s.dev.arr (staleBits s.dev) none s.dev e
      else e.crossings = s.dev.crossings)) ∧
  (∀ d : Dev, d.arr < 3 → (staleBits d % 2 = 1 ↔ bitsOf (d.get F.CAL_STATUS_SET_VALID) d.arr d.arr = 0) ∧
    (d.cfg F.CAL_STALE_CFG_AGE = 0 → bitsOf (staleBits d) 1 1 = 0) ∧ (d.cfg F.CAL_STALE_CFG_TEMP = 0 → bitsOf (staleBits d) 2 2 = 0))) ∧
  ((∀ s : State, s.dev.Up → calBusy s.dev = false → Runs .calSave s fun e => bufBytes e = liveImage s.dev ∧
    e.get F.CAL_STATUS_LAST_CODE = 0 ∧ RegsOutside [R.CAL_STATUS] s.dev e ∧ e.cal = { s.dev.cal with buf := e.cal.buf } ∧
    e.crossings = s.dev.crossings) ∧
  (∀ s : State, ∀ c ∈ [Instr.calSave, .calRestore, .calBundle], s.dev.Up → s.dev.cal.proc ≠ none →
    Gives c s (s.dev.put F.CAL_STATUS_LAST_CODE 0x0E01)) ∧
  (∀ s : State, s.dev.Up → calBusy s.dev = false → Runs .calRestore s fun e =>
      if imageCode (bufBytes s.dev) ≠ 0 then e = s.dev.put F.CAL_STATUS_LAST_CODE (imageCode (bufBytes s.dev))
      else if s.dev.sealedState = true then e = s.dev.put F.CAL_STATUS_LAST_CODE 0x0E0D
      else e.cal.timing = some (bytesAt (bufBytes s.dev) 0x40 0x50) ∧ e.cal.owl = some (bytesAt (bufBytes s.dev) 0xC0 0x60) ∧
        (e.rd R.CAL_COUNT).toNat = min ((s.dev.rd R.CAL_COUNT).toNat + 1) 0xFFFFFFFF ∧ e.get F.CAL_STATUS_LAST_CODE = 0 ∧
        Says .q evCalRestored 0 0x1F none s.dev e ∧ e.cal.buf = s.dev.cal.buf ∧ e.mem = s.dev.mem) ∧
  (∀ s : State, s.dev.Up → calBusy s.dev = false → Gives .calBundle s
    { s.dev with cal := { s.dev.cal with bundle := some (s.dev.rd64 R.CAL_BUNDLE_ADDR_LO) } }) ∧
  (∀ (s : State) (a : Nat), s.dev.Up → s.dev.cal.bundle = some a → Runs .bundleDone s fun e =>
      if checkBundle s.dev a ≠ 0 then e = Dev.put { s.dev with cal := { s.dev.cal with bundle := none } } F.CAL_STATUS_LAST_CODE
        (checkBundle s.dev a)
      else e.cal.bundle = none ∧ e.mem = s.dev.mem ∧ (imageCode (s.dev.loadBytes (a + 0x40) 16384) = 0 →
        e.hedge.bundleSeq = s.dev.load (a + 0x18) 4 ∧ e.get F.CAL_STATUS_LAST_CODE = 0 ∧
        Says .q evCalRestored 1 (s.dev.load (a + 0x0C) 4) none s.dev e)) ∧
  (∀ (d : Dev) (m : List Byte), bufBytes (toBuf m d) = m ↔ m.length = 16384))

/-- R342, R344: the inverse transform undoes the transform for every element width and skip that fits the block. -/
def Obligations.BadgerTransformIsInvertible : Prop :=
  ∀ (xf : Nat) (bs : List Byte), skipBytes xf ≤ bs.length →
    untransform xf (transform xf bs) = bs ∧ (transform xf bs).length = bs.length

/-- R346 to R357: a lane takes a ring's job and reads its input; a job's end writes data, status and the cleared OWN back and frees
the lane; a RED block without gain is passed on as it is; a ring fetches descriptors until one without OWN; doorbell, time-out,
ABORT. -/
def Obligations.BadgerJobs : Prop :=
  (∀ (s : State) (lane : Fin 8) (host : List Byte) (j : BadgerJob) (r : Fin 4) (i : Nat), s.dev.Up → s.dev.cfgB F.BADGER_CTRL_EN = true →
    s.dev.badger.lanes.get lane = none → s.dev.unitState .badger ≠ stAborting → (∀ p, (s.dev.red.get p).ready = []) →
    s.dev.badger.urgent = [] → s.dev.badger.jobs = [j] → j.src = .ring r i →
    bitsOf (s.dev.cfg (F.BADGER_r_CFG_LANES r)) lane.val lane.val = 1 → spaceReadable s.dev j.from' j.len = true →
    (isHost j.from' = false ∨ j.len ≤ host.length ∧ mayIssue s.dev = true) →
    Runs (.laneTake lane host) s fun e => e.badger.lanes = s.dev.badger.lanes.set lane.val (some { laneFixes s.dev j with
        bytes := spaceLoad s.dev j.from' j.len host }) ∧ e.badger.jobs = [] ∧
      bitsOf (e.get F.BADGER_STATUS_LANE_BUSY) lane.val lane.val = 1 ∧
      e.rd64 R.BADGER_IN_LO = (s.dev.rd64 R.BADGER_IN_LO + j.len) % 2 ^ 64 ∧ e.mem = s.dev.mem ∧ e.crossings = s.dev.crossings ∧
      RegsOutside [R.BADGER_STATUS, R.BADGER_QLEVEL, R.BADGER_IN_LO, R.BADGER_IN_LO + 4] s.dev e) ∧
  (∀ (s : State) (lane : Fin 8) (v : Bool) (j : BadgerJob) (r : Fin 4) (i : Nat) (x : List Byte), s.dev.Up →
    s.dev.badger.lanes.get lane = some j → j.src = .ring r i → i = ringNext s.dev r → s.dev.badger.results = [] → j.op = 1 →
    decodeBlock j.bytes = .done x → x.length ≤ j.dstCap → j.ev = false → s.dev.cfg (F.BADGER_r_CFG_SIZE_LOG r) ≤ 12 →
    ringDesc s.dev r i + 64 ≤ 2 ^ 63 → j.dst < 2 ^ 63 → j.dst + x.length ≤ ringDesc s.dev r i ∨ ringDesc s.dev r i + 64 ≤ j.dst →
    spaceWritable s.dev j.dst x.length = true → spaceWritable s.dev (ringDesc s.dev r i) 4 = true →
    spaceWritable s.dev (ringDesc s.dev r i + 0x20) 2 = true → spaceWritable s.dev (ringDesc s.dev r i + 0x24) 12 = true →
    Runs (.badgerBlockDone lane v) s fun e => e.loadBytes j.dst x.length = x ∧ e.load (ringDesc s.dev r i + 0x20) 2 = 0 ∧
      e.load (ringDesc s.dev r i + 0x24) 4 = x.length % 2 ^ 32 ∧ bitsOf (e.load (ringDesc s.dev r i) 4) 31 31 = 0 ∧
      (∀ a, a < j.dst ∨ j.dst + x.length ≤ a → a < ringDesc s.dev r i ∨ ringDesc s.dev r i + 64 ≤ a → e.byte a = s.dev.byte a) ∧
      e.badger.lanes.get lane = none ∧ e.get (F.BADGER_r_NEXT_INDEX r) = (i + 1) % 2 ^ s.dev.cfg (F.BADGER_r_CFG_SIZE_LOG r) % 4096 ∧
      (e.rd (R.BADGER_r_DONE r)).toNat = min ((s.dev.rd (R.BADGER_r_DONE r)).toNat + 1) 0xFFFFFFFF ∧ e.crossings = s.dev.crossings) ∧
  (∀ (s : State) (lane : Fin 8) (v : Bool) (j : BadgerJob) (p : Fin 4), s.dev.Up → s.dev.badger.lanes.get lane = some j →
    j.src = .pipe p (s.dev.badger.handed.get p) → s.dev.badger.results = [] →
    up64 j.bytes.length < (encodeBlock j).length + 64 * j.minSave →
    Runs (.badgerBlockDone lane v) s fun e => e.badger.outQ = s.dev.badger.outQ ++ [⟨p, j.chan, j.bytes⟩] ∧
      e.badger.lanes.get lane = none ∧ e.get F.BADGER_STATUS_LAST_CODE = 0x0F01 ∧
      (e.rd R.BADGER_NOGAIN_CNT).toNat = min ((s.dev.rd R.BADGER_NOGAIN_CNT).toNat + 1) 0xFFFFFFFF ∧ e.mem = s.dev.mem ∧
      e.crossings = s.dev.crossings) ∧
  (∀ (s : State) (r : Fin 4) (host : List Byte), s.dev.Up → s.dev.get (F.BADGER_r_STATUS_STATE r) = stOn →
    s.dev.cfgB F.BADGER_CTRL_EN = true → s.dev.get (F.BADGER_r_STATUS_IDLE r) = 0 → ringBusy s.dev r = false →
    s.dev.unitState .badger ≠ stAborting → spaceReadable s.dev (ringDesc s.dev r (s.dev.badger.fetch.get r)) 64 = true →
    (isHost (ringDesc s.dev r (s.dev.badger.fetch.get r)) = false ∨ 64 ≤ host.length ∧ mayIssue s.dev = true) →
    let d := issueRead (ringDesc s.dev r (s.dev.badger.fetch.get r)) 64 s.dev
    let b := spaceLoad s.dev (ringDesc s.dev r (s.dev.badger.fetch.get r)) 64 host
    (bitsOf (hdrField b 0 4) 31 31 = 0 → Runs (.jobFetch r host) s fun e => e.get (F.BADGER_r_STATUS_IDLE r) = 1 ∧
      e.get (F.BADGER_r_STATUS_STATE r) = stOff ∧ Says .c evBadgerRingIdle r.val (ringNext s.dev r) none s.dev e ∧
      RegsOutside [R.BADGER_r_STATUS r] s.dev e ∧ e.mem = s.dev.mem) ∧
    (hdrField b 0 4 = 2 ^ 31 + 4 → 0 < hdrField b 0x10 4 → hdrField b 0x10 4 ≤ 4096 → hdrField b 0x22 2 = 0 →
      (b.drop 0x30).all (fun y => y = 0) = true →
      Gives (.jobFetch r host) s { d with badger := { s.dev.badger with
        fetch := s.dev.badger.fetch.set r.val ((s.dev.badger.fetch.get r + 1) % 2 ^ s.dev.cfg (F.BADGER_r_CFG_SIZE_LOG r))
        jobs := s.dev.badger.jobs ++ [{ src := .ring r (s.dev.badger.fetch.get r), op := 0, level := 0, xform := 0, blkLog := 12,
                                        tag := hdrField b 4 4, from' := hdrField b 8 8, len := hdrField b 0x10 4,
                                        dst := hdrField b 0x18 8, dstCap := hdrField b 0x14 4, ev := true, ctrl := 2 ^ 31 + 4 }] } })) ∧
  (∀ (s : State) (r : Fin 4), s.dev.Up → s.dev.get (F.BADGER_r_STATUS_IDLE r) = 1 → s.dev.cfgB (F.BADGER_r_CFG_EN r) = true →
    Gives (.badgerDoorbell r) s ((s.dev.put (F.BADGER_r_STATUS_IDLE r) 0).put (F.BADGER_r_STATUS_STATE r) stOn)) ∧
  (∀ (s : State) (lane : Fin 8) (j : BadgerJob) (r : Fin 4) (i : Nat), s.dev.Up → s.dev.badger.lanes.get lane = some j →
    j.src = .ring r i → Runs (.jobTimeout lane false) s fun e => e.badger.lanes.get lane = none ∧
      e.get (F.BADGER_r_STATUS_STATE r) = stOff ∧ e.get (F.BADGER_r_STATUS_LAST_CODE r) = 0x0F0E ∧
      e.badger.fetch.get r = ringNext s.dev r ∧ e.mem = s.dev.mem ∧ e.crossings = s.dev.crossings) ∧
  (∀ (s : State) (lane : Fin 8) (j : BadgerJob) (r : Fin 4) (i : Nat), s.dev.Up → s.dev.badger.lanes.get lane = some j →
    j.src = .ring r i → i ≠ ringNext s.dev r → s.dev.badger.results = [] → Runs (.jobTimeout lane true) s fun e =>
      e.badger.lanes.get lane = none ∧ e.badger.results = [⟨j, 0x0F0E, [], none, none⟩] ∧ e.get F.BADGER_STATUS_LAST_CODE = 0x0F0E ∧
      (e.rd R.BADGER_ERR_CNT).toNat = min ((s.dev.rd R.BADGER_ERR_CNT).toNat + 1) 0xFFFFFFFF ∧ e.mem = s.dev.mem ∧
      e.crossings = s.dev.crossings) ∧
  (∀ s : State, s.dev.Up → s.dev.unitState .badger ≠ stOff → Runs .badgerAbort s fun e => e.unitState .badger = stAborting ∧
    e.badger.lanes = Vector.replicate 8 none ∧ e.badger.jobs = [] ∧ e.mem = s.dev.mem ∧ e.crossings = s.dev.crossings ∧
    RegsOutside [R.BADGER_STATUS, R.BADGER_QLEVEL, R.BADGER_r_STATUS 0, R.BADGER_r_STATUS 1, R.BADGER_r_STATUS 2, R.BADGER_r_STATUS 3] s.dev e)

/-- R363 to R367: training runs on the fitted channels it names and leaves each READY or not; a disable of a channel outside the
stripe puts it to self-refresh; the built-in stripe maps the READY channels. R368 to R375: measured rates, refreshes postponed under
Class D up to eight, temperature, neighbour refreshes, drift, power-down and self-refresh. -/
def Obligations.DramUpkeep : Prop :=
  ((∀ (s : State) (mask : BitVec 12), s.dev.Up →
    (dramUsersOff s.dev = true → s.dev.get F.CAP_STATUS_HOLDING = 0 → fabricDram s.dev = false → s.dev.ddr.training = none →
      hasPart s.dev .ddrSpeed = false → Runs (.ddrTrain mask) s fun e =>
        e.ddr = { s.dev.ddr with training := some (mask &&& BitVec.ofNat 12 (s.dev.get F.DDR_ORG_FITTED)) } ∧ e.regs = s.dev.regs ∧
        (∀ a, a < dramEnd ∨ stkBase ≤ a → e.byte a = s.dev.byte a) ∧ e.crossings = s.dev.crossings) ∧
    (s.dev.ddr.training ≠ none → Gives (.ddrTrain mask) s (s.dev.put F.DDR_STATUS_LAST_CODE 0x1004))) ∧
  (∀ (s : State) (mask ok un : BitVec 12), s.dev.Up → s.dev.get F.PWR_STATUS_PHASE = 8 → s.dev.get F.GLB_STATUS_READY = 1 →
    s.dev.ddr.training = some mask → s.dev.ddr.table ≠ none →
    (∀ n : Fin 12, mask.getLsbD n.val = true → (ok &&& ~~~un).getLsbD n.val = false → bitsOf (s.dev.get F.DDR_STRIPE_CH_NAMED) n.val n.val = 0) →
    Runs (.trainingDone ok un) s fun e => e.ddr = { s.dev.ddr with training := none } ∧ e.mem = s.dev.mem ∧
      (∀ n : Fin 12, bitsOf (e.get F.DDR_READY_READY) n.val n.val =
        if mask.getLsbD n.val then ((ok &&& ~~~un).getLsbD n.val).toNat else bitsOf (s.dev.get F.DDR_READY_READY) n.val n.val) ∧
      (∀ n : Fin 12, mask.getLsbD n.val = true → e.unitState (.ddr n) =
        if (ok &&& ~~~un).getLsbD n.val = true ∧ bitsOf (s.dev.cfg F.DDR_CTRL_EN) n.val n.val = 1 then stOn else stOff) ∧
      Says .q evDdrTrained 0 (e.get F.DDR_READY_READY + (mask &&& ~~~(ok &&& ~~~un)).toNat * 2 ^ 16) none s.dev e) ∧
  (∀ (s : State) (n : Fin 12), s.dev.Up → s.dev.unitState (.ddr n) = stOn → (s.dev.ddr.chans.get n).queue = [] →
    (bitsOf (s.dev.get F.DDR_STRIPE_CH_NAMED) n.val n.val = 1 → Gives (.ddrChAbort n) s s.dev) ∧
    (bitsOf (s.dev.get F.DDR_STRIPE_CH_NAMED) n.val n.val = 0 → Runs (.ddrChAbort n) s fun e => e.unitState (.ddr n) = stOff ∧
      bitsOf (e.get F.DDR_READY_SR) n.val n.val = 1 ∧ RegsOutside [R.DDR_CH_n_STATUS n, R.DDR_READY, R.DDR_STATUS] s.dev e ∧
      e.mem = s.dev.mem)) ∧
  (∀ (s : State) (v : Word) (seq : Nat), s.dev.Up → s.dev.cfgc.parts = [⟨.ddrStripe, R.DDR_STRIPE, v⟩] →
    s.dev.cfgc.waits = [⟨seq, [.ddrStripe], false⟩] → v.getLsbD 31 = false → dramUsersOff s.dev = true → fabricDram s.dev = false →
    (∀ n, (s.dev.ddr.chans.get n).queue = []) →
    Runs .stripeApply s fun e => e.ef R.DDR_STRIPE = v ∧ e.ddr.table = none ∧
      e.get F.DDR_STRIPE_CH_NAMED = s.dev.get F.DDR_READY_READY ∧ e.get F.DDR_STRIPE_CH_GRAIN_LOG = 13 ∧
      e.get F.DDR_STATUS_BUILTIN = 1 ∧ e.get F.DDR_STATUS_STRIPE_PENDING = 0 ∧
      e.ddr.span = (channels.filter (fun n => bitsOf (s.dev.get F.DDR_READY_READY) n.val n.val == 1)).length * chanBytes s.dev ∧
      (∀ a, dramEnd ≤ a → e.byte a = s.dev.byte a) ∧
      e.crossings = ((s.dev.post .q evCfgApplied 0 seq).post .q evDdrStripe 0 (s.dev.get F.DDR_READY_READY + 13 * 2 ^ 16)).crossings)) ∧
  ((∀ (s : State) (n : Fin 12) (r : Nat), s.dev.Up → Gives (.rateWindowEnd n none) s s.dev ∧ Runs (.rateWindowEnd n (some r)) s fun e =>
    e.get (F.DDR_CH_n_RATE_RATE n) = min r 2047 ∧
    (e.get (F.DDR_CH_n_STATUS_SLOW n) = 1 ↔ min r 2047 < s.dev.cfg F.DDR_RATE_CFG_SLOW_TH) ∧
    RegsOutside [R.DDR_CH_n_RATE n, R.DDR_CH_n_STATUS n] s.dev e ∧
    (if min r 2047 < s.dev.cfg F.DDR_RATE_CFG_SLOW_TH ∧ s.dev.get (F.DDR_CH_n_STATUS_SLOW n) = 0 then
      Says .q evDdrSlow n.val (min r 2047) none s.dev e else e.crossings = s.dev.crossings)) ∧
  (∀ (s : State) (n : Fin 12) (rank : Fin 2), s.dev.Up → selfRefresh s.dev n = false → rank.val < (ddrOrgOf s.dev).ranks →
    Runs (.refreshDue n rank) s fun e =>
      ((e.ddr.chans.get n).postponed.get rank = if (s.dev.ddr.chans.get n).classD = true ∧ (s.dev.ddr.chans.get n).postponed.get rank < 8
        then (s.dev.ddr.chans.get n).postponed.get rank + 1 else 0) ∧
      ((s.dev.ddr.chans.get n).classD = false → ∀ k ∈ (e.ddr.chans.get n).rows, k.1.1 ≠ rank.val) ∧
      (e.rd (R.DDR_CH_n_FORCED_CNT n) = if (s.dev.ddr.chans.get n).classD = true ∧ 8 ≤ (s.dev.ddr.chans.get n).postponed.get rank
        then BitVec.ofNat 32 (min ((s.dev.rd (R.DDR_CH_n_FORCED_CNT n)).toNat + 1) 0xFFFFFFFF) else s.dev.rd (R.DDR_CH_n_FORCED_CNT n)) ∧
      RegsOutside [R.DDR_CH_n_STATUS n, R.DDR_CH_n_FORCED_CNT n] s.dev e ∧ e.mem = s.dev.mem ∧ e.crossings = s.dev.crossings) ∧
  (∀ (s : State) (n : Fin 12), s.dev.Up → Runs (.classDQuiet n) s fun e => (e.ddr.chans.get n).classD = false ∧
    (e.ddr.chans.get n).postponed.get 0 = 0 ∧ (e.ddr.chans.get n).postponed.get 1 = 0 ∧ e.get (F.DDR_CH_n_STATUS_POSTPONED n) = 0 ∧
    RegsOutside [R.DDR_CH_n_STATUS n] s.dev e) ∧
  (∀ (s : State) (n : Fin 12) (level : Fin 3), s.dev.Up → Runs (.ddrTempChange n level) s fun e =>
    (e.ddr.chans.get n).temp = level ∧ e.get (F.DDR_CH_n_STATUS_HOT n) = (decide (level ≠ 0)).toNat ∧
    (e.get F.PWR_STATUS_LEVEL = s.dev.get F.PWR_STATUS_LEVEL →
      if level = (s.dev.ddr.chans.get n).temp ∨ level = 1 ∧ (s.dev.ddr.chans.get n).temp = 2 then e.crossings = s.dev.crossings
      else if level = 2 ∧ (s.dev.ddr.chans.get n).temp = 0 then
        e.crossings = ((s.dev.post .q evDdrHot n.val 1).post .q evDdrHot n.val 2).crossings
      else Says .q evDdrHot n.val level.val none s.dev e) ∧
    RegsOutside [R.DDR_CH_n_STATUS n, R.PWR_STATUS] s.dev e) ∧
  (∀ (s : State) (n : Fin 12) (rank : Fin 2) (sub bank : Nat), s.dev.Up → rank.val < (ddrOrgOf s.dev).ranks →
    s.dev.cfgB F.DDR_CTRL_NR_EN = true → Runs (.neighbourRefresh n rank sub bank) s fun e =>
      (∀ k ∈ (e.ddr.chans.get n).rows, k.1 ≠ (rank.val, sub, bank)) ∧
      (e.rd (R.DDR_CH_n_NRR_CNT n)).toNat = min ((s.dev.rd (R.DDR_CH_n_NRR_CNT n)).toNat + 1) 0xFFFFFFFF ∧
      RegsOutside [R.DDR_CH_n_NRR_CNT n] s.dev e ∧ e.mem = s.dev.mem) ∧
  (∀ (s : State) (n : Fin 12), s.dev.Up → selfRefresh s.dev n = false →
    Gives (.retrain n true) s ((s.dev.put (F.DDR_CH_n_STATUS_DRIFT n) 1).post .q evDdrDrift n.val 0) ∧ Gives (.retrain n false) s s.dev) ∧
  (∀ (s : State) (n : Fin 12) (rank : Fin 2), s.dev.Up → (s.dev.ddr.chans.get n).queue = [] →
    (s.dev.cfg F.DDR_PD_PD_IDLE ≠ 0 → rank.val < (ddrOrgOf s.dev).ranks → Runs (.powerDownEntry n rank) s fun e => (e.ddr.chans.get n).pd.get rank = true ∧
      (∀ k ∈ (e.ddr.chans.get n).rows, k.1.1 ≠ rank.val) ∧ e.regs = s.dev.regs ∧ e.mem = s.dev.mem) ∧
    (s.dev.cfg F.DDR_PD_SR_IDLE ≠ 0 → bitsOf (s.dev.get F.DDR_READY_READY) n.val n.val = 1 → Runs (.selfRefreshEntry n) s fun e => bitsOf (e.get F.DDR_READY_SR) n.val n.val = 1 ∧
      RegsOutside [R.DDR_READY] s.dev e ∧ e.mem = s.dev.mem)))

/-- R237, R371, R375, R376, R379, R380: a burst request, or a context's access to DRAM, wakes and queues at its channel; its service
reads the burst, writes it, or merges the enabled bytes; errors are counted and reported, and an uncorrectable read is marked. -/
def Obligations.DramBursts : Prop :=
  (∀ (s : State) (r : DdrReq), s.dev.Up → r.ctx = none → r.addr % 64 = 0 → r.addr + 64 ≤ s.dev.ddr.span →
    (s.dev.ddr.chans.get (dramMap s.dev r.addr).1).queue.length < 64 →
    Runs (.ddrRequest r) s fun e =>
      (e.ddr.chans.get (dramMap s.dev r.addr).1).queue = (s.dev.ddr.chans.get (dramMap s.dev r.addr).1).queue ++
        [{ r with urgent := r.classD && ddrPressure s.dev }] ∧
      bitsOf (e.get F.DDR_READY_SR) (dramMap s.dev r.addr).1.val (dramMap s.dev r.addr).1.val = 0 ∧
      (∀ m, m ≠ (dramMap s.dev r.addr).1 → e.ddr.chans.get m = s.dev.ddr.chans.get m) ∧ RegsOutside [R.DDR_READY] s.dev e ∧
      e.mem = s.dev.mem) ∧
  (∀ (s : State) (r : DdrReq) (n : Fin 8) (op : MemOp) (g : Fin 16) (a : Nat), s.dev.Up → r.ctx = some n →
    (s.dev.ctx n).busy = .fabric op g a → waitsAtDdr s.dev n = false → a / 64 * 64 + 64 ≤ s.dev.ddr.span →
    (s.dev.ddr.chans.get (dramMap s.dev (a / 64 * 64)).1).queue.length < 64 →
    Runs (.ddrRequest r) s fun e => (e.ddr.chans.get (dramMap s.dev (a / 64 * 64)).1).queue =
        (s.dev.ddr.chans.get (dramMap s.dev (a / 64 * 64)).1).queue ++
          [{ accessReq n op ((s.dev.ctx n).reg g) a with addr := a / 64 * 64 }] ∧
      waitsAtDdr e n = true ∧ RegsOutside [R.DDR_READY] s.dev e ∧ e.mem = s.dev.mem ∧ e.aqs = s.dev.aqs) ∧
  (∀ (s : State) (n : Fin 12) (r : DdrReq) (o : EccOutcome), s.dev.Up → (s.dev.ddr.chans.get n).queue = [r] →
    (s.dev.ddr.chans.get n).poison = [] → s.dev.unitState (.ddr n) = stOn →
    (r.write = true → r.be = BitVec.allOnes 64 → r.data.length = 64 → Runs (.burstService n o) s fun e =>
      e.loadBytes r.addr 64 = r.data ∧ MemoryOutside r.addr 64 s.dev e ∧ (e.ddr.chans.get n).queue = [] ∧ e.regs = s.dev.regs ∧
      e.crossings = s.dev.crossings) ∧
    (r.write = true → r.be ≠ BitVec.allOnes 64 → r.data.length = 64 → Runs (.burstService n .ok) s fun e =>
      (∀ k : Fin 64, e.byte (r.addr + k.val) = if r.be.getLsbD k.val then r.data.getD k.val 0 else s.dev.byte (r.addr + k.val)) ∧
      MemoryOutside r.addr 64 s.dev e ∧ (e.ddr.chans.get n).queue = [] ∧ e.regs = s.dev.regs) ∧
    (r.write = false → Runs (.burstService n .ok) s fun e => e.ddr.out = s.dev.loadBytes r.addr 64 ∧ e.ddr.outPoisoned = false ∧
      (e.ddr.chans.get n).queue = [] ∧ e.mem = s.dev.mem ∧ e.regs = s.dev.regs ∧ e.crossings = s.dev.crossings) ∧
    (r.write = false → Runs (.burstService n .uncorrectable) s fun e => e.ddr.outPoisoned = true ∧
      (e.rd (R.DDR_CH_n_UE_CNT n)).toNat = min ((s.dev.rd (R.DDR_CH_n_UE_CNT n)).toNat + 1) 0xFFFFFFFF ∧
      e.rd64 (R.DDR_CH_n_UE_ADDR_LO n) = r.addr % 2 ^ 64 ∧ e.get (F.DDR_CH_n_STATUS_LAST_CODE n) = 0x1005 ∧
      Says .q evDdrUe n.val r.addr none s.dev e ∧ e.mem = s.dev.mem))

/-- R388 to R398, R403: handover, doorbell, CLEAR, ABORT and time-outs of a channel; a fetched descriptor begins or ends the chain;
a burst copies its bytes and nothing else; the write-back reports and clears OWN. -/
def Obligations.DmaChains : Prop :=
  (∀ (s : State) (n : Fin 32) (head : Word64), s.dev.Up →
    (handoverCode n head.toNat s.dev = 0 → Runs (.chainHandover n head) s fun e => e.rd64 (R.BEAVER_CH_n_CUR_LO n) = head.toNat ∧
      e.rd64 (R.BEAVER_CH_n_HEAD_LO n) = head.toNat ∧ chanRun e n = runRunning ∧ e.unitState (.beaver n) = stOn ∧
      e.beaver.chans.get n = {} ∧ e.mem = s.dev.mem ∧ e.crossings = s.dev.crossings ∧
      RegsOutside [R.BEAVER_CH_n_STATUS n, R.BEAVER_STATUS, R.BEAVER_CH_n_CUR_LO n, R.BEAVER_CH_n_CUR_LO n + 4,
        R.BEAVER_CH_n_HEAD_LO n, R.BEAVER_CH_n_HEAD_LO n + 4] s.dev e) ∧
    (chanEnabled s.dev n = false → Runs (.chainHandover n head) s fun e => e.get (F.BEAVER_CH_n_STATUS_LAST_CODE n) = 0x110C ∧
      chanRun e n = chanRun s.dev n ∧ e.beaver = s.dev.beaver)) ∧
  (∀ (s : State) (n : Fin 32), s.dev.Up →
    (chanRun s.dev n = runRunning → Gives (.beaverDoorbell n) s (s.dev.put (F.BEAVER_CH_n_STATUS_DB_PENDING n) 1)) ∧
    (chanRun s.dev n = runIdle → chanEnabled s.dev n = true → Runs (.beaverDoorbell n) s fun e => chanRun e n = runRunning ∧
      e.rd64 (R.BEAVER_CH_n_CUR_LO n) = s.dev.rd64 (R.BEAVER_CH_n_CUR_LO n)) ∧
    (chanRun s.dev n = runHalted → schedNames s.dev n = false → Runs (.beaverClear n) s fun e => chanRun e n = runIdle ∧
      RegsOutside [R.BEAVER_CH_n_STATUS n, R.BEAVER_STATUS] s.dev e ∧ e.mem = s.dev.mem)) ∧
  (∀ (s : State) (n : Fin 32), s.dev.Up → s.dev.unitState (.beaver n) = stOn → (s.dev.beaver.chans.get n).desc = none →
    chanClassD s.dev n = false → ∀ p ∈ [(Instr.beaverChAbort n, 0x110A), (Instr.beaverAbort, 0x110A),
      (Instr.dmaTimeout n 0 (2 ^ s.dev.cfg (F.BEAVER_CH_n_CFG_TO_LOG n)) false, 0x1106)],
    (p.1 = .beaverAbort → ∀ m, m ≠ n → s.dev.unitState (.beaver m) = stOff) →
    Runs p.1 s fun e => chanRun e n = runHalted ∧ e.unitState (.beaver n) = stOff ∧ e.get (F.BEAVER_CH_n_STATUS_LAST_CODE n) = p.2 ∧
      Says .c evDmaErr n.val (p.2 + 0xFFFF * 2 ^ 32) none s.dev e ∧ RegsOutside [R.BEAVER_CH_n_STATUS n, R.BEAVER_STATUS] s.dev e ∧
      e.mem = s.dev.mem) ∧
  (∀ (s : State) (n : Fin 32) (w : Nat) (responds : Bool), s.dev.Up → s.dev.unitState (.beaver n) = stOn →
    2 ^ s.dev.cfg (F.BEAVER_CH_n_CFG_TO_LOG n) ≤ w → chanClassD s.dev n = false →
    ((s.dev.beaver.chans.get n).desc = none ∨ (s.dev.beaver.chans.get n).wb ≠ none →
      Runs (.dmaTimeout n (if (s.dev.beaver.chans.get n).desc = none then 0 else 1) w responds) s fun e => chanRun e n = runHalted ∧
        e.unitState (.beaver n) = stOff ∧ e.get (F.BEAVER_CH_n_STATUS_LAST_CODE n) = 0x1106 ∧ e.mem = s.dev.mem) ∧
    (chanMoving s.dev n = true → Gives (.dmaTimeout n 2 w true) s (s.dev.setChan n { s.dev.beaver.chans.get n with wb := some 0x1107 }) ∧
      Runs (.dmaTimeout n 2 w false) s fun e => chanRun e n = runHalted ∧ e.unitState (.beaver n) = stOff ∧
        e.get (F.BEAVER_CH_n_STATUS_LAST_CODE n) = 0x1107 ∧ e.mem = s.dev.mem)) ∧
  (∀ (s : State) (n : Fin 32) (host : List Byte), s.dev.Up → s.dev.unitState (.beaver n) = stOn → s.dev.beaver.chans.get n = {} →
    chanClassD s.dev n = false → hasPart s.dev (.beaverCh n) = false → s.dev.cfg (F.BEAVER_CH_n_CFG_HOP_LIMIT n) = 0 →
    schedNames s.dev n = false → spaceReadable s.dev (chanCur s.dev n) 64 = true → hostBlocked s.dev (chanCur s.dev n) = false →
    (isHost (chanCur s.dev n) = false ∨ 64 ≤ host.length) →
    let d := issueRead (chanCur s.dev n) 64 s.dev
    let x := parseDesc (spaceLoad s.dev (chanCur s.dev n) 64 host)
    (x.own = false → s.dev.get (F.BEAVER_CH_n_STATUS_DB_PENDING n) = 1 →
      Gives (.descFetch n host) s (d.put (F.BEAVER_CH_n_STATUS_DB_PENDING n) 0)) ∧
    (x.own = false → s.dev.get (F.BEAVER_CH_n_STATUS_DB_PENDING n) = 0 → Runs (.descFetch n host) s fun e => chanRun e n = runIdle ∧
      e.unitState (.beaver n) = stOff ∧ Says .c evDmaIdle n.val (chanCur s.dev n) none s.dev e ∧ e.mem = s.dev.mem) ∧
    (x.own = true → descCode x (reservedZero (spaceLoad s.dev (chanCur s.dev n) 64 host)) false = 0 → extentCode s.dev x = 0 →
      Gives (.descFetch n host) s (d.setChan n { desc := some x }))) ∧
  (∀ (s : State) (n : Fin 32) (ready : BitVec 32) (x : DmaDesc) (host : List Byte), s.dev.Up → dmaWinner s.dev ready = some n →
    (s.dev.beaver.chans.get n).desc = some x → (s.dev.beaver.chans.get n).block = none → (s.dev.beaver.chans.get n).aborting = false →
    x.xform = 0 → x.srcCount = 1 → x.dstCount = 1 → x.srcLine = x.dstLine → x.dst < x.src → x.src + x.dstLine ≤ 2 ^ 48 →
    (s.dev.beaver.chans.get n).done < x.dstLine → chanClassD s.dev n = false → (∀ m, (s.dev.ddr.chans.get m).poison = []) →
    let done := (s.dev.beaver.chans.get n).done
    let k := min (64 - (x.dst + done) % 64) (x.dstLine - done)
    spaceWritable s.dev (x.dst + done) k = true → spaceReadable s.dev (x.src + done) 1 = true →
    Runs (.beaverBurst ready host .none) s fun e => e.loadBytes (x.dst + done) k = s.dev.loadBytes (x.src + done) k ∧
      MemoryOutside (x.dst + done) k s.dev e ∧ (e.beaver.chans.get n).done = done + k ∧
      (e.beaver.chans.get n).wb = (if done + k = x.dstLine then some 0 else (s.dev.beaver.chans.get n).wb) ∧
      e.rd64 R.BEAVER_BYTES_LO = (s.dev.rd64 R.BEAVER_BYTES_LO + k) % 2 ^ 64 ∧ e.crossings = s.dev.crossings) ∧
  (∀ (d : Dev) (ready : BitVec 32) (n m : Fin 32), dmaWinner d ready = some n → chanMoving d n = true ∧ ready.getLsbD n.val = true ∧
    (d.beaver.urgent = [] → ready.getLsbD m.val = true → chanMoving d m = true → waitsForHost d m = false →
      (chanClassD d m = false → (readsCapture d m && captureBusy d) = false) →
      (chanClassD d m = true → chanClassD d n = true) ∧
      (chanClassD d m = chanClassD d n → d.cfg (F.BEAVER_CH_n_CFG_PRIO m) ≤ d.cfg (F.BEAVER_CH_n_CFG_PRIO n)))) ∧
  (∀ (s : State) (n : Fin 32) (x : DmaDesc), s.dev.Up → (s.dev.beaver.chans.get n).desc = some x → (s.dev.beaver.chans.get n).wb = some 0 →
    (s.dev.beaver.chans.get n).blockPipe = none → x.ctrl < 2 ^ 32 → x.last = true → x.ev = true → schedNames s.dev n = false →
    s.dev.unitState (.beaver n) ≠ stAborting → chanCur s.dev n + 64 ≤ 2 ^ 63 → spaceWritable s.dev (chanCur s.dev n) 64 = true →
    spaceWritable s.dev (chanCur s.dev n) 4 = true → spaceWritable s.dev (chanCur s.dev n + 0x38) 8 = true →
    Runs (.descWriteback n) s fun e => e.load (chanCur s.dev n) 4 = setBits x.ctrl 31 31 0 ∧ e.load (chanCur s.dev n + 0x38) 2 = 0 ∧
      e.load (chanCur s.dev n + 0x3C) 4 = (s.dev.beaver.chans.get n).done % 2 ^ 32 ∧ MemoryOutside (chanCur s.dev n) 64 s.dev e ∧
      chanRun e n = runIdle ∧ e.rd64 (R.BEAVER_CH_n_CUR_LO n) = x.next % 2 ^ 64 ∧ (e.beaver.chans.get n).desc = none ∧
      (e.rd (R.BEAVER_CH_n_DONE_CNT n)).toNat = min ((s.dev.rd (R.BEAVER_CH_n_DONE_CNT n)).toNat + 1) 0xFFFFFFFF ∧
      e.crossings = ((s.dev.post .c evDmaDesc n.val x.tag).post .c evDmaIdle n.val (x.next % 2 ^ 64)).crossings)

/-- R399 to R402: a block that fits goes into its channel's FEED descriptor; an occurrence of a step's event starts its run on a
free channel or is counted; the last run of the last step ends the schedule. R38: a request that has waited its threshold is urgent,
behind the urgent ones before it; before that it is not. -/
def Obligations.DmaSchedules : Prop :=
  ((∀ (s : State) (n : Fin 32) (x : DmaDesc) (o : BadgerOut), s.dev.Up → (s.dev.beaver.chans.get n).desc = some x → x.xform = 4 →
    (s.dev.beaver.chans.get n).wb = none → (s.dev.beaver.chans.get n).block = none → s.dev.badger.outQ = [o] → o.chan = n.val →
    (o.bytes.length ≤ x.dstLen → Gives (.blockOffer n) s (s.dev.setChan n { s.dev.beaver.chans.get n with
      block := some o.bytes, blockPipe := some none })) ∧
    (x.dstLen < o.bytes.length → chanClassD s.dev n = false →
      Gives (.blockOffer n) s ((closeRequest s.dev).setChan n { s.dev.beaver.chans.get n with wb := some 0x110B }))) ∧
  (∀ (s : State) (num : BitVec 12) (n : Fin 32), s.dev.Up → s.dev.beaver.sched.on = true → s.dev.beaver.sched.done = false →
    schedEvent s.dev s.dev.beaver.sched.off s.dev.beaver.sched.step = num.toNat → num ≠ 0 →
    schedChannel s.dev s.dev.beaver.sched.off s.dev.beaver.sched.step = n.val →
    (s.dev.beaver.sched.running = true → s.dev.beaver.sched.waiting < 65535 → Gives (.schedStepLaunch num) s { s.dev with
      beaver := { s.dev.beaver with sched := { s.dev.beaver.sched with waiting := s.dev.beaver.sched.waiting + 1 } } }) ∧
    (s.dev.beaver.sched.running = false → s.dev.beaver.sched.waiting = 0 → chanRun s.dev n = runSched → s.dev.unitState (.beaver n) = stOff →
      Runs (.schedStepLaunch num) s fun e => chanClassD e n = true ∧ e.unitState (.beaver n) = stOn ∧ e.beaver.sched.running = true ∧
        (e.beaver.chans.get n).schedIdx = schedDesc s.dev s.dev.beaver.sched.off s.dev.beaver.sched.step ∧
        RegsOutside [R.BEAVER_CH_n_STATUS n, R.BEAVER_STATUS] s.dev e ∧ e.mem = s.dev.mem)) ∧
  (∀ (s : State) (n : Fin 32), s.dev.Up → (s.dev.beaver.chans.get n).runDone = true → s.dev.beaver.sched.on = true →
    s.dev.beaver.sched.running = true → s.dev.beaver.sched.rearm = false → hasPart s.dev (.beaverCh n) = false →
    schedRepeat s.dev s.dev.beaver.sched.off s.dev.beaver.sched.step = s.dev.beaver.sched.run + 1 →
    bitsOf (schedFlags s.dev s.dev.beaver.sched.off s.dev.beaver.sched.step) 0 0 = 1 →
    Runs (.schedRunDone n) s fun e => e.beaver.sched.done = true ∧ e.beaver.sched.running = false ∧ chanClassD e n = false ∧
      e.unitState (.beaver n) = stOff ∧ e.get F.BEAVER_SCHED_STATUS_DONE = 1 ∧
      e.crossings = ((s.dev.post .c evDmaStep 0 (s.dev.beaver.sched.step + (s.dev.beaver.sched.run + 1) * 2 ^ 32)).post .c
        evDmaSchedDone 0 s.dev.beaver.sched.arm).crossings ∧ e.mem = s.dev.mem)) ∧
  ((∀ (s : State) (n : Fin 32) (w : Nat), s.dev.Up → s.dev.cfg F.BEAVER_ARB_AGE ≤ w → chanMoving s.dev n = true → n ∉ s.dev.beaver.urgent →
    Gives (.agePromote (.beaver n) w) s { s.dev with beaver := { s.dev.beaver with urgent := s.dev.beaver.urgent ++ [n] } }) ∧
  (∀ (s : State) (n : Fin 32) (w : Nat), s.dev.Up → w < s.dev.cfg F.BEAVER_ARB_AGE → Gives (.agePromote (.beaver n) w) s s.dev) ∧
  (∀ (s : State) (n : Fin 12) (k w : Nat) (r : DdrReq), s.dev.Up → (s.dev.ddr.chans.get n).queue[k]? = some r →
    (if r.host then s.dev.cfg F.DDR_ARB_HOST_AGE else s.dev.cfg F.DDR_ARB_AGE) ≤ w →
    Runs (.agePromote (.ddr n k) w) s fun e => (e.ddr.chans.get n).queue[k]? = some { r with urgent := true } ∧
      (∀ j, j ≠ k → (e.ddr.chans.get n).queue[j]? = (s.dev.ddr.chans.get n).queue[j]?) ∧ e.regs = s.dev.regs ∧ e.mem = s.dev.mem) ∧
  (∀ (s : State) (x : JobSrc) (w : Nat), s.dev.Up → 160 ≤ w → x ∉ s.dev.badger.urgent →
    Gives (.agePromote (.badger x) w) s { s.dev with badger := { s.dev.badger with urgent := s.dev.badger.urgent ++ [x] } }) ∧
  (∀ (s : State) (p : Port) (k w : Nat) (f : IflFrame), s.dev.Up → (s.dev.port p).queue[k]? = some f → 10 * s.dev.cfg F.IFL_RING_AGE ≤ w →
    Runs (.agePromote (.ring p k) w) s fun e => (e.port p).queue[k]? = some { f with urgent := true } ∧
      (∀ j, j ≠ k → (e.port p).queue[j]? = (s.dev.port p).queue[j]?) ∧ e.regs = s.dev.regs ∧ e.mem = s.dev.mem) ∧
  (∀ (s : State) (n : Fin 8) (b : Fin 22) (w : Nat), s.dev.Up → 32 ≤ w → onBus s.dev n b.val = true → (n, b.val) ∉ s.dev.aqs.urgent →
    Gives (.agePromote (.aqs n b) w) s { s.dev with aqs := { s.dev.aqs with urgent := s.dev.aqs.urgent ++ [(n, b.val)] } }))

/-- R425, R436, R439 to R441, R457: ports come up and fall, a LINK flit tells its neighbour and quarantines one of another level, a
fallen edge of a CLOSED ring becomes a fold end, a healed port returns, quarantine and release, ABORT closes the bypass. -/
def Obligations.RingPorts : Prop :=
  (∀ (s : State) (p : Port), s.dev.Up → joined s.dev p.pair = true → portUp s.dev p = false → quarantined s.dev p = false →
    (s.dev.port p).level ≠ none → neighbourFault s.dev p = 0 → pairRing s.dev p.pair ≠ rFolded →
    s.dev.cfgB (F.IFL_x_CFG_ASYM_SRC p.pair) = true →
    Runs (.portUp p) s fun e => e.get (Port.up p) = 1 ∧ (e.port p).hold = false ∧ (e.port p).foldDue = false ∧
      Says .t evRingPort p.val 1 none s.dev e ∧ RegsOutside [R.IFL_x_STATUS p.pair] s.dev e ∧ e.mem = s.dev.mem) ∧
  (∀ (s : State) (p q : Port), s.dev.Up → portUp s.dev p = true → timePort s.dev = some q → q ≠ p →
    Runs (.portDown p) s fun e => e.get (Port.up p) = 0 ∧ ((e.port p).foldDue = true ↔ pairRing s.dev p.pair = rClosed) ∧
      Says .t evRingPort p.val 0 none s.dev e ∧ RegsOutside [R.IFL_x_STATUS p.pair] s.dev e ∧ e.mem = s.dev.mem) ∧
  (∀ (s : State) (p : Port) (f : LinkFlit) (bad : Nat), s.dev.Up → (s.dev.port p).badAt = [] → bad < 1024 → joined s.dev p.pair = true → portUp s.dev p = false →
    quarantined s.dev p = false → f.valid = true → f.addr < 2 ^ 18 → ringUpper p.pair f.addr = ringUpper p.pair (ownAddr s.dev) →
    ringIndex p.pair f.addr ≠ ringIndex p.pair (ownAddr s.dev) →
    Runs (.linkRx p f bad) s fun e => (e.rd (Port.nbr p)).toNat = 2 ^ 31 + f.addr ∧ (e.port p).level = some f.level ∧
      (e.port p).nbrTxDly = f.txDly ∧ (e.port p).returned = f.credits ∧
      (f.level = p.pair.val → RegsOutside [Port.nbr p, R.IFL_x_ERR_CNT p.pair] s.dev e ∧ e.crossings = s.dev.crossings) ∧
      (e.rd (R.IFL_x_ERR_CNT p.pair)).toNat = min ((s.dev.rd (R.IFL_x_ERR_CNT p.pair)).toNat + bad) 0xFFFFFFFF ∧
      (f.level ≠ p.pair.val → e.get (Port.reason p) = 5 ∧ Says .t evRingQuarantine p.val 5 none s.dev e)) ∧
  (∀ (s : State) (p : Port), s.dev.Up → joined s.dev p.pair = true → (s.dev.port p).foldDue = true →
    Runs (.foldEnd p) s fun e => (e.port p).foldDue = false ∧
      e.get (if p.east then F.IFL_x_FOLD_FOLD_W p.pair else F.IFL_x_FOLD_FOLD_E p.pair) = ringIndex p.pair (ownAddr s.dev) ∧
      Says .t evRingFold p.pair.val ((e.rd (R.IFL_x_FOLD p.pair)).toNat % 2 ^ 16) none s.dev e ∧
      RegsOutside [R.IFL_x_FOLD p.pair, R.IFL_x_STATUS p.pair] s.dev e) ∧
  (∀ (s : State) (p : Port), s.dev.Up → joined s.dev p.pair = true → portUp s.dev p = true → (s.dev.port p).hold = true →
    Runs (.heal p) s fun e => (e.port p).hold = false ∧ e.rd (R.IFL_x_FOLD p.pair) = 0xFFFF#32 ∧
      pairRing e p.pair = (if carries s.dev p.other then rClosed else rFolded) ∧ Says .t evRingHeal p.pair.val 0 none s.dev e ∧
      RegsOutside [R.IFL_x_FOLD p.pair, R.IFL_x_STATUS p.pair] s.dev e) ∧
  (∀ (s : State) (x : Fin 3), s.dev.Up → joined s.dev x = true → ∀ c ∈ [(Instr.quarW x, Port.of x false), (Instr.quarE x, Port.of x true)],
    quarantined s.dev c.2 = false → portUp s.dev c.2 = false →
    Gives c.1 s ((s.dev.put (Port.reason c.2) 0xF).post .t evRingQuarantine c.2.val 0xF)) ∧
  (∀ (s : State) (x : Fin 3), s.dev.Up → ∀ c ∈ [(Instr.releaseW x, Port.of x false), (Instr.releaseE x, Port.of x true)],
    quarantined s.dev c.2 = true → Runs c.1 s fun e => quarantined e c.2 = false ∧ (e.port c.2).authAt = [] ∧ (e.port c.2).badAt = [] ∧
      RegsOutside [R.IFL_x_STATUS x] s.dev e ∧ e.crossings = s.dev.crossings) ∧
  (∀ (s : State) (x : Fin 3), s.dev.Up → joined s.dev x = true → Runs (.iflAbort x) s fun e => joined e x = false ∧
    pairRing e x = rOff ∧ e.unitState (.ifl x) = stOff ∧ e.rd (R.IFL_x_FOLD x) = 0xFFFF#32 ∧ (e.port (Port.of x false)).queue = [] ∧
    (e.port (Port.of x true)).queue = [] ∧ e.mem = s.dev.mem)

/-- R437, R442 to R446: an ANNOUNCE of a lower index is kept and passed on; each exchange period sends a REQ through the time port;
a REQ is answered, four per period; a RESP gives offset and delay; asymmetry is measured hop by hop and stored or discarded. -/
def Obligations.RingTime : Prop :=
  (∀ (s : State) (p : Port) (idx hops gmHops : Fin 256) (gm : Word) (steps : BitVec 16) (slew : Bool), s.dev.Up →
    carries s.dev p = true → carries s.dev p.other = true → idx.val < ringIndex p.pair (ownAddr s.dev) →
    lowestHeard s.dev p.pair = none → timePort s.dev ≠ some p →
    Runs (.announceRx p idx hops gm gmHops steps slew) s fun e => (e.port p).annAge = some 0 ∧ (e.port p).annIdx = idx.val ∧
      (e.port p).annHops = hops.val ∧ e.get (F.IFL_x_STATUS_MASTER p.pair) = 0 ∧
      (e.port p.other).out = .announce idx.val (min 255 (hops.val + 1)) gm.toNat gmHops.val steps.toNat slew :: (s.dev.port p.other).out ∧
      RegsOutside [R.IFL_x_STATUS p.pair] s.dev e ∧ e.crossings = s.dev.crossings) ∧
  (∀ (s : State) (p : Port) (t1 : TS), s.dev.Up → timePort s.dev = some p → carries s.dev p = true → (s.dev.port p).annAge = some 0 →
    (∀ x, joined s.dev x = true ↔ x = p.pair) → s.dev.ifl.heard.get p.pair = true → s.dev.ifl.since.get p.pair ≤ 1 →
    s.dev.ifl.better = 0 → s.dev.ifl.req = none → s.dev.ifl.accepted = false →
    Runs (.exchangePeriod t1) s fun e => (e.port p).out = .req (s.dev.ifl.reqSeq + 1).toNat t1 :: (s.dev.port p).out ∧
      e.ifl.req = some t1 ∧ e.ifl.reqSeq = s.dev.ifl.reqSeq + 1 ∧ timePort e = some p ∧ e.crossings = s.dev.crossings) ∧
  (∀ (s : State) (p : Port) (seq : BitVec 16) (t1 t2 t3 : TS), s.dev.Up → carries s.dev p = true →
    Runs (.timeReqRx p seq t1 t2 t3) s fun e =>
      if (s.dev.port p).answered < 4 then (e.port p).answered = (s.dev.port p).answered + 1 ∧ e.regs = s.dev.regs ∧
        (e.port p).out = .resp seq.toNat t1 t2 t3 (gmField s.dev) (s.dev.get F.IFL_GM_HOPS) s.dev.ifl.steps.toNat
          (s.dev.flag F.STAG_STATUS_SLEWING) :: (s.dev.port p).out
      else (e.rd (R.IFL_x_RATE_CNT p.pair)).toNat = min ((s.dev.rd (R.IFL_x_RATE_CNT p.pair)).toNat + 1) 0xFFFFFFFF ∧
        (e.port p).out = (s.dev.port p).out ∧ RegsOutside [R.IFL_x_RATE_CNT p.pair] s.dev e) ∧
  (∀ (s : State) (p : Port) (t1 t2 t3 t4 : TS) (gm : Word) (gmHops : Fin 256) (slew : Bool), s.dev.Up → carries s.dev p = true →
    timePort s.dev = some p → s.dev.ifl.req = some t1 → s.dev.ifl.offsets = [] → s.dev.ifl.present = false → s.dev.ifl.run = 0 →
    (t4.toNat : Int) - t1.toNat ≤ 256 * 2 ^ 32 →
    let a := signedOf 32 (s.dev.ef (Port.asym p)).toNat
    let o := (((t4.toNat : Int) - t3.toNat) - ((t2.toNat : Int) - t1.toNat) + a * 2 ^ 16) / 2
    let dl := (((t2.toNat : Int) - t1.toNat) + ((t4.toNat : Int) - t3.toNat)) / 2
    0 ≤ dl → dl ≤ 2 ^ 48 →
    Runs (.timeRespRx p s.dev.ifl.reqSeq t2 t3 t4 gm gmHops s.dev.ifl.steps slew) s fun e =>
      e.ifl.offsets = [o] ∧ e.ifl.delays = dl :: s.dev.ifl.delays ∧ e.ifl.req = none ∧ e.ifl.accepted = true ∧ e.ifl.run = 1 ∧
      e.rd64 R.IFL_TIME_OFFSET_LO = encodeSigned 64 o ∧ e.rd64 R.IFL_TIME_DELAY_LO = encodeSigned 64 dl ∧
      RegsOutside [R.IFL_TIME_OFFSET_LO, R.IFL_TIME_OFFSET_LO + 4, R.IFL_TIME_DELAY_LO, R.IFL_TIME_DELAY_LO + 4, R.IFL_GM] s.dev e) ∧
  (∀ (s : State) (p : Port) (seq : BitVec 16) (t1 t2 t3 t4 : TS) (gm : Word) (gmHops : Fin 256) (steps : BitVec 16) (slew : Bool), s.dev.Up →
    carries s.dev p = true → timePort s.dev = some p → s.dev.ifl.req = some t1 → seq ≠ s.dev.ifl.reqSeq → s.dev.ifl.rejects < 15 →
    s.dev.ifl.missed < 3 → Runs (.timeRespRx p seq t2 t3 t4 gm gmHops steps slew) s fun e => e.ifl.req = none ∧ e.ifl.run = 0 ∧
      e.ifl.steps = steps ∧ e.ifl.offsets = s.dev.ifl.offsets ∧ e.ifl.delays = s.dev.ifl.delays ∧ e.ifl.rejects = s.dev.ifl.rejects + 1 ∧
      (e.rd (R.IFL_x_TT_REJ p.pair)).toNat = min ((s.dev.rd (R.IFL_x_TT_REJ p.pair)).toNat + 1) 0xFFFFFFFF ∧
      RegsOutside [R.IFL_x_TT_REJ p.pair, R.IFL_GM] s.dev e) ∧
  (∀ (s : State) (x : Fin 3), s.dev.Up → joined s.dev x = true → s.dev.cfgB (F.IFL_x_CFG_ASYM_SRC x) = false →
    ∀ c ∈ [(Instr.asymCalW x, Port.of x false), (Instr.asymCalE x, Port.of x true)], portUp s.dev c.2 = true →
    (s.dev.port c.2).measuring = false → Gives c.1 s (s.dev.setPort c.2 { s.dev.port c.2 with
      measuring := true, acked := false, out := .reflectReq :: (s.dev.port c.2).out })) ∧
  (∀ (s : State) (p : Port), s.dev.Up → joined s.dev p.pair = true → quarantined s.dev p = false →
    (s.dev.port p).honoured = none → Gives (.reflectReqRx p) s (s.dev.setPort p { s.dev.port p with
      honoured := some (nowTick s.dev), out := .reflectAck :: (s.dev.port p).out })) ∧
  (∀ (s : State) (p : Port) (tx : Int), s.dev.Up → (s.dev.port p).measuring = true → (s.dev.port p).acked = true →
    (s.dev.port p).prevA = none →
    ((tx - (s.dev.port p).nbrTxDly).natAbs * 25 ≤ 65536 → s.dev.cfgB (F.IFL_x_CFG_ASYM_SRC p.pair) = false → Runs (.asymDone p tx) s fun e =>
      e.rd (Port.asym p) = BitVec.ofInt 32 (tx - (s.dev.port p).nbrTxDly) ∧ e.ef (Port.asym p) = e.rd (Port.asym p) ∧
      (e.port p).measuring = false ∧ Says .t evRingAsym p.val (encodeSigned 64 (tx - (s.dev.port p).nbrTxDly)) none s.dev e ∧
      RegsOutside [Port.asym p] s.dev e ∧ (∀ a, a ≠ Port.asym p → e.ef a = s.dev.ef a)) ∧
    (65536 < (tx - (s.dev.port p).nbrTxDly).natAbs * 25 → Runs (.asymDone p tx) s fun e => (e.port p).measuring = false ∧
      e.get (F.IFL_x_STATUS_LAST_CODE p.pair) = 0x130A ∧ e.eff = s.dev.eff ∧ e.crossings = s.dev.crossings)) ∧
  (∀ (s : State) (p : Port), s.dev.Up → (s.dev.port p).measuring = true → (s.dev.port p).acked = false → Runs (.asymTimeout p) s fun e =>
    (e.port p).measuring = false ∧ e.get (F.IFL_x_STATUS_LAST_CODE p.pair) = 0x130A ∧ e.get F.IFL_STATUS_LAST_CODE = 0x130A ∧
    RegsOutside [R.IFL_x_STATUS p.pair, R.IFL_STATUS] s.dev e ∧ e.crossings = s.dev.crossings)

/-- R432, R434, R448, R449, R451 to R453: a scheduled trigger is refused or leaves at the next tick, a copy for another module goes
on with one hop more; a frame is queued at its port, leaves against credits, is delivered into the receive ring, or is discarded and
counted. -/
def Obligations.RingMessages : Prop :=
  (∀ (s : State), s.dev.Up →
    let ts : TS := BitVec.ofNat 96 ((s.dev.rd (R.IFL_SCHED_TS 0)).toNat + 2 ^ 32 * (s.dev.rd (R.IFL_SCHED_TS 1)).toNat +
      2 ^ 64 * (s.dev.rd (R.IFL_SCHED_TS 2)).toNat)
    (TS.ticks ts < nowTick s.dev + s.dev.cfg F.IFL_SCHED_LEAD_MIN_LEAD → Gives .schedSend s (s.dev.put F.IFL_STATUS_LAST_CODE 0x1301)) ∧
    (nowTick s.dev + s.dev.cfg F.IFL_SCHED_LEAD_MIN_LEAD ≤ TS.ticks ts → TS.ticks ts ≤ nowTick s.dev + 2 ^ 32 → s.dev.ifl.sched = none →
      joined s.dev 0 = true → inScope (ownAddr s.dev) (s.dev.get F.IFL_SCHED_DEST_VALUE) (s.dev.get F.IFL_SCHED_MASK_VALUE) = false →
      Gives .schedSend s { s.dev with ifl := { s.dev.ifl with
        sched := some (s.dev.get F.IFL_SCHED_DEST_VALUE, s.dev.get F.IFL_SCHED_MASK_VALUE, ts) } })) ∧
  (∀ (s : State) (p : Port) (h : RouteHead) (ts : TS), s.dev.Up → carries s.dev p = true → 0 < (s.dev.port p).tokens →
    (∀ x, joined s.dev x = true ↔ x = p.pair) → carries s.dev p.other = true → h.looped = true → singleScope h.mask = true →
    inScope (ownAddr s.dev) h.dest h.mask = false → nowTick s.dev ≤ TS.ticks ts → TS.ticks ts ≤ nowTick s.dev + 2 ^ 32 →
    Runs (.schedRx p h p.pair.val ts) s fun e => (e.port p).tokens = (s.dev.port p).tokens - 1 ∧
      (e.port p.other).out = .sched h.flags p.pair.val (min 255 (h.hops + 1)) h.dest h.mask h.src ts :: (s.dev.port p.other).out ∧
      e.fox = s.dev.fox ∧ e.regs = s.dev.regs ∧ e.crossings = s.dev.crossings) ∧
  (∀ (s : State) (p : Port), s.dev.Up → (s.dev.port p).rated = false → (s.dev.port p).ratedAt = [] →
    Gives (.tokenRefill p) s (s.dev.setPort p { s.dev.port p with tokens := min 64 ((s.dev.port p).tokens + 1) })) ∧
  (∀ s : State, s.dev.Up → joined s.dev 0 = false → Gives .frameSend s (s.dev.put F.IFL_STATUS_LAST_CODE 0x1304)) ∧
  (∀ (s : State) (k : Nat), s.dev.Up → joined s.dev 0 = true → joined s.dev 1 = false → s.dev.ifl.sends = [] →
    let a := s.dev.rd64 R.IFL_TX_ADDR_LO / 64 * 64
    let head := s.dev.loadBytes a 64
    a < 2 ^ 63 → noHole s.dev a 64 = true → frameFormOk head = true → frameType head = 1 →
    noHole s.dev a (64 + frameLen head) = true → frameField head 8 4 = 0x3FFFF → pairRing s.dev 0 ≠ rFolded →
    carries s.dev (Port.of 0 true) = true → hopMeasured s.dev (Port.of 0 false) = false → 1 ≤ k → k ≤ 31 →
    ringUpper 0 (frameField head 4 4) = ringUpper 0 (ownAddr s.dev) →
    ringIndex 0 (frameField head 4 4) = (ringIndex 0 (ownAddr s.dev) + k) % 64 →
    Runs .frameSend s fun e => (∃ f, (e.port (Port.of 0 true)).queue = (s.dev.port (Port.of 0 true)).queue ++
        [⟨f, some (max (s.dev.ifl.seq + 1) (nowTick s.dev)), false, false⟩] ∧ f.drop 64 = s.dev.loadBytes (a + 64) (frameLen head) ∧
        frameField f 0x0C 4 = ownAddr s.dev ∧ frameField f 4 4 = frameField head 4 4 ∧ frameField f 0x1A 1 = 1) ∧
      (e.port (Port.of 0 false)).queue = (s.dev.port (Port.of 0 false)).queue ∧
      e.ifl.seq = max (s.dev.ifl.seq + 1) (nowTick s.dev) ∧ e.regs = s.dev.regs ∧ e.mem = s.dev.mem ∧ e.crossings = s.dev.crossings) ∧
  (∀ (s : State) (p : Port) (f : IflFrame), s.dev.Up → carries s.dev p = true → (s.dev.port p).queue = [f] → f.own = none →
    (s.dev.port p).sent = (s.dev.port p).returned → frameFlits f.bytes ≤ 256 →
    Gives (.frameSent p) s (s.dev.setPort p { s.dev.port p with
      queue := [], sent := (s.dev.port p).sent + BitVec.ofNat 16 (frameFlits f.bytes)
      out := .frame (f.bytes ++ leBytes 4 (crc32 f.bytes).toNat) :: (s.dev.port p).out })) ∧
  (∀ (s : State) (p : Port) (bytes : List Byte) (ts : TS), s.dev.Up → carries s.dev p = true →
    let b := bytes.take (64 + frameLen bytes)
    (bytes.length ≠ 68 + frameLen bytes → Runs (.frameRx p bytes ts) s fun e =>
      (e.rd (R.IFL_x_ERR_CNT p.pair)).toNat = min ((s.dev.rd (R.IFL_x_ERR_CNT p.pair)).toNat + 1) 0xFFFFFFFF ∧
      (e.port p).freed = (s.dev.port p).freed + BitVec.ofNat 16 (frameFlits b) ∧ RegsOutside [R.IFL_x_ERR_CNT p.pair] s.dev e ∧
      e.mem = s.dev.mem ∧ e.crossings = s.dev.crossings) ∧
    (bytes.length = 68 + frameLen bytes → leNat (bytes.drop (64 + frameLen bytes)) = (crc32 b).toNat → frameFormOk b = true →
      frameType b = 1 → frameField b 1 1 = 1 → frameField b 0x0C 4 < 2 ^ 18 → frameField b 0x18 1 = 0 → frameField b 0x20 16 = 0 →
      frameField b 8 4 = 0x3FFFF → frameField b 4 4 = ownAddr s.dev → s.dev.rd R.IFL_RX_RD = s.dev.rd R.IFL_RX_WR →
      let slot := s.dev.cf64 R.IFL_RX_BASE_LO + 2048 * ((s.dev.rd R.IFL_RX_WR).toNat % 2 ^ s.dev.cfg F.IFL_RX_CFG_SIZE_LOG)
      inDramOrData s.dev slot 2048 = true → s.dev.ddr.span ≤ dramEnd → Runs (.frameRx p bytes ts) s fun e =>
        e.loadBytes slot 64 = b.take 64 ∧ e.loadBytes (slot + 64) (frameLen b) = b.drop 64 ∧ MemoryOutside slot 2048 s.dev e ∧
        e.rd R.IFL_RX_WR = s.dev.rd R.IFL_RX_WR + 1 ∧
        Says .t evRingRx 1 (s.dev.rd R.IFL_RX_WR + 1).toNat none s.dev e ∧ RegsOutside [R.IFL_RX_WR] s.dev e)) ∧
  (∀ (s : State) (p : Port) (k : Nat) (f : IflFrame), s.dev.Up → (s.dev.port p).queue[k]? = some f → f.own = none → carries s.dev p = false →
    Runs (.frameAgeDrop p k) s fun e => (e.port p).queue = (s.dev.port p).queue.eraseIdx k ∧
      (e.rd (R.IFL_x_DROP_CNT p.pair)).toNat = min ((s.dev.rd (R.IFL_x_DROP_CNT p.pair)).toNat + 1) 0xFFFFFFFF ∧
      RegsOutside [R.IFL_x_DROP_CNT p.pair] s.dev e ∧ e.crossings = s.dev.crossings)

/-- R483: a command is latched with its argument and address and HEDGE is BUSY; while it is, another is refused with HEDGE_BUSY.
PRG_VERIFY locks program SRAM (R472). -/
def Obligations.SecurityCommandStarts : Prop :=
  ∀ (s : State), s.dev.Up → ∀ c ∈ [(Instr.getCert, 1), (.attest, 2), (.prgVerify, 3), (.prgUnlock, 4), (.prgCommitSvn, 5), (.fwUpdate, 6),
      (.fwCommit, 7), (.enroll, 8), (.revoke, 9), (.lcAdvance, 10), (.debugLock, 11), (.ringKey, 12), (.calEpoch, 13), (.sealFlush, 14)],
    (s.dev.get F.HEDGE_STATUS_BUSY = 1 → Gives c.1 s (s.dev.put F.HEDGE_STATUS_LAST_CODE 0x1401)) ∧
    (s.dev.get F.HEDGE_STATUS_BUSY = 0 → Runs c.1 s fun e => e.get F.HEDGE_STATUS_BUSY = 1 ∧
      (∃ r, e.hedge = { s.dev.hedge with cmd := some ⟨c.2, (s.dev.rd R.HEDGE_ARG).toNat, s.dev.rd64 R.HEDGE_ADDR_LO, r⟩ }) ∧
      e.get F.HEDGE_STATUS_PRG_LOCKED = (if c.2 = 3 then 1 else s.dev.get F.HEDGE_STATUS_PRG_LOCKED) ∧
      RegsOutside [R.HEDGE_STATUS] s.dev e ∧ e.mem = s.dev.mem ∧ e.crossings = s.dev.crossings)

/-- R460, R465, R472, R475, R476, R483: what the commands that read or write memory leave at their end. Operand memory that does not
respond ends one with MEM_TIMEOUT and no effect. -/
def Obligations.SecurityMemoryCommands : Prop :=
  ∀ (s : State) (c : HedgeCmd) (rnd : BitVec 256), s.dev.Up → s.dev.hedge.cmd = some c → s.dev.get F.HEDGE_STATUS_RECOVERY = 0 →
    c.addr % 64 = 0 → s.dev.ddr.span ≤ dramEnd →
    (∀ f, c.op ∈ [1, 2, 6, 8, 12] → Runs (.hedgeCmdDone true f rnd) s fun e => HedgeEnded c 0x1413 s.dev e ∧
      e.hedge = { s.dev.hedge with cmd := none } ∧ e.mem = s.dev.mem ∧ RegsOutside [R.HEDGE_STATUS] s.dev e) ∧
    (∀ f, c.op = 3 → Runs (.hedgeCmdDone true f rnd) s fun e => HedgeEnded c 0x1413 s.dev e ∧ e.hedge.prg = none ∧
      e.aqs.verified = false ∧ e.get F.HEDGE_STATUS_PRG_LOCKED = 0 ∧ e.get F.HEDGE_STATUS_PRG_VERIFIED = 0 ∧ e.mem = s.dev.mem) ∧
    (∀ f, c.op = 1 → c.arg = 1 → canWrite s.dev c.addr 5472 = true → Runs (.hedgeCmdDone false f rnd) s fun e => HedgeEnded c 0 s.dev e ∧
      e.loadBytes c.addr 5472 = (identityCert ++ List.replicate 5472 0).take 5472 ∧ MemoryOutside c.addr 5472 s.dev e ∧
      RegsOutside [R.HEDGE_STATUS, R.HEDGE_PRG_SVN] s.dev e) ∧
    (∀ f, c.op = 2 → noHole s.dev c.addr 64 = true → canWrite s.dev (c.addr + 64) 3712 = true →
      let w := c.report ++ akSign s.dev ctxAtt c.report (leBytes 32 rnd.toNat)
      Runs (.hedgeCmdDone false f rnd) s fun e => HedgeEnded c 0 s.dev e ∧ e.loadBytes (c.addr + 64) w.length = w ∧
        MemoryOutside (c.addr + 64) w.length s.dev e ∧ RegsOutside [R.HEDGE_STATUS, R.HEDGE_PRG_SVN] s.dev e) ∧
    (∀ f, c.op = 3 → Runs (.hedgeCmdDone false f rnd) s fun e =>
      HedgeEnded c (checkProgram s.dev).1 s.dev e ∧ e.mem = s.dev.mem ∧ RegsOutside [R.HEDGE_STATUS, R.HEDGE_PRG_SVN] s.dev e ∧
      (if (checkProgram s.dev).1 = 0 then e.get F.HEDGE_STATUS_PRG_VERIFIED = 1 ∧ e.aqs.verified = true ∧
          (e.rd R.HEDGE_PRG_SVN).toNat = (checkProgram s.dev).2.svn % 2 ^ 32 ∧ e.hedge.prg = some (checkProgram s.dev).2
        else e.get F.HEDGE_STATUS_PRG_VERIFIED = 0 ∧ e.get F.HEDGE_STATUS_PRG_LOCKED = 0 ∧ e.aqs.verified = false ∧ e.hedge.prg = none)) ∧
    (∀ f, c.op = 6 → noHole s.dev c.addr 64 = true → Runs (.hedgeCmdDone false f rnd) s fun e =>
      e.mem = s.dev.mem ∧ RegsOutside [R.HEDGE_STATUS] s.dev e ∧
      (match Config.fwHeader (s.dev.loadBytes c.addr 64) with
       | none => HedgeEnded c 0x1403 s.dev e ∧ e.hedge.slots = s.dev.hedge.slots
       | some (len, svn, key) => len ≤ 1572864 → noHole s.dev c.addr (len + 3392) = true → key = 0x100 ∨ key = 0x101 →
          checkBlock key (some (Config.fwKey (key - 0x100))) (fwRevoked s.dev (key - 0x100)) (decide (s.dev.hedge.fwCtr ≤ svn)) ctxFw
            (s.dev.loadBytes c.addr len) (s.dev.loadBytes (c.addr + len) 3392) = 0 →
          HedgeEnded c 0 s.dev e ∧ e.hedge.running = s.dev.hedge.running ∧
            e.hedge.slots.get (if s.dev.hedge.running = some 0 then 1 else 0) =
              some ⟨sha512 (s.dev.loadBytes c.addr len), svn, key - 0x100, true⟩)) ∧
    (∀ f, c.op = 12 → c.arg < 2 → canWrite s.dev c.addr 32 = true → regionOf s.dev c.addr ≠ some .program →
      Runs (.hedgeCmdDone false f rnd) s fun e => HedgeEnded c 0 s.dev e ∧
        e.ifl.keys = s.dev.ifl.keys ∧ e.ifl.takenKeys.get ⟨c.arg % 2, Nat.mod_lt _ (by decide)⟩ = some (s.dev.loadBytes c.addr 32) ∧
        bitsOf (e.get F.IFL_MGMT_KEY_LOADED) (c.arg % 2) (c.arg % 2) = 1 ∧ e.loadBytes c.addr 32 = List.replicate 32 0 ∧
        MemoryOutside c.addr 32 s.dev e ∧ RegsOutside [R.HEDGE_STATUS, R.IFL_MGMT] s.dev e)

/-- R465, R469, R471, R472, R481: what the commands that burn fuses or change the boot store leave at their end: an unconfirmed
command and a burn that fails its read-back change nothing, the last owner key of a SEALED module stays. -/
def Obligations.SecurityFuseCommands : Prop :=
  ∀ (s : State) (c : HedgeCmd) (rnd : BitVec 256), s.dev.Up → s.dev.hedge.cmd = some c → s.dev.get F.HEDGE_STATUS_RECOVERY = 0 →
    c.addr % 64 = 0 → s.dev.hedge.fwCtr ≤ 64 → s.dev.hedge.prgCtr ≤ 64 → s.dev.hedge.calCtr ≤ 64 →
    (∀ f, c.op = 4 → Runs (.hedgeCmdDone false f rnd) s fun e => e.mem = s.dev.mem ∧
      if anyCtxActive s.dev then HedgeEnded c 0x1411 s.dev e ∧ RegsOutside [R.HEDGE_STATUS] s.dev e ∧ e.aqs = s.dev.aqs
      else HedgeEnded c 0 s.dev e ∧ e.get F.HEDGE_STATUS_PRG_LOCKED = 0 ∧ e.get F.HEDGE_STATUS_PRG_VERIFIED = 0 ∧ e.aqs.verified = false ∧
        RegsOutside [R.HEDGE_STATUS, R.HEDGE_PRG_SVN] s.dev e) ∧
    (∀ n f, c.op = 7 → s.dev.hedge.running = some n → s.dev.hedge.slots.get n = some f → f.trial = true → f.svn ≤ 64 →
      Runs (.hedgeCmdDone false false rnd) s fun e => HedgeEnded c 0 s.dev e ∧
        e.hedge.slots.get n = some { f with trial := false } ∧ e.hedge.fwCtr = max s.dev.hedge.fwCtr f.svn ∧
        e.get F.HEDGE_CTRS_FW_CTR = max s.dev.hedge.fwCtr f.svn ∧ e.get F.HEDGE_STATUS_FW_TRIAL = 0) ∧
    (∀ n : Fin 4, c.op = 8 → c.arg % 8 = n.val + 1 → lifecycle s.dev ≠ 3 → (s.dev.hedge.owners.get n).fused = none →
      noHole s.dev c.addr 1984 = true → s.dev.hedge.lc = 1 → Runs (.hedgeCmdDone false false rnd) s fun e => HedgeEnded c 0 s.dev e ∧
        e.hedge.owners.get n = { s.dev.hedge.owners.get n with blob := some (s.dev.loadBytes c.addr 1984), fused := none } ∧
        (∀ m, m ≠ n → e.hedge.owners.get m = s.dev.hedge.owners.get m) ∧ bitsOf (e.get F.HEDGE_OWNER_ENROLLED) n.val n.val = 1) ∧
    (∀ n : Fin 4, c.op = 8 → c.arg % 8 = n.val + 1 → lifecycle s.dev ≠ 3 → (s.dev.hedge.owners.get n).fused.isSome = true →
      Runs (.hedgeCmdDone false false rnd) s fun e => HedgeEnded c 0x140D s.dev e ∧ e.hedge = { s.dev.hedge with cmd := none }) ∧
    (∀ n : Fin 4, c.op = 9 → c.arg % 8 = n.val + 1 → lifecycle s.dev ≠ 3 ∨ usable s.dev (some n) true = true →
      Runs (.hedgeCmdDone false false rnd) s fun e => HedgeEnded c 0 s.dev e ∧
        e.hedge.owners.get n = { s.dev.hedge.owners.get n with revoked := true } ∧
        (∀ m, m ≠ n → e.hedge.owners.get m = s.dev.hedge.owners.get m) ∧ bitsOf (e.get F.HEDGE_OWNER_REVOKED) n.val n.val = 1) ∧
    (∀ n : Fin 4, c.op = 9 → c.arg % 8 = n.val + 1 → lifecycle s.dev = 3 → usable s.dev (some n) true = false →
      Runs (.hedgeCmdDone false false rnd) s fun e => HedgeEnded c 0x140C s.dev e ∧ e.hedge = { s.dev.hedge with cmd := none }) ∧
    (∀ f, c.op = 10 ∨ c.op = 11 → confirmed c = false → Runs (.hedgeCmdDone false f rnd) s fun e => HedgeEnded c 0x1409 s.dev e ∧
      e.hedge = { s.dev.hedge with cmd := none } ∧ RegsOutside [R.HEDGE_STATUS] s.dev e) ∧
    (c.op = 10 → confirmed c = true → c.arg % 4 = 2 → s.dev.hedge.lc = 1 → usable s.dev none false = true →
      Runs (.hedgeCmdDone false false rnd) s fun e => HedgeEnded c 0 s.dev e ∧ e.hedge.lc = 2 ∧ e.get F.HEDGE_STATUS_LC = 2 ∧
        (∀ n : Fin 4, (e.hedge.owners.get n).fused = match (s.dev.hedge.owners.get n).blob with
          | some b => some (keyDigest b)
          | none => (s.dev.hedge.owners.get n).fused) ∧ e.hedge.debugLock = s.dev.hedge.debugLock) ∧
    (∀ n f, c.op = 7 → s.dev.hedge.running = some n → s.dev.hedge.slots.get n = some f → f.trial = true →
      s.dev.hedge.fwCtr < min f.svn 64 → Runs (.hedgeCmdDone false true rnd) s fun e => HedgeEnded c 0x140F s.dev e ∧
        e.hedge = { s.dev.hedge with cmd := none } ∧ RegsOutside [R.HEDGE_STATUS] s.dev e) ∧
    ((c.op = 13 ∧ s.dev.hedge.calCtr < c.arg % 64) ∨ (c.op = 11 ∧ confirmed c = true ∧ s.dev.hedge.debugLock = false) → Runs (.hedgeCmdDone false true rnd) s fun e =>
      HedgeEnded c 0x140F s.dev e ∧ e.hedge = { s.dev.hedge with cmd := none } ∧ RegsOutside [R.HEDGE_STATUS] s.dev e) ∧
    (∀ t f, c.op = 14 → Runs (.hedgeCmdDone t f rnd) s fun e => HedgeEnded c 0 s.dev e ∧ e.sealing = { s.dev.sealing with flush := true } ∧
      e.hedge = { s.dev.hedge with cmd := none } ∧ e.mem = s.dev.mem ∧ RegsOutside [R.HEDGE_STATUS] s.dev e)

/-- R473: PRG_COMMIT_SVN raises PRG_CTR to the verified image's SVN or 64, whichever is less, and CAL_EPOCH raises CAL_CTR to its
six bits; no counter falls, and at 64 a request of 64 or more ends with COUNTER_FULL. Nothing else is burnt. -/
def Obligations.SecurityCountersRise : Prop :=
  ∀ (s : State) (c : HedgeCmd) (rnd : BitVec 256), s.dev.Up → s.dev.hedge.cmd = some c → s.dev.get F.HEDGE_STATUS_RECOVERY = 0 →
    s.dev.hedge.fwCtr ≤ 64 → s.dev.hedge.prgCtr ≤ 64 → s.dev.hedge.calCtr ≤ 64 →
    (∀ p, c.op = 5 → s.dev.hedge.prg = some p → Runs (.hedgeCmdDone false false rnd) s fun e =>
      HedgeEnded c (if 64 ≤ p.svn ∧ s.dev.hedge.prgCtr = 64 then 0x1410 else 0) s.dev e ∧
      e.hedge = { s.dev.hedge with prgCtr := max s.dev.hedge.prgCtr (min p.svn 64), cmd := none } ∧
      e.get F.HEDGE_CTRS_PRG_CTR = max s.dev.hedge.prgCtr (min p.svn 64) ∧ e.mem = s.dev.mem ∧
      RegsOutside [R.HEDGE_STATUS, R.HEDGE_CTRS, R.HEDGE_OWNER] s.dev e) ∧
    (c.op = 13 → Runs (.hedgeCmdDone false false rnd) s fun e => HedgeEnded c 0 s.dev e ∧
      e.hedge = { s.dev.hedge with calCtr := max s.dev.hedge.calCtr (c.arg % 64), cmd := none } ∧
      e.get F.HEDGE_CTRS_CAL_CTR = max s.dev.hedge.calCtr (c.arg % 64) ∧ e.mem = s.dev.mem ∧
      RegsOutside [R.HEDGE_STATUS, R.HEDGE_CTRS, R.HEDGE_OWNER] s.dev e)

/-- R470: DEBUG_LOCK, confirmed as R469 asks, burns its fuse; with it burnt every instruction of the debug port but the four that
IEEE 1149.1 requires acts as BYPASS. Without it a private instruction is decoded; what it does the spec does not say. -/
def Obligations.DebugLock : Prop :=
  (∀ (s : State) (c : HedgeCmd) (rnd : BitVec 256), s.dev.Up → s.dev.hedge.cmd = some c → s.dev.get F.HEDGE_STATUS_RECOVERY = 0 → c.op = 11 →
    (c.arg / 65536 = Config.deviceId.toNat % 65536 → Runs (.hedgeCmdDone false false rnd) s fun e => HedgeEnded c 0 s.dev e ∧
      e.hedge = { s.dev.hedge with debugLock := true, cmd := none } ∧ e.get F.HEDGE_STATUS_DEBUG_LOCK = 1 ∧ e.mem = s.dev.mem) ∧
    (c.arg / 65536 ≠ Config.deviceId.toNat % 65536 → Runs (.hedgeCmdDone false false rnd) s fun e => HedgeEnded c 0x1409 s.dev e ∧
      e.hedge = { s.dev.hedge with cmd := none } ∧ RegsOutside [R.HEDGE_STATUS] s.dev e)) ∧
  (∀ (s : State), ∀ t ∈ [TapInstr.bypass, .sample, .extest, .idcode], Gives (.debugPortInstruction t) s { s.dev with tap := t }) ∧
  (∀ (s : State) (k : Nat), Gives (.debugPortInstruction (.priv k)) s
    { s.dev with tap := if s.dev.hedge.debugLock then .bypass else .priv k })

/-- R463, R464, R466, R467: with the rails in tolerance island K boots: it runs slot A when that is the one that is valid, and is in
recovery when none is; burns that a reset cut short are completed first. -/
def Obligations.ModuleBoots : Prop :=
  (∀ (s : State) (x : Option FwSlot), s.dev.pwr.kUp = false → s.dev.pwr.modRst = false → s.dev.get F.PWR_RAIL_OK = 511 →
    s.dev.get F.HEDGE_STATUS_BOOT_DONE = 0 → s.dev.get F.HEDGE_STATUS_RECOVERY = 0 → s.dev.hedge.lc < 4 → s.dev.hedge.after = none →
    s.dev.hedge.slots.get 0 = x → s.dev.hedge.slots.get 1 = none → s.dev.hedge.tried = none →
    Runs (.boot true false 0 0) s fun e => e.pwr = { s.dev.pwr with kUp := true } ∧ e.get F.PWR_STATUS_PHASE = 1 ∧
      e.get F.HEDGE_STATUS_LC = s.dev.hedge.lc ∧ e.hedge.lcBoot = s.dev.hedge.lc ∧ e.rd64 R.HEDGE_DEVICE_ID_LO = Config.deviceId.toNat ∧
      e.mem = s.dev.mem ∧
      (match x with
       | none => e.get F.HEDGE_STATUS_RECOVERY = 1 ∧ e.get F.HEDGE_STATUS_BOOT_DONE = 0 ∧ e.hedge.running = none ∧
          e.crossings = s.dev.crossings
       | some f => if s.dev.hedge.fwCtr ≤ f.svn ∧ fwRevoked s.dev f.keySet = false
          then e.get F.HEDGE_STATUS_BOOT_DONE = 1 ∧ e.get F.HEDGE_STATUS_FW_SLOT = 0 ∧ e.get F.HEDGE_STATUS_FW_TRIAL = f.trial.toNat ∧
            (e.rd R.HEDGE_FW_SVN).toNat = f.svn % 2 ^ 32 ∧ e.hedge.running = some 0 ∧ e.hedge.tried = (if f.trial then some 0 else none) ∧
            Says .k evHedgeBoot 0 f.svn none s.dev e
          else e.get F.HEDGE_STATUS_RECOVERY = 1 ∧ e.get F.HEDGE_STATUS_BOOT_DONE = 0 ∧ e.crossings = s.dev.crossings)) ∧
  (∀ (s : State) (a b : Bool) (br : BitVec 4) (k : Fin 2) (f : FwSlot), s.dev.pwr.kUp = false → s.dev.pwr.modRst = false →
    s.dev.get F.PWR_RAIL_OK = 511 → fwChoice s.dev a b = some k → s.dev.hedge.slots.get k = some f →
    Runs (.boot a b 0 br) s fun e => e.get F.HEDGE_STATUS_BOOT_DONE = 1 ∧ e.get F.HEDGE_STATUS_FW_SLOT = k.val ∧
      e.get F.HEDGE_STATUS_FW_TRIAL = f.trial.toNat ∧ (e.rd R.HEDGE_FW_SVN).toNat = f.svn % 2 ^ 32 ∧ e.hedge.running = some k ∧
      e.hedge.fwDigest = f.digest ∧ e.pwr = { s.dev.pwr with kUp := true } ∧ Says .k evHedgeBoot k.val f.svn none s.dev e ∧
      e.mem = s.dev.mem) ∧
  (∀ (s : State) (f : Fuses) (n : Nat), s.dev.pwr.kUp = false → s.dev.pwr.modRst = false → s.dev.get F.PWR_RAIL_OK = 511 →
    s.dev.get F.HEDGE_STATUS_BOOT_DONE = 0 → s.dev.get F.HEDGE_STATUS_RECOVERY = 0 → s.dev.hedge.after = some f → 0 < n →
    Runs (.boot false false n 0) s fun e => e.hedge.lc = f.lc ∧ e.hedge.debugLock = f.debugLock ∧ e.hedge.fwCtr = f.fwCtr ∧
      e.hedge.prgCtr = f.prgCtr ∧ e.hedge.calCtr = f.calCtr ∧ (∀ k, e.hedge.owners.get k = f.owners.get k) ∧ e.hedge.after = none ∧
      e.get F.HEDGE_STATUS_RECOVERY = 1 ∧ Says .k evHedgeFuse 0 n none s.dev e) ∧
  (∀ (s : State) (a b : Bool) (n : Nat) (br : BitVec 4), s.dev.get F.PWR_RAIL_OK ≠ 511 → Gives (.boot a b n br) s s.dev)

/-- R479 to R481: a hashed leaf's value goes to its place in the leaf ring, a leaf that could not be read gets a code; a full batch
decides a seal over the leaves written; a seal is written to its slot, chained to the one before, and EV_HEDGE_SEAL says which
leaves it covers. -/
def Obligations.SealedRecords : Prop :=
  (∀ (s : State) (l : Leaf) (served : Bool), s.dev.Up → s.dev.sealing.waiting = [l] → l.code = 0 → l.value = [] → l.written = true →
    s.dev.ddr.span ≤ dramEnd →
    let a := s.dev.rd64 R.HEDGE_LEAF_BASE_LO / 64 * 64 + 64 * (l.num % 2 ^ s.dev.sealing.leafLog)
    inDramOrData s.dev a 64 = true → noHole s.dev l.hdrAddr l.hdrLen = true →
    (l.ty = 2 ∨ ∀ i < l.inputs, l.hold = true ∨ noHole s.dev (l.bodyAddr + i * l.inStride) (divUp l.samples 3 * 4) = true) →
    leafHeaderHolds s.dev l = true →
    Runs (.leafHashed l.num true false) s (fun e => e.sealing.waiting = [] ∧ e.loadBytes a 64 = codeValue 0x1416 ∧
      e.sealing.ready = s.dev.sealing.ready ++ [⟨l.stream, l.num, codeValue 0x1416, true, l.final⟩] ∧
      e.get F.HEDGE_STATUS_LAST_CODE = 0x1416 ∧ MemoryOutside a 64 s.dev e) ∧
    Runs (.leafHashed l.num served true) s fun e => e.sealing.waiting = [] ∧ e.get F.HEDGE_SEAL_PEND_UNITS = 0 ∧ MemoryOutside a 64 s.dev e ∧
      if served then e.sealing.ready = s.dev.sealing.ready ++ [⟨l.stream, l.num, leafDigest s.dev l, false, l.final⟩] ∧ e.loadBytes a 64 = leafDigest s.dev l ∧
          e.crossings = s.dev.crossings ∧ RegsOutside [R.HEDGE_SEAL_PEND] s.dev e
      else e.sealing.ready = s.dev.sealing.ready ++ [⟨l.stream, l.num, codeValue 0x1417, true, l.final⟩] ∧ e.loadBytes a 64 = codeValue 0x1417 ∧
        e.get F.HEDGE_STATUS_LAST_CODE = 0x1417 ∧
        (e.rd R.HEDGE_SEAL_SKIP).toNat = min ((s.dev.rd R.HEDGE_SEAL_SKIP).toNat + 1) 0xFFFFFFFF) ∧
  (∀ (s : State) (aged : Bool), s.dev.Up → s.dev.sealing.waiting = [] → s.dev.sealing.decided = none → s.dev.hedge.running.isSome = true →
    0 < (sealed s.dev.sealing).length → s.dev.rd R.HEDGE_SEAL_WR = s.dev.rd R.HEDGE_SEAL_RD →
    (s.dev.sealing.batch ≤ s.dev.sealing.ready.length → Runs (.sealDecision aged) s fun e =>
      e = { s.dev with sealing := e.sealing } ∧ e.sealing.ready = s.dev.sealing.ready ∧
      e.sealing.decided = some ((sealed s.dev.sealing).length, (sealed s.dev.sealing).any (·.final),
        BitVec.ofNat 96 (s.dev.aqs.tick.toNat * 2 ^ 32), (s.dev.rd R.CAL_COUNT).toNat)) ∧
    (s.dev.sealing.ready.length < s.dev.sealing.batch → s.dev.sealing.mark = 0 → s.dev.sealing.flush = false →
      Gives (.sealDecision false) s s.dev)) ∧
  (∀ (s : State) (rnd : BitVec 256) (n cal : Nat) (last : Bool) (ts : TS) (l : LeafValue) (ls : List LeafValue),
    s.dev.Up → s.dev.sealing.decided = some (n, last, ts, cal) → s.dev.sealing.ready.take n = l :: ls → s.dev.ddr.span ≤ dramEnd →
    let a := s.dev.rd64 R.HEDGE_SEAL_BASE_LO / 4096 * 4096 + 4096 * ((s.dev.rd R.HEDGE_SEAL_WR).toNat % 2 ^ s.dev.sealing.ringLog)
    inDramOrData s.dev a 4096 = true →
    Runs (.sealWritten rnd) s fun e => e.sealing.decided = none ∧ e.sealing.ready = s.dev.sealing.ready.drop n ∧
      e.rd R.HEDGE_SEAL_WR = s.dev.rd R.HEDGE_SEAL_WR + 1 ∧ RegsOutside [R.HEDGE_SEAL_WR] s.dev e ∧
      Says .k evHedgeSeal 0 (l.num % 2 ^ 24 + n * 2 ^ 32) none s.dev e ∧ MemoryOutside a 4096 s.dev e ∧ e.sealing.prev = sha512 (e.loadBytes a 192) ∧
      e.load a 4 = 0xFC4C4553 ∧ e.load (a + 6) 2 = last.toNat ∧ e.load (a + 0x18) 4 = l.num % 2 ^ 32 ∧ e.load (a + 0x1C) 4 = n % 2 ^ 32 ∧
      e.load (a + 0x20) 12 = ts.toNat ∧ e.loadBytes (a + 0x40) 64 = sha512 ((l :: ls).map (·.value)).flatten ∧
      e.loadBytes (a + 0x80) 64 = (s.dev.sealing.prev ++ List.replicate 64 0).take 64)

/-- R488 to R490, Table 20.3: a reset of the module returns every register to its reset value but the causes, the rail monitors and
PWR_START. The fuses and the boot store stay; the SRAMs stay while VDD_SRAM holds, and a power-on reset loses them. -/
def Obligations.ModuleResets : Prop :=
  (∀ (s : State), Runs .powerOnReset s fun e => e.pwr = { modRst := s.dev.pwr.modRst } ∧
    (∀ a, a ≠ R.PWR_RAIL → e.rd a = regReset a) ∧ bitsOf (e.get F.PWR_RAIL_OK) 0 0 = 0 ∧
    bitsOf (e.get F.PWR_RAIL_OK) 8 1 = bitsOf (s.dev.get F.PWR_RAIL_OK) 8 1 ∧ e.get F.PWR_RAIL_FAULT = 0 ∧
    e.get F.PWR_RESET_CAUSE_POR = 1 ∧ e.tap = .idcode ∧ (∀ a, e.byte a = Config.freeByte (e.gen.at' a) a) ∧
    e.hedge.lc = s.dev.hedge.lc ∧ e.hedge.debugLock = s.dev.hedge.debugLock ∧ e.hedge.owners = s.dev.hedge.owners ∧
    e.hedge.slots = s.dev.hedge.slots ∧ e.hedge.prgCtr = s.dev.hedge.prgCtr ∧ e.hedge.fwCtr = s.dev.hedge.fwCtr ∧
    e.hedge.calCtr = s.dev.hedge.calCtr ∧ e.sealing.streams = s.dev.sealing.streams ∧ e.host.mem = s.dev.host.mem) ∧
  (∀ (s : State), Runs (.modRst true) s fun e => e.pwr = { modRst := true } ∧ e.get F.PWR_RESET_CAUSE_MOD_RST = 1 ∧
    e.get F.PWR_RAIL_OK = s.dev.get F.PWR_RAIL_OK ∧
    (∀ a, a ∉ [R.PWR_RAIL, R.PWR_RESET_CAUSE, R.PWR_START] → e.rd a = regReset a) ∧ e.rd R.PWR_START = s.dev.rd R.PWR_START ∧
    e.get F.PWR_RESET_CAUSE_POR = s.dev.get F.PWR_RESET_CAUSE_POR ∧ e.tap = s.dev.tap ∧
    (bitsOf (s.dev.get F.PWR_RAIL_OK) 3 3 = 1 → ∀ a, programBase ≤ a → e.byte a = s.dev.byte a) ∧
    e.hedge.lc = s.dev.hedge.lc ∧ e.hedge.owners = s.dev.hedge.owners) ∧
  (∀ (s : State), Gives (.modRst false) s (s.dev.setPwr { s.dev.pwr with modRst := false })) ∧
  (∀ (s : State) (r : Fin 9), r ≠ 0 → s.dev.pwr.kUp = true → bitsOf (s.dev.get F.PWR_RAIL_OK) r.val r.val = 0 →
    Runs (.railFault r) s fun e => e.pwr = { modRst := s.dev.pwr.modRst } ∧ e.get F.PWR_RAIL_FAULT = 2 ^ r.val ∧
      e.get F.PWR_RESET_CAUSE_SUPPLY = 1 ∧ e.get F.PWR_RESET_CAUSE_RAIL = r.val ∧ e.get F.PWR_RAIL_OK = s.dev.get F.PWR_RAIL_OK ∧
      (∀ a, a ∉ [R.PWR_RAIL, R.PWR_RESET_CAUSE, R.PWR_START] → e.rd a = regReset a) ∧
      (r ≠ 3 → bitsOf (s.dev.get F.PWR_RAIL_OK) 3 3 = 1 → ∀ a, programBase ≤ a → e.byte a = s.dev.byte a)) ∧
  (∀ (s : State) (r : Fin 9), r = 0 ∨ bitsOf (s.dev.get F.PWR_RAIL_OK) r.val r.val = 1 → Gives (.railFault r) s s.dev)

/-- R486, R487, R494 to R496: a rail's monitor follows it, a rail that comes up before its stage is a sequence fault, and one that
breaks the order resets the islands but K; without VDD_IO or VDD_SER the bypasses close. Booted, PWR releases the other islands and
training begins; in recovery only Q and H are released. Without REFIN the count begins in free run. -/
def Obligations.ModuleStartsUp : Prop :=
  (∀ (s : State) (r : Fin 9) (ok : Bool), (ok = true → ∀ q : Fin 9, bitsOf (stageBefore r) q.val q.val = 1 →
      bitsOf (s.dev.get F.PWR_RAIL_OK) q.val q.val = 1) → r ≠ 3 ∨ ok = true ∨ s.dev.pwr.kUp = true →
      (r ≠ 1 ∧ r ≠ 6) ∨ s.dev.pwr.up = false →
    Gives (.railChange r ok false) s (s.dev.put F.PWR_RAIL_OK (setBits (s.dev.get F.PWR_RAIL_OK) r.val r.val ok.toNat))) ∧
  (∀ (s : State) (r q : Fin 9), bitsOf (stageBefore r) q.val q.val = 1 → bitsOf (s.dev.get F.PWR_RAIL_OK) q.val q.val = 0 →
    s.dev.pwr.up = false → s.dev.pwr.qUp = false → Runs (.railChange r true false) s fun e => bitsOf (e.get F.PWR_RAIL_OK) r.val r.val = 1 ∧
      e.get F.PWR_RESET_CAUSE_SEQ = 1 ∧ e.get F.PWR_STATUS_LAST_CODE = 0x1501 ∧
      RegsOutside [R.PWR_RAIL, R.PWR_RESET_CAUSE, R.PWR_STATUS] s.dev e ∧ e.mem = s.dev.mem ∧ e.pwr = s.dev.pwr) ∧
  (∀ (s : State) (r : Fin 9), r ≠ 0 → s.dev.pwr.kUp = true → s.dev.pwr.up = true → Runs (.railChange r false true) s fun e =>
    e.pwr.up = false ∧ e.pwr.qUp = false ∧ e.pwr.kUp = true ∧ e.get F.PWR_RESET_CAUSE_SEQ = 1 ∧ e.get F.PWR_STATUS_LAST_CODE = 0x1501 ∧
      bitsOf (e.get F.PWR_RAIL_OK) r.val r.val = 0 ∧ e.mode = mSentry ∧ e.armed = false ∧ e.hedge = s.dev.hedge) ∧
  (∀ (s : State) (x : Fin 3) (r : Fin 9), r = 1 ∨ r = 6 → s.dev.pwr.up = true → joined s.dev x = true →
    Runs (.railChange r false false) s fun e => joined e x = false ∧ bitsOf (e.get F.PWR_RAIL_OK) r.val r.val = 0 ∧ e.mem = s.dev.mem ∧
      e.pwr = s.dev.pwr) ∧
  (∀ (s : State), s.dev.pwr.kUp = true → s.dev.pwr.up = false → s.dev.get F.PWR_STATUS_HELD = 0 → s.dev.get F.PWR_RAIL_OK = 511 →
    (s.dev.get F.HEDGE_STATUS_BOOT_DONE = 1 → Runs .bootDone s fun e => e.pwr = { s.dev.pwr with qUp := true, up := true, refWait := true } ∧
      e.get F.PWR_STATUS_PHASE = 3 ∧ e.get F.STAG_STATUS_ON_BYCLK = 1 ∧
      e.ddr.training = some (BitVec.ofNat 12 (s.dev.get F.DDR_ORG_FITTED)) ∧ (∀ x : Fin 3, e.get (F.IFL_x_STATUS_BYPASS x) = 1) ∧
      e.mem = s.dev.mem ∧ e.crossings = s.dev.crossings) ∧
    (s.dev.get F.HEDGE_STATUS_BOOT_DONE = 0 → s.dev.get F.HEDGE_STATUS_RECOVERY = 1 → Runs .bootDone s fun e =>
      e.pwr = { s.dev.pwr with qUp := true } ∧ e.get F.PWR_STATUS_PHASE = 2 ∧ RegsOutside [R.PWR_STATUS] s.dev e)) ∧
  (∀ (s : State), s.dev.pwr.refWait = true → s.dev.get F.STAG_STATUS_REF_OK = 0 → s.dev.get F.PWR_STATUS_PHASE = 3 →
    s.dev.get F.STAG_STATUS_SL_LOCK = 0 → Runs .refWaitExpire s fun e => e.pwr.refWait = false ∧ e.get F.PWR_STATUS_LAST_CODE = 0x1503 ∧
      e.get F.PWR_STATUS_PHASE = 4 ∧ (s.dev.stag.counting = false → e.stag.starting = true) ∧ e.stag.searching = slEnabled s.dev ∧
      RegsOutside [R.PWR_STATUS] s.dev e ∧ e.mem = s.dev.mem)

/-- R492, R493: a soft reset of a block that has one returns its registers to reset at once; the others are refused with
SRESET_REFUSED. At its end the block has no state left but what survives, and EV_PWR_SRESET names it. -/
def Obligations.SoftResets : Prop :=
  (∀ (s : State) (k : Fin 22), s.dev.Up → hasSreset k.val = false →
    Gives (.softReset (BitVec.ofNat 22 (2 ^ k.val))) s (s.dev.put F.PWR_STATUS_LAST_CODE 0x1502)) ∧
  (∀ (s : State) (k : Fin 22), s.dev.Up → hasSreset k.val = true → Runs (.softReset (BitVec.ofNat 22 (2 ^ k.val))) s fun e =>
    e.pwr.sreset.getLsbD k.val = true ∧ (∀ a, a < 2 ^ 32 → a / 0x100000 = k.val → e.rd a = regReset a ∧ e.ef a = regReset a) ∧
      (∀ w ∈ e.cfgc.parts, cfgUnitBlock w.tgt ≠ k.val)) ∧
  (∀ (s : State) (bits : BitVec 22), s.dev.Up → Runs (.softReset bits) s fun e => ∀ k : Fin 22, bits.getLsbD k.val = true →
    hasSreset k.val = true → e.pwr.sreset.getLsbD k.val = true) ∧
  (∀ (s : State) (k : Fin 22), inSreset s.dev k.val = true → k ≠ 11 ∨ s.dev.sealing.waiting = [] → Runs (.softResetDone k) s fun e =>
    e.pwr = { s.dev.pwr with sreset := s.dev.pwr.sreset &&& ~~~(BitVec.ofNat 22 (2 ^ k.val)) } ∧ Says .k evPwrSreset k.val 0 none s.dev e ∧
      e.mem = s.dev.mem ∧
      (k = 7 → e.fox = {}) ∧ (k = 11 → e.cap = { written := s.dev.cap.written }) ∧ (k = 13 → e.stk = {}) ∧ (k = 15 → e.badger = {}) ∧ (k = 17 → e.beaver = {}) ∧
      (k = 19 → e.ifl = { keys := s.dev.ifl.takenKeys })) ∧
  (∀ (s : State) (k : Fin 22), inSreset s.dev k.val = false → Gives (.softResetDone k) s s.dev)

/-- R499 to R503: the sensors are shown; the level is the highest whose threshold a sensor has reached, and EV_PWR_THERMAL says a
change. At SHUTDOWN the islands but Q, H and K are held; a restart is refused while nothing is held and while a sensor is warm. -/
def Obligations.TemperatureLevels : Prop :=
  (∀ (s : State) (t : Vector (BitVec 16) 8), s.dev.pwr.kUp = true → s.dev.cfgc.parts = [] → s.dev.cfgc.waits = [] → s.dev.cfgc.commits = [] →
    s.dev.get F.PWR_STATUS_LEVEL = 0 → dramHot s.dev = false → levelAt s.dev 1 ≤ levelAt s.dev 2 → levelAt s.dev 2 ≤ 16 * 114 →
    (∀ k, (t.get k).toInt < levelAt s.dev 2) →
    Runs (.sensorReading t none) s fun e => (∀ k : Fin 8, tempOf e k = (t.get k).toInt) ∧
      (∀ k : Fin 8, (t.get k).toInt ≤ signedOf 16 (e.get F.PWR_TEMP_MAX_TEMP)) ∧
      RegsOutside (R.PWR_STATUS :: R.PWR_TEMP_MAX :: R.CFGC_STATUS :: sensors.map (fun k => R.PWR_TEMP k.val)) s.dev e ∧ e.mem = s.dev.mem ∧
      (if ∃ k, levelAt s.dev 1 ≤ (t.get k).toInt
       then e.get F.PWR_STATUS_LEVEL = 1 ∧ ∃ k : Fin 8, (∀ j, (t.get j).toInt ≤ (t.get k).toInt) ∧ Says .k evPwrThermal k.val 1 none s.dev e
       else e.get F.PWR_STATUS_LEVEL = 0 ∧ e.crossings = s.dev.crossings)) ∧
  (∀ (s : State) (t : Vector (BitVec 16) 8) (w : BitVec 16), s.dev.pwr.kUp = true → Runs (.sensorReading t (some w)) s fun e =>
    (∀ k : Fin 8, tempOf e k = (t.get k).toInt) ∧ e.rd R.PWR_POWER = w.setWidth 32 ∧ e.pwr.sensed = true ∧ e.mem = s.dev.mem ∧
      e.getS F.PWR_TEMP_CAL_TEMP = ((t.get 0).toInt + (t.get 1).toInt + (t.get 2).toInt + (t.get 3).toInt) / 4) ∧
  (∀ (s : State), s.dev.pwr.up = true → s.dev.get F.PWR_STATUS_LEVEL = 3 → s.dev.get F.PWR_STATUS_HELD = 0 →
    s.dev.pwr.kUp = true → s.dev.sealing.waiting = [] → Runs .thermalShutdown s fun e => e.get F.PWR_STATUS_HELD = 1 ∧ e.get F.PWR_RESET_CAUSE_THERMAL = 1 ∧ e.pwr.up = false ∧
      e.pwr.kUp = s.dev.pwr.kUp ∧ e.pwr.qUp = s.dev.pwr.qUp ∧ e.mode = mSentry ∧ e.armed = false ∧ e.get F.GLB_STATUS_READY = 0 ∧
      e.crossings = s.dev.crossings ∧ e.hedge = s.dev.hedge ∧ ∀ a, programBase ≤ a → e.byte a = s.dev.byte a) ∧
  (∀ (s : State), s.dev.pwr.up = true → s.dev.get F.PWR_STATUS_LEVEL ≠ 3 → Gives .thermalShutdown s s.dev) ∧
  (∀ (s : State), s.dev.pwr.kUp = true → s.dev.pwr.sreset = 0 →
    (s.dev.get F.PWR_STATUS_HELD = 0 → Gives .restart s (s.dev.put F.PWR_STATUS_LAST_CODE 0x1505)) ∧
    (s.dev.get F.PWR_STATUS_HELD = 1 → anySensor s.dev (levelAt s.dev 1) = true →
      Gives .restart s (s.dev.put F.PWR_STATUS_LAST_CODE 0x1504)) ∧
    (s.dev.get F.PWR_STATUS_HELD = 1 → anySensor s.dev (levelAt s.dev 1) = false → s.dev.get F.HEDGE_STATUS_BOOT_DONE = 0 →
      Gives .restart s (s.dev.put F.PWR_STATUS_HELD 0)) ∧
    (s.dev.get F.PWR_STATUS_HELD = 1 → anySensor s.dev (levelAt s.dev 1) = false → s.dev.get F.HEDGE_STATUS_BOOT_DONE = 1 → Runs .restart s fun e =>
      e.get F.PWR_STATUS_HELD = 0 ∧ e.pwr.up = true ∧ e.get F.PWR_STATUS_PHASE = 3 ∧ e.get F.STAG_STATUS_ON_BYCLK = 1 ∧
        e.ddr.training.isSome = true ∧ e.mem = s.dev.mem))
end

