-- ==== Sys2Proof/Laws/State.lean ====
section
/-! SUPPORT. One lemma per field of `Dev` and per shared update: what it leaves alone. -/
namespace Sys2Proof.Machine

@[simp] theorem Dev.wr_eff (d : Dev) (a : Nat) (v : Word) : (d.wr a v).eff = d.eff := rfl
@[simp] theorem Dev.wr_mem (d : Dev) (a : Nat) (v : Word) : (d.wr a v).mem = d.mem := rfl
@[simp] theorem Dev.wr_gen (d : Dev) (a : Nat) (v : Word) : (d.wr a v).gen = d.gen := rfl
@[simp] theorem Dev.wr_shadows (d : Dev) (a : Nat) (v : Word) : (d.wr a v).shadows = d.shadows := rfl
@[simp] theorem Dev.wr_halves (d : Dev) (a : Nat) (v : Word) : (d.wr a v).halves = d.halves := rfl
@[simp] theorem Dev.wr_lastLo (d : Dev) (a : Nat) (v : Word) : (d.wr a v).lastLo = d.lastLo := rfl
@[simp] theorem Dev.wr_crossings (d : Dev) (a : Nat) (v : Word) : (d.wr a v).crossings = d.crossings := rfl
@[simp] theorem Dev.wr_freeCtr (d : Dev) (a : Nat) (v : Word) : (d.wr a v).freeCtr = d.freeCtr := rfl
@[simp] theorem Dev.wr_cfgc (d : Dev) (a : Nat) (v : Word) : (d.wr a v).cfgc = d.cfgc := rfl
@[simp] theorem Dev.wr_aqs (d : Dev) (a : Nat) (v : Word) : (d.wr a v).aqs = d.aqs := rfl
@[simp] theorem Dev.wr_host (d : Dev) (a : Nat) (v : Word) : (d.wr a v).host = d.host := rfl
@[simp] theorem Dev.wr_mod (d : Dev) (a : Nat) (v : Word) : (d.wr a v).mod = d.mod := rfl
@[simp] theorem Dev.wr_stag (d : Dev) (a : Nat) (v : Word) : (d.wr a v).stag = d.stag := rfl
@[simp] theorem Dev.wr_conv (d : Dev) (a : Nat) (v : Word) : (d.wr a v).conv = d.conv := rfl
@[simp] theorem Dev.wr_cap (d : Dev) (a : Nat) (v : Word) : (d.wr a v).cap = d.cap := rfl
@[simp] theorem Dev.wr_sealing (d : Dev) (a : Nat) (v : Word) : (d.wr a v).sealing = d.sealing := rfl
@[simp] theorem Dev.wr_fox (d : Dev) (a : Nat) (v : Word) : (d.wr a v).fox = d.fox := rfl
@[simp] theorem Dev.wr_sdec (d : Dev) (a : Nat) (v : Word) : (d.wr a v).sdec = d.sdec := rfl
@[simp] theorem Dev.wr_sdi (d : Dev) (a : Nat) (v : Word) : (d.wr a v).sdi = d.sdi := rfl
@[simp] theorem Dev.wr_red (d : Dev) (a : Nat) (v : Word) : (d.wr a v).red = d.red := rfl
@[simp] theorem Dev.wr_stk (d : Dev) (a : Nat) (v : Word) : (d.wr a v).stk = d.stk := rfl
@[simp] theorem Dev.wr_ddr (d : Dev) (a : Nat) (v : Word) : (d.wr a v).ddr = d.ddr := rfl
@[simp] theorem Dev.wr_lynx (d : Dev) (a : Nat) (v : Word) : (d.wr a v).lynx = d.lynx := rfl
@[simp] theorem Dev.wr_ext (d : Dev) (a : Nat) (v : Word) : (d.wr a v).ext = d.ext := rfl
@[simp] theorem Dev.wr_owl (d : Dev) (a : Nat) (v : Word) : (d.wr a v).owl = d.owl := rfl
@[simp] theorem Dev.wr_owlSvc (d : Dev) (a : Nat) (v : Word) : (d.wr a v).owlSvc = d.owlSvc := rfl
@[simp] theorem Dev.wr_pulse (d : Dev) (a : Nat) (v : Word) : (d.wr a v).pulse = d.pulse := rfl
@[simp] theorem Dev.wr_badger (d : Dev) (a : Nat) (v : Word) : (d.wr a v).badger = d.badger := rfl
@[simp] theorem Dev.wr_beaver (d : Dev) (a : Nat) (v : Word) : (d.wr a v).beaver = d.beaver := rfl
@[simp] theorem Dev.wr_ifl (d : Dev) (a : Nat) (v : Word) : (d.wr a v).ifl = d.ifl := rfl
@[simp] theorem Dev.wr_cal (d : Dev) (a : Nat) (v : Word) : (d.wr a v).cal = d.cal := rfl
@[simp] theorem Dev.wr_hedge (d : Dev) (a : Nat) (v : Word) : (d.wr a v).hedge = d.hedge := rfl
@[simp] theorem Dev.wr_pwr (d : Dev) (a : Nat) (v : Word) : (d.wr a v).pwr = d.pwr := rfl
@[simp] theorem Dev.wr_tap (d : Dev) (a : Nat) (v : Word) : (d.wr a v).tap = d.tap := rfl

@[simp] theorem Dev.put_eff (d : Dev) (f : Field) (x : Nat) : (d.put f x).eff = d.eff := rfl
@[simp] theorem Dev.put_mem (d : Dev) (f : Field) (x : Nat) : (d.put f x).mem = d.mem := rfl
@[simp] theorem Dev.put_gen (d : Dev) (f : Field) (x : Nat) : (d.put f x).gen = d.gen := rfl
@[simp] theorem Dev.put_shadows (d : Dev) (f : Field) (x : Nat) : (d.put f x).shadows = d.shadows := rfl
@[simp] theorem Dev.put_halves (d : Dev) (f : Field) (x : Nat) : (d.put f x).halves = d.halves := rfl
@[simp] theorem Dev.put_lastLo (d : Dev) (f : Field) (x : Nat) : (d.put f x).lastLo = d.lastLo := rfl
@[simp] theorem Dev.put_crossings (d : Dev) (f : Field) (x : Nat) : (d.put f x).crossings = d.crossings := rfl
@[simp] theorem Dev.put_freeCtr (d : Dev) (f : Field) (x : Nat) : (d.put f x).freeCtr = d.freeCtr := rfl
@[simp] theorem Dev.put_cfgc (d : Dev) (f : Field) (x : Nat) : (d.put f x).cfgc = d.cfgc := rfl
@[simp] theorem Dev.put_aqs (d : Dev) (f : Field) (x : Nat) : (d.put f x).aqs = d.aqs := rfl
@[simp] theorem Dev.put_host (d : Dev) (f : Field) (x : Nat) : (d.put f x).host = d.host := rfl
@[simp] theorem Dev.put_mod (d : Dev) (f : Field) (x : Nat) : (d.put f x).mod = d.mod := rfl
@[simp] theorem Dev.put_stag (d : Dev) (f : Field) (x : Nat) : (d.put f x).stag = d.stag := rfl
@[simp] theorem Dev.put_conv (d : Dev) (f : Field) (x : Nat) : (d.put f x).conv = d.conv := rfl
@[simp] theorem Dev.put_cap (d : Dev) (f : Field) (x : Nat) : (d.put f x).cap = d.cap := rfl
@[simp] theorem Dev.put_sealing (d : Dev) (f : Field) (x : Nat) : (d.put f x).sealing = d.sealing := rfl
@[simp] theorem Dev.put_fox (d : Dev) (f : Field) (x : Nat) : (d.put f x).fox = d.fox := rfl
@[simp] theorem Dev.put_sdec (d : Dev) (f : Field) (x : Nat) : (d.put f x).sdec = d.sdec := rfl
@[simp] theorem Dev.put_sdi (d : Dev) (f : Field) (x : Nat) : (d.put f x).sdi = d.sdi := rfl
@[simp] theorem Dev.put_red (d : Dev) (f : Field) (x : Nat) : (d.put f x).red = d.red := rfl
@[simp] theorem Dev.put_stk (d : Dev) (f : Field) (x : Nat) : (d.put f x).stk = d.stk := rfl
@[simp] theorem Dev.put_ddr (d : Dev) (f : Field) (x : Nat) : (d.put f x).ddr = d.ddr := rfl
@[simp] theorem Dev.put_lynx (d : Dev) (f : Field) (x : Nat) : (d.put f x).lynx = d.lynx := rfl
@[simp] theorem Dev.put_ext (d : Dev) (f : Field) (x : Nat) : (d.put f x).ext = d.ext := rfl
@[simp] theorem Dev.put_owl (d : Dev) (f : Field) (x : Nat) : (d.put f x).owl = d.owl := rfl
@[simp] theorem Dev.put_owlSvc (d : Dev) (f : Field) (x : Nat) : (d.put f x).owlSvc = d.owlSvc := rfl
@[simp] theorem Dev.put_pulse (d : Dev) (f : Field) (x : Nat) : (d.put f x).pulse = d.pulse := rfl
@[simp] theorem Dev.put_badger (d : Dev) (f : Field) (x : Nat) : (d.put f x).badger = d.badger := rfl
@[simp] theorem Dev.put_beaver (d : Dev) (f : Field) (x : Nat) : (d.put f x).beaver = d.beaver := rfl
@[simp] theorem Dev.put_ifl (d : Dev) (f : Field) (x : Nat) : (d.put f x).ifl = d.ifl := rfl
@[simp] theorem Dev.put_cal (d : Dev) (f : Field) (x : Nat) : (d.put f x).cal = d.cal := rfl
@[simp] theorem Dev.put_hedge (d : Dev) (f : Field) (x : Nat) : (d.put f x).hedge = d.hedge := rfl
@[simp] theorem Dev.put_pwr (d : Dev) (f : Field) (x : Nat) : (d.put f x).pwr = d.pwr := rfl
@[simp] theorem Dev.put_tap (d : Dev) (f : Field) (x : Nat) : (d.put f x).tap = d.tap := rfl

@[simp] theorem Dev.putB_eff (d : Dev) (f : Field) (b : Bool) : (d.putB f b).eff = d.eff := rfl
@[simp] theorem Dev.putB_mem (d : Dev) (f : Field) (b : Bool) : (d.putB f b).mem = d.mem := rfl
@[simp] theorem Dev.putB_gen (d : Dev) (f : Field) (b : Bool) : (d.putB f b).gen = d.gen := rfl
@[simp] theorem Dev.putB_shadows (d : Dev) (f : Field) (b : Bool) : (d.putB f b).shadows = d.shadows := rfl
@[simp] theorem Dev.putB_halves (d : Dev) (f : Field) (b : Bool) : (d.putB f b).halves = d.halves := rfl
@[simp] theorem Dev.putB_lastLo (d : Dev) (f : Field) (b : Bool) : (d.putB f b).lastLo = d.lastLo := rfl
@[simp] theorem Dev.putB_crossings (d : Dev) (f : Field) (b : Bool) : (d.putB f b).crossings = d.crossings := rfl
@[simp] theorem Dev.putB_freeCtr (d : Dev) (f : Field) (b : Bool) : (d.putB f b).freeCtr = d.freeCtr := rfl
@[simp] theorem Dev.putB_cfgc (d : Dev) (f : Field) (b : Bool) : (d.putB f b).cfgc = d.cfgc := rfl
@[simp] theorem Dev.putB_aqs (d : Dev) (f : Field) (b : Bool) : (d.putB f b).aqs = d.aqs := rfl
@[simp] theorem Dev.putB_host (d : Dev) (f : Field) (b : Bool) : (d.putB f b).host = d.host := rfl
@[simp] theorem Dev.putB_mod (d : Dev) (f : Field) (b : Bool) : (d.putB f b).mod = d.mod := rfl
@[simp] theorem Dev.putB_stag (d : Dev) (f : Field) (b : Bool) : (d.putB f b).stag = d.stag := rfl
@[simp] theorem Dev.putB_conv (d : Dev) (f : Field) (b : Bool) : (d.putB f b).conv = d.conv := rfl
@[simp] theorem Dev.putB_cap (d : Dev) (f : Field) (b : Bool) : (d.putB f b).cap = d.cap := rfl
@[simp] theorem Dev.putB_sealing (d : Dev) (f : Field) (b : Bool) : (d.putB f b).sealing = d.sealing := rfl
@[simp] theorem Dev.putB_fox (d : Dev) (f : Field) (b : Bool) : (d.putB f b).fox = d.fox := rfl
@[simp] theorem Dev.putB_sdec (d : Dev) (f : Field) (b : Bool) : (d.putB f b).sdec = d.sdec := rfl
@[simp] theorem Dev.putB_sdi (d : Dev) (f : Field) (b : Bool) : (d.putB f b).sdi = d.sdi := rfl
@[simp] theorem Dev.putB_red (d : Dev) (f : Field) (b : Bool) : (d.putB f b).red = d.red := rfl
@[simp] theorem Dev.putB_stk (d : Dev) (f : Field) (b : Bool) : (d.putB f b).stk = d.stk := rfl
@[simp] theorem Dev.putB_ddr (d : Dev) (f : Field) (b : Bool) : (d.putB f b).ddr = d.ddr := rfl
@[simp] theorem Dev.putB_lynx (d : Dev) (f : Field) (b : Bool) : (d.putB f b).lynx = d.lynx := rfl
@[simp] theorem Dev.putB_ext (d : Dev) (f : Field) (b : Bool) : (d.putB f b).ext = d.ext := rfl
@[simp] theorem Dev.putB_owl (d : Dev) (f : Field) (b : Bool) : (d.putB f b).owl = d.owl := rfl
@[simp] theorem Dev.putB_owlSvc (d : Dev) (f : Field) (b : Bool) : (d.putB f b).owlSvc = d.owlSvc := rfl
@[simp] theorem Dev.putB_pulse (d : Dev) (f : Field) (b : Bool) : (d.putB f b).pulse = d.pulse := rfl
@[simp] theorem Dev.putB_badger (d : Dev) (f : Field) (b : Bool) : (d.putB f b).badger = d.badger := rfl
@[simp] theorem Dev.putB_beaver (d : Dev) (f : Field) (b : Bool) : (d.putB f b).beaver = d.beaver := rfl
@[simp] theorem Dev.putB_ifl (d : Dev) (f : Field) (b : Bool) : (d.putB f b).ifl = d.ifl := rfl
@[simp] theorem Dev.putB_cal (d : Dev) (f : Field) (b : Bool) : (d.putB f b).cal = d.cal := rfl
@[simp] theorem Dev.putB_hedge (d : Dev) (f : Field) (b : Bool) : (d.putB f b).hedge = d.hedge := rfl
@[simp] theorem Dev.putB_pwr (d : Dev) (f : Field) (b : Bool) : (d.putB f b).pwr = d.pwr := rfl
@[simp] theorem Dev.putB_tap (d : Dev) (f : Field) (b : Bool) : (d.putB f b).tap = d.tap := rfl

@[simp] theorem Dev.wr64_eff (d : Dev) (a : Nat) (v : Nat) : (d.wr64 a v).eff = d.eff := rfl
@[simp] theorem Dev.wr64_mem (d : Dev) (a : Nat) (v : Nat) : (d.wr64 a v).mem = d.mem := rfl
@[simp] theorem Dev.wr64_gen (d : Dev) (a : Nat) (v : Nat) : (d.wr64 a v).gen = d.gen := rfl
@[simp] theorem Dev.wr64_shadows (d : Dev) (a : Nat) (v : Nat) : (d.wr64 a v).shadows = d.shadows := rfl
@[simp] theorem Dev.wr64_halves (d : Dev) (a : Nat) (v : Nat) : (d.wr64 a v).halves = d.halves := rfl
@[simp] theorem Dev.wr64_lastLo (d : Dev) (a : Nat) (v : Nat) : (d.wr64 a v).lastLo = d.lastLo := rfl
@[simp] theorem Dev.wr64_crossings (d : Dev) (a : Nat) (v : Nat) : (d.wr64 a v).crossings = d.crossings := rfl
@[simp] theorem Dev.wr64_freeCtr (d : Dev) (a : Nat) (v : Nat) : (d.wr64 a v).freeCtr = d.freeCtr := rfl
@[simp] theorem Dev.wr64_cfgc (d : Dev) (a : Nat) (v : Nat) : (d.wr64 a v).cfgc = d.cfgc := rfl
@[simp] theorem Dev.wr64_aqs (d : Dev) (a : Nat) (v : Nat) : (d.wr64 a v).aqs = d.aqs := rfl
@[simp] theorem Dev.wr64_host (d : Dev) (a : Nat) (v : Nat) : (d.wr64 a v).host = d.host := rfl
@[simp] theorem Dev.wr64_mod (d : Dev) (a : Nat) (v : Nat) : (d.wr64 a v).mod = d.mod := rfl
@[simp] theorem Dev.wr64_stag (d : Dev) (a : Nat) (v : Nat) : (d.wr64 a v).stag = d.stag := rfl
@[simp] theorem Dev.wr64_conv (d : Dev) (a : Nat) (v : Nat) : (d.wr64 a v).conv = d.conv := rfl
@[simp] theorem Dev.wr64_cap (d : Dev) (a : Nat) (v : Nat) : (d.wr64 a v).cap = d.cap := rfl
@[simp] theorem Dev.wr64_sealing (d : Dev) (a : Nat) (v : Nat) : (d.wr64 a v).sealing = d.sealing := rfl
@[simp] theorem Dev.wr64_fox (d : Dev) (a : Nat) (v : Nat) : (d.wr64 a v).fox = d.fox := rfl
@[simp] theorem Dev.wr64_sdec (d : Dev) (a : Nat) (v : Nat) : (d.wr64 a v).sdec = d.sdec := rfl
@[simp] theorem Dev.wr64_sdi (d : Dev) (a : Nat) (v : Nat) : (d.wr64 a v).sdi = d.sdi := rfl
@[simp] theorem Dev.wr64_red (d : Dev) (a : Nat) (v : Nat) : (d.wr64 a v).red = d.red := rfl
@[simp] theorem Dev.wr64_stk (d : Dev) (a : Nat) (v : Nat) : (d.wr64 a v).stk = d.stk := rfl
@[simp] theorem Dev.wr64_ddr (d : Dev) (a : Nat) (v : Nat) : (d.wr64 a v).ddr = d.ddr := rfl
@[simp] theorem Dev.wr64_lynx (d : Dev) (a : Nat) (v : Nat) : (d.wr64 a v).lynx = d.lynx := rfl
@[simp] theorem Dev.wr64_ext (d : Dev) (a : Nat) (v : Nat) : (d.wr64 a v).ext = d.ext := rfl
@[simp] theorem Dev.wr64_owl (d : Dev) (a : Nat) (v : Nat) : (d.wr64 a v).owl = d.owl := rfl
@[simp] theorem Dev.wr64_owlSvc (d : Dev) (a : Nat) (v : Nat) : (d.wr64 a v).owlSvc = d.owlSvc := rfl
@[simp] theorem Dev.wr64_pulse (d : Dev) (a : Nat) (v : Nat) : (d.wr64 a v).pulse = d.pulse := rfl
@[simp] theorem Dev.wr64_badger (d : Dev) (a : Nat) (v : Nat) : (d.wr64 a v).badger = d.badger := rfl
@[simp] theorem Dev.wr64_beaver (d : Dev) (a : Nat) (v : Nat) : (d.wr64 a v).beaver = d.beaver := rfl
@[simp] theorem Dev.wr64_ifl (d : Dev) (a : Nat) (v : Nat) : (d.wr64 a v).ifl = d.ifl := rfl
@[simp] theorem Dev.wr64_cal (d : Dev) (a : Nat) (v : Nat) : (d.wr64 a v).cal = d.cal := rfl
@[simp] theorem Dev.wr64_hedge (d : Dev) (a : Nat) (v : Nat) : (d.wr64 a v).hedge = d.hedge := rfl
@[simp] theorem Dev.wr64_pwr (d : Dev) (a : Nat) (v : Nat) : (d.wr64 a v).pwr = d.pwr := rfl
@[simp] theorem Dev.wr64_tap (d : Dev) (a : Nat) (v : Nat) : (d.wr64 a v).tap = d.tap := rfl

@[simp] theorem Dev.count_eff (d : Dev) (a n : Nat) : (d.count a n).eff = d.eff := rfl
@[simp] theorem Dev.count_mem (d : Dev) (a n : Nat) : (d.count a n).mem = d.mem := rfl
@[simp] theorem Dev.count_gen (d : Dev) (a n : Nat) : (d.count a n).gen = d.gen := rfl
@[simp] theorem Dev.count_shadows (d : Dev) (a n : Nat) : (d.count a n).shadows = d.shadows := rfl
@[simp] theorem Dev.count_halves (d : Dev) (a n : Nat) : (d.count a n).halves = d.halves := rfl
@[simp] theorem Dev.count_lastLo (d : Dev) (a n : Nat) : (d.count a n).lastLo = d.lastLo := rfl
@[simp] theorem Dev.count_crossings (d : Dev) (a n : Nat) : (d.count a n).crossings = d.crossings := rfl
@[simp] theorem Dev.count_freeCtr (d : Dev) (a n : Nat) : (d.count a n).freeCtr = d.freeCtr := rfl
@[simp] theorem Dev.count_cfgc (d : Dev) (a n : Nat) : (d.count a n).cfgc = d.cfgc := rfl
@[simp] theorem Dev.count_aqs (d : Dev) (a n : Nat) : (d.count a n).aqs = d.aqs := rfl
@[simp] theorem Dev.count_host (d : Dev) (a n : Nat) : (d.count a n).host = d.host := rfl
@[simp] theorem Dev.count_mod (d : Dev) (a n : Nat) : (d.count a n).mod = d.mod := rfl
@[simp] theorem Dev.count_stag (d : Dev) (a n : Nat) : (d.count a n).stag = d.stag := rfl
@[simp] theorem Dev.count_conv (d : Dev) (a n : Nat) : (d.count a n).conv = d.conv := rfl
@[simp] theorem Dev.count_cap (d : Dev) (a n : Nat) : (d.count a n).cap = d.cap := rfl
@[simp] theorem Dev.count_sealing (d : Dev) (a n : Nat) : (d.count a n).sealing = d.sealing := rfl
@[simp] theorem Dev.count_fox (d : Dev) (a n : Nat) : (d.count a n).fox = d.fox := rfl
@[simp] theorem Dev.count_sdec (d : Dev) (a n : Nat) : (d.count a n).sdec = d.sdec := rfl
@[simp] theorem Dev.count_sdi (d : Dev) (a n : Nat) : (d.count a n).sdi = d.sdi := rfl
@[simp] theorem Dev.count_red (d : Dev) (a n : Nat) : (d.count a n).red = d.red := rfl
@[simp] theorem Dev.count_stk (d : Dev) (a n : Nat) : (d.count a n).stk = d.stk := rfl
@[simp] theorem Dev.count_ddr (d : Dev) (a n : Nat) : (d.count a n).ddr = d.ddr := rfl
@[simp] theorem Dev.count_lynx (d : Dev) (a n : Nat) : (d.count a n).lynx = d.lynx := rfl
@[simp] theorem Dev.count_ext (d : Dev) (a n : Nat) : (d.count a n).ext = d.ext := rfl
@[simp] theorem Dev.count_owl (d : Dev) (a n : Nat) : (d.count a n).owl = d.owl := rfl
@[simp] theorem Dev.count_owlSvc (d : Dev) (a n : Nat) : (d.count a n).owlSvc = d.owlSvc := rfl
@[simp] theorem Dev.count_pulse (d : Dev) (a n : Nat) : (d.count a n).pulse = d.pulse := rfl
@[simp] theorem Dev.count_badger (d : Dev) (a n : Nat) : (d.count a n).badger = d.badger := rfl
@[simp] theorem Dev.count_beaver (d : Dev) (a n : Nat) : (d.count a n).beaver = d.beaver := rfl
@[simp] theorem Dev.count_ifl (d : Dev) (a n : Nat) : (d.count a n).ifl = d.ifl := rfl
@[simp] theorem Dev.count_cal (d : Dev) (a n : Nat) : (d.count a n).cal = d.cal := rfl
@[simp] theorem Dev.count_hedge (d : Dev) (a n : Nat) : (d.count a n).hedge = d.hedge := rfl
@[simp] theorem Dev.count_pwr (d : Dev) (a n : Nat) : (d.count a n).pwr = d.pwr := rfl
@[simp] theorem Dev.count_tap (d : Dev) (a n : Nat) : (d.count a n).tap = d.tap := rfl

@[simp] theorem Dev.setUnit_eff (d : Dev) (u : UnitId) (st : Nat) : (d.setUnit u st).eff = d.eff := rfl
@[simp] theorem Dev.setUnit_mem (d : Dev) (u : UnitId) (st : Nat) : (d.setUnit u st).mem = d.mem := rfl
@[simp] theorem Dev.setUnit_gen (d : Dev) (u : UnitId) (st : Nat) : (d.setUnit u st).gen = d.gen := rfl
@[simp] theorem Dev.setUnit_shadows (d : Dev) (u : UnitId) (st : Nat) : (d.setUnit u st).shadows = d.shadows := rfl
@[simp] theorem Dev.setUnit_halves (d : Dev) (u : UnitId) (st : Nat) : (d.setUnit u st).halves = d.halves := rfl
@[simp] theorem Dev.setUnit_lastLo (d : Dev) (u : UnitId) (st : Nat) : (d.setUnit u st).lastLo = d.lastLo := rfl
@[simp] theorem Dev.setUnit_crossings (d : Dev) (u : UnitId) (st : Nat) : (d.setUnit u st).crossings = d.crossings := rfl
@[simp] theorem Dev.setUnit_freeCtr (d : Dev) (u : UnitId) (st : Nat) : (d.setUnit u st).freeCtr = d.freeCtr := rfl
@[simp] theorem Dev.setUnit_cfgc (d : Dev) (u : UnitId) (st : Nat) : (d.setUnit u st).cfgc = d.cfgc := rfl
@[simp] theorem Dev.setUnit_aqs (d : Dev) (u : UnitId) (st : Nat) : (d.setUnit u st).aqs = d.aqs := rfl
@[simp] theorem Dev.setUnit_host (d : Dev) (u : UnitId) (st : Nat) : (d.setUnit u st).host = d.host := rfl
@[simp] theorem Dev.setUnit_mod (d : Dev) (u : UnitId) (st : Nat) : (d.setUnit u st).mod = d.mod := rfl
@[simp] theorem Dev.setUnit_stag (d : Dev) (u : UnitId) (st : Nat) : (d.setUnit u st).stag = d.stag := rfl
@[simp] theorem Dev.setUnit_conv (d : Dev) (u : UnitId) (st : Nat) : (d.setUnit u st).conv = d.conv := rfl
@[simp] theorem Dev.setUnit_cap (d : Dev) (u : UnitId) (st : Nat) : (d.setUnit u st).cap = d.cap := rfl
@[simp] theorem Dev.setUnit_sealing (d : Dev) (u : UnitId) (st : Nat) : (d.setUnit u st).sealing = d.sealing := rfl
@[simp] theorem Dev.setUnit_fox (d : Dev) (u : UnitId) (st : Nat) : (d.setUnit u st).fox = d.fox := rfl
@[simp] theorem Dev.setUnit_sdec (d : Dev) (u : UnitId) (st : Nat) : (d.setUnit u st).sdec = d.sdec := rfl
@[simp] theorem Dev.setUnit_sdi (d : Dev) (u : UnitId) (st : Nat) : (d.setUnit u st).sdi = d.sdi := rfl
@[simp] theorem Dev.setUnit_red (d : Dev) (u : UnitId) (st : Nat) : (d.setUnit u st).red = d.red := rfl
@[simp] theorem Dev.setUnit_stk (d : Dev) (u : UnitId) (st : Nat) : (d.setUnit u st).stk = d.stk := rfl
@[simp] theorem Dev.setUnit_ddr (d : Dev) (u : UnitId) (st : Nat) : (d.setUnit u st).ddr = d.ddr := rfl
@[simp] theorem Dev.setUnit_lynx (d : Dev) (u : UnitId) (st : Nat) : (d.setUnit u st).lynx = d.lynx := rfl
@[simp] theorem Dev.setUnit_ext (d : Dev) (u : UnitId) (st : Nat) : (d.setUnit u st).ext = d.ext := rfl
@[simp] theorem Dev.setUnit_owl (d : Dev) (u : UnitId) (st : Nat) : (d.setUnit u st).owl = d.owl := rfl
@[simp] theorem Dev.setUnit_owlSvc (d : Dev) (u : UnitId) (st : Nat) : (d.setUnit u st).owlSvc = d.owlSvc := rfl
@[simp] theorem Dev.setUnit_pulse (d : Dev) (u : UnitId) (st : Nat) : (d.setUnit u st).pulse = d.pulse := rfl
@[simp] theorem Dev.setUnit_badger (d : Dev) (u : UnitId) (st : Nat) : (d.setUnit u st).badger = d.badger := rfl
@[simp] theorem Dev.setUnit_beaver (d : Dev) (u : UnitId) (st : Nat) : (d.setUnit u st).beaver = d.beaver := rfl
@[simp] theorem Dev.setUnit_ifl (d : Dev) (u : UnitId) (st : Nat) : (d.setUnit u st).ifl = d.ifl := rfl
@[simp] theorem Dev.setUnit_cal (d : Dev) (u : UnitId) (st : Nat) : (d.setUnit u st).cal = d.cal := rfl
@[simp] theorem Dev.setUnit_hedge (d : Dev) (u : UnitId) (st : Nat) : (d.setUnit u st).hedge = d.hedge := rfl
@[simp] theorem Dev.setUnit_pwr (d : Dev) (u : UnitId) (st : Nat) : (d.setUnit u st).pwr = d.pwr := rfl
@[simp] theorem Dev.setUnit_tap (d : Dev) (u : UnitId) (st : Nat) : (d.setUnit u st).tap = d.tap := rfl

@[simp] theorem Dev.efw_regs (d : Dev) (a : Nat) (v : Word) : (d.efw a v).regs = d.regs := rfl
@[simp] theorem Dev.efw_mem (d : Dev) (a : Nat) (v : Word) : (d.efw a v).mem = d.mem := rfl
@[simp] theorem Dev.efw_gen (d : Dev) (a : Nat) (v : Word) : (d.efw a v).gen = d.gen := rfl
@[simp] theorem Dev.efw_shadows (d : Dev) (a : Nat) (v : Word) : (d.efw a v).shadows = d.shadows := rfl
@[simp] theorem Dev.efw_halves (d : Dev) (a : Nat) (v : Word) : (d.efw a v).halves = d.halves := rfl
@[simp] theorem Dev.efw_lastLo (d : Dev) (a : Nat) (v : Word) : (d.efw a v).lastLo = d.lastLo := rfl
@[simp] theorem Dev.efw_crossings (d : Dev) (a : Nat) (v : Word) : (d.efw a v).crossings = d.crossings := rfl
@[simp] theorem Dev.efw_freeCtr (d : Dev) (a : Nat) (v : Word) : (d.efw a v).freeCtr = d.freeCtr := rfl
@[simp] theorem Dev.efw_cfgc (d : Dev) (a : Nat) (v : Word) : (d.efw a v).cfgc = d.cfgc := rfl
@[simp] theorem Dev.efw_aqs (d : Dev) (a : Nat) (v : Word) : (d.efw a v).aqs = d.aqs := rfl
@[simp] theorem Dev.efw_host (d : Dev) (a : Nat) (v : Word) : (d.efw a v).host = d.host := rfl
@[simp] theorem Dev.efw_mod (d : Dev) (a : Nat) (v : Word) : (d.efw a v).mod = d.mod := rfl
@[simp] theorem Dev.efw_stag (d : Dev) (a : Nat) (v : Word) : (d.efw a v).stag = d.stag := rfl
@[simp] theorem Dev.efw_conv (d : Dev) (a : Nat) (v : Word) : (d.efw a v).conv = d.conv := rfl
@[simp] theorem Dev.efw_cap (d : Dev) (a : Nat) (v : Word) : (d.efw a v).cap = d.cap := rfl
@[simp] theorem Dev.efw_sealing (d : Dev) (a : Nat) (v : Word) : (d.efw a v).sealing = d.sealing := rfl
@[simp] theorem Dev.efw_fox (d : Dev) (a : Nat) (v : Word) : (d.efw a v).fox = d.fox := rfl
@[simp] theorem Dev.efw_sdec (d : Dev) (a : Nat) (v : Word) : (d.efw a v).sdec = d.sdec := rfl
@[simp] theorem Dev.efw_sdi (d : Dev) (a : Nat) (v : Word) : (d.efw a v).sdi = d.sdi := rfl
@[simp] theorem Dev.efw_red (d : Dev) (a : Nat) (v : Word) : (d.efw a v).red = d.red := rfl
@[simp] theorem Dev.efw_stk (d : Dev) (a : Nat) (v : Word) : (d.efw a v).stk = d.stk := rfl
@[simp] theorem Dev.efw_ddr (d : Dev) (a : Nat) (v : Word) : (d.efw a v).ddr = d.ddr := rfl
@[simp] theorem Dev.efw_lynx (d : Dev) (a : Nat) (v : Word) : (d.efw a v).lynx = d.lynx := rfl
@[simp] theorem Dev.efw_ext (d : Dev) (a : Nat) (v : Word) : (d.efw a v).ext = d.ext := rfl
@[simp] theorem Dev.efw_owl (d : Dev) (a : Nat) (v : Word) : (d.efw a v).owl = d.owl := rfl
@[simp] theorem Dev.efw_owlSvc (d : Dev) (a : Nat) (v : Word) : (d.efw a v).owlSvc = d.owlSvc := rfl
@[simp] theorem Dev.efw_pulse (d : Dev) (a : Nat) (v : Word) : (d.efw a v).pulse = d.pulse := rfl
@[simp] theorem Dev.efw_badger (d : Dev) (a : Nat) (v : Word) : (d.efw a v).badger = d.badger := rfl
@[simp] theorem Dev.efw_beaver (d : Dev) (a : Nat) (v : Word) : (d.efw a v).beaver = d.beaver := rfl
@[simp] theorem Dev.efw_ifl (d : Dev) (a : Nat) (v : Word) : (d.efw a v).ifl = d.ifl := rfl
@[simp] theorem Dev.efw_cal (d : Dev) (a : Nat) (v : Word) : (d.efw a v).cal = d.cal := rfl
@[simp] theorem Dev.efw_hedge (d : Dev) (a : Nat) (v : Word) : (d.efw a v).hedge = d.hedge := rfl
@[simp] theorem Dev.efw_pwr (d : Dev) (a : Nat) (v : Word) : (d.efw a v).pwr = d.pwr := rfl
@[simp] theorem Dev.efw_tap (d : Dev) (a : Nat) (v : Word) : (d.efw a v).tap = d.tap := rfl

@[simp] theorem Dev.setByte_regs (d : Dev) (a : Nat) (b : Byte) : (d.setByte a b).regs = d.regs := rfl
@[simp] theorem Dev.setByte_eff (d : Dev) (a : Nat) (b : Byte) : (d.setByte a b).eff = d.eff := rfl
@[simp] theorem Dev.setByte_gen (d : Dev) (a : Nat) (b : Byte) : (d.setByte a b).gen = d.gen := rfl
@[simp] theorem Dev.setByte_shadows (d : Dev) (a : Nat) (b : Byte) : (d.setByte a b).shadows = d.shadows := rfl
@[simp] theorem Dev.setByte_halves (d : Dev) (a : Nat) (b : Byte) : (d.setByte a b).halves = d.halves := rfl
@[simp] theorem Dev.setByte_lastLo (d : Dev) (a : Nat) (b : Byte) : (d.setByte a b).lastLo = d.lastLo := rfl
@[simp] theorem Dev.setByte_crossings (d : Dev) (a : Nat) (b : Byte) : (d.setByte a b).crossings = d.crossings := rfl
@[simp] theorem Dev.setByte_freeCtr (d : Dev) (a : Nat) (b : Byte) : (d.setByte a b).freeCtr = d.freeCtr := rfl
@[simp] theorem Dev.setByte_cfgc (d : Dev) (a : Nat) (b : Byte) : (d.setByte a b).cfgc = d.cfgc := rfl
@[simp] theorem Dev.setByte_aqs (d : Dev) (a : Nat) (b : Byte) : (d.setByte a b).aqs = d.aqs := rfl
@[simp] theorem Dev.setByte_host (d : Dev) (a : Nat) (b : Byte) : (d.setByte a b).host = d.host := rfl
@[simp] theorem Dev.setByte_mod (d : Dev) (a : Nat) (b : Byte) : (d.setByte a b).mod = d.mod := rfl
@[simp] theorem Dev.setByte_stag (d : Dev) (a : Nat) (b : Byte) : (d.setByte a b).stag = d.stag := rfl
@[simp] theorem Dev.setByte_conv (d : Dev) (a : Nat) (b : Byte) : (d.setByte a b).conv = d.conv := rfl
@[simp] theorem Dev.setByte_cap (d : Dev) (a : Nat) (b : Byte) : (d.setByte a b).cap = d.cap := rfl
@[simp] theorem Dev.setByte_sealing (d : Dev) (a : Nat) (b : Byte) : (d.setByte a b).sealing = d.sealing := rfl
@[simp] theorem Dev.setByte_fox (d : Dev) (a : Nat) (b : Byte) : (d.setByte a b).fox = d.fox := rfl
@[simp] theorem Dev.setByte_sdec (d : Dev) (a : Nat) (b : Byte) : (d.setByte a b).sdec = d.sdec := rfl
@[simp] theorem Dev.setByte_sdi (d : Dev) (a : Nat) (b : Byte) : (d.setByte a b).sdi = d.sdi := rfl
@[simp] theorem Dev.setByte_red (d : Dev) (a : Nat) (b : Byte) : (d.setByte a b).red = d.red := rfl
@[simp] theorem Dev.setByte_stk (d : Dev) (a : Nat) (b : Byte) : (d.setByte a b).stk = d.stk := rfl
@[simp] theorem Dev.setByte_ddr (d : Dev) (a : Nat) (b : Byte) : (d.setByte a b).ddr = d.ddr := rfl
@[simp] theorem Dev.setByte_lynx (d : Dev) (a : Nat) (b : Byte) : (d.setByte a b).lynx = d.lynx := rfl
@[simp] theorem Dev.setByte_ext (d : Dev) (a : Nat) (b : Byte) : (d.setByte a b).ext = d.ext := rfl
@[simp] theorem Dev.setByte_owl (d : Dev) (a : Nat) (b : Byte) : (d.setByte a b).owl = d.owl := rfl
@[simp] theorem Dev.setByte_owlSvc (d : Dev) (a : Nat) (b : Byte) : (d.setByte a b).owlSvc = d.owlSvc := rfl
@[simp] theorem Dev.setByte_pulse (d : Dev) (a : Nat) (b : Byte) : (d.setByte a b).pulse = d.pulse := rfl
@[simp] theorem Dev.setByte_badger (d : Dev) (a : Nat) (b : Byte) : (d.setByte a b).badger = d.badger := rfl
@[simp] theorem Dev.setByte_beaver (d : Dev) (a : Nat) (b : Byte) : (d.setByte a b).beaver = d.beaver := rfl
@[simp] theorem Dev.setByte_ifl (d : Dev) (a : Nat) (b : Byte) : (d.setByte a b).ifl = d.ifl := rfl
@[simp] theorem Dev.setByte_cal (d : Dev) (a : Nat) (b : Byte) : (d.setByte a b).cal = d.cal := rfl
@[simp] theorem Dev.setByte_hedge (d : Dev) (a : Nat) (b : Byte) : (d.setByte a b).hedge = d.hedge := rfl
@[simp] theorem Dev.setByte_pwr (d : Dev) (a : Nat) (b : Byte) : (d.setByte a b).pwr = d.pwr := rfl
@[simp] theorem Dev.setByte_tap (d : Dev) (a : Nat) (b : Byte) : (d.setByte a b).tap = d.tap := rfl

@[simp] theorem Dev.nextFree_regs (d : Dev) : (d.nextFree).regs = d.regs := rfl
@[simp] theorem Dev.nextFree_eff (d : Dev) : (d.nextFree).eff = d.eff := rfl
@[simp] theorem Dev.nextFree_mem (d : Dev) : (d.nextFree).mem = d.mem := rfl
@[simp] theorem Dev.nextFree_gen (d : Dev) : (d.nextFree).gen = d.gen := rfl
@[simp] theorem Dev.nextFree_shadows (d : Dev) : (d.nextFree).shadows = d.shadows := rfl
@[simp] theorem Dev.nextFree_halves (d : Dev) : (d.nextFree).halves = d.halves := rfl
@[simp] theorem Dev.nextFree_lastLo (d : Dev) : (d.nextFree).lastLo = d.lastLo := rfl
@[simp] theorem Dev.nextFree_crossings (d : Dev) : (d.nextFree).crossings = d.crossings := rfl
@[simp] theorem Dev.nextFree_cfgc (d : Dev) : (d.nextFree).cfgc = d.cfgc := rfl
@[simp] theorem Dev.nextFree_aqs (d : Dev) : (d.nextFree).aqs = d.aqs := rfl
@[simp] theorem Dev.nextFree_host (d : Dev) : (d.nextFree).host = d.host := rfl
@[simp] theorem Dev.nextFree_mod (d : Dev) : (d.nextFree).mod = d.mod := rfl
@[simp] theorem Dev.nextFree_stag (d : Dev) : (d.nextFree).stag = d.stag := rfl
@[simp] theorem Dev.nextFree_conv (d : Dev) : (d.nextFree).conv = d.conv := rfl
@[simp] theorem Dev.nextFree_cap (d : Dev) : (d.nextFree).cap = d.cap := rfl
@[simp] theorem Dev.nextFree_sealing (d : Dev) : (d.nextFree).sealing = d.sealing := rfl
@[simp] theorem Dev.nextFree_fox (d : Dev) : (d.nextFree).fox = d.fox := rfl
@[simp] theorem Dev.nextFree_sdec (d : Dev) : (d.nextFree).sdec = d.sdec := rfl
@[simp] theorem Dev.nextFree_sdi (d : Dev) : (d.nextFree).sdi = d.sdi := rfl
@[simp] theorem Dev.nextFree_red (d : Dev) : (d.nextFree).red = d.red := rfl
@[simp] theorem Dev.nextFree_stk (d : Dev) : (d.nextFree).stk = d.stk := rfl
@[simp] theorem Dev.nextFree_ddr (d : Dev) : (d.nextFree).ddr = d.ddr := rfl
@[simp] theorem Dev.nextFree_lynx (d : Dev) : (d.nextFree).lynx = d.lynx := rfl
@[simp] theorem Dev.nextFree_ext (d : Dev) : (d.nextFree).ext = d.ext := rfl
@[simp] theorem Dev.nextFree_owl (d : Dev) : (d.nextFree).owl = d.owl := rfl
@[simp] theorem Dev.nextFree_owlSvc (d : Dev) : (d.nextFree).owlSvc = d.owlSvc := rfl
@[simp] theorem Dev.nextFree_pulse (d : Dev) : (d.nextFree).pulse = d.pulse := rfl
@[simp] theorem Dev.nextFree_badger (d : Dev) : (d.nextFree).badger = d.badger := rfl
@[simp] theorem Dev.nextFree_beaver (d : Dev) : (d.nextFree).beaver = d.beaver := rfl
@[simp] theorem Dev.nextFree_ifl (d : Dev) : (d.nextFree).ifl = d.ifl := rfl
@[simp] theorem Dev.nextFree_cal (d : Dev) : (d.nextFree).cal = d.cal := rfl
@[simp] theorem Dev.nextFree_hedge (d : Dev) : (d.nextFree).hedge = d.hedge := rfl
@[simp] theorem Dev.nextFree_pwr (d : Dev) : (d.nextFree).pwr = d.pwr := rfl
@[simp] theorem Dev.nextFree_tap (d : Dev) : (d.nextFree).tap = d.tap := rfl

@[simp] theorem Dev.post_regs (d : Dev) (i : Island) (num sub arg : Nat) (ts : Option TS) : (d.post i num sub arg ts).regs = d.regs := rfl
@[simp] theorem Dev.post_eff (d : Dev) (i : Island) (num sub arg : Nat) (ts : Option TS) : (d.post i num sub arg ts).eff = d.eff := rfl
@[simp] theorem Dev.post_mem (d : Dev) (i : Island) (num sub arg : Nat) (ts : Option TS) : (d.post i num sub arg ts).mem = d.mem := rfl
@[simp] theorem Dev.post_gen (d : Dev) (i : Island) (num sub arg : Nat) (ts : Option TS) : (d.post i num sub arg ts).gen = d.gen := rfl
@[simp] theorem Dev.post_shadows (d : Dev) (i : Island) (num sub arg : Nat) (ts : Option TS) : (d.post i num sub arg ts).shadows = d.shadows := rfl
@[simp] theorem Dev.post_halves (d : Dev) (i : Island) (num sub arg : Nat) (ts : Option TS) : (d.post i num sub arg ts).halves = d.halves := rfl
@[simp] theorem Dev.post_lastLo (d : Dev) (i : Island) (num sub arg : Nat) (ts : Option TS) : (d.post i num sub arg ts).lastLo = d.lastLo := rfl
@[simp] theorem Dev.post_freeCtr (d : Dev) (i : Island) (num sub arg : Nat) (ts : Option TS) : (d.post i num sub arg ts).freeCtr = d.freeCtr := rfl
@[simp] theorem Dev.post_cfgc (d : Dev) (i : Island) (num sub arg : Nat) (ts : Option TS) : (d.post i num sub arg ts).cfgc = d.cfgc := rfl
@[simp] theorem Dev.post_aqs (d : Dev) (i : Island) (num sub arg : Nat) (ts : Option TS) : (d.post i num sub arg ts).aqs = d.aqs := rfl
@[simp] theorem Dev.post_host (d : Dev) (i : Island) (num sub arg : Nat) (ts : Option TS) : (d.post i num sub arg ts).host = d.host := rfl
@[simp] theorem Dev.post_mod (d : Dev) (i : Island) (num sub arg : Nat) (ts : Option TS) : (d.post i num sub arg ts).mod = d.mod := rfl
@[simp] theorem Dev.post_stag (d : Dev) (i : Island) (num sub arg : Nat) (ts : Option TS) : (d.post i num sub arg ts).stag = d.stag := rfl
@[simp] theorem Dev.post_conv (d : Dev) (i : Island) (num sub arg : Nat) (ts : Option TS) : (d.post i num sub arg ts).conv = d.conv := rfl
@[simp] theorem Dev.post_cap (d : Dev) (i : Island) (num sub arg : Nat) (ts : Option TS) : (d.post i num sub arg ts).cap = d.cap := rfl
@[simp] theorem Dev.post_sealing (d : Dev) (i : Island) (num sub arg : Nat) (ts : Option TS) : (d.post i num sub arg ts).sealing = d.sealing := rfl
@[simp] theorem Dev.post_fox (d : Dev) (i : Island) (num sub arg : Nat) (ts : Option TS) : (d.post i num sub arg ts).fox = d.fox := rfl
@[simp] theorem Dev.post_sdec (d : Dev) (i : Island) (num sub arg : Nat) (ts : Option TS) : (d.post i num sub arg ts).sdec = d.sdec := rfl
@[simp] theorem Dev.post_sdi (d : Dev) (i : Island) (num sub arg : Nat) (ts : Option TS) : (d.post i num sub arg ts).sdi = d.sdi := rfl
@[simp] theorem Dev.post_red (d : Dev) (i : Island) (num sub arg : Nat) (ts : Option TS) : (d.post i num sub arg ts).red = d.red := rfl
@[simp] theorem Dev.post_stk (d : Dev) (i : Island) (num sub arg : Nat) (ts : Option TS) : (d.post i num sub arg ts).stk = d.stk := rfl
@[simp] theorem Dev.post_ddr (d : Dev) (i : Island) (num sub arg : Nat) (ts : Option TS) : (d.post i num sub arg ts).ddr = d.ddr := rfl
@[simp] theorem Dev.post_lynx (d : Dev) (i : Island) (num sub arg : Nat) (ts : Option TS) : (d.post i num sub arg ts).lynx = d.lynx := rfl
@[simp] theorem Dev.post_ext (d : Dev) (i : Island) (num sub arg : Nat) (ts : Option TS) : (d.post i num sub arg ts).ext = d.ext := rfl
@[simp] theorem Dev.post_owl (d : Dev) (i : Island) (num sub arg : Nat) (ts : Option TS) : (d.post i num sub arg ts).owl = d.owl := rfl
@[simp] theorem Dev.post_owlSvc (d : Dev) (i : Island) (num sub arg : Nat) (ts : Option TS) : (d.post i num sub arg ts).owlSvc = d.owlSvc := rfl
@[simp] theorem Dev.post_pulse (d : Dev) (i : Island) (num sub arg : Nat) (ts : Option TS) : (d.post i num sub arg ts).pulse = d.pulse := rfl
@[simp] theorem Dev.post_badger (d : Dev) (i : Island) (num sub arg : Nat) (ts : Option TS) : (d.post i num sub arg ts).badger = d.badger := rfl
@[simp] theorem Dev.post_beaver (d : Dev) (i : Island) (num sub arg : Nat) (ts : Option TS) : (d.post i num sub arg ts).beaver = d.beaver := rfl
@[simp] theorem Dev.post_ifl (d : Dev) (i : Island) (num sub arg : Nat) (ts : Option TS) : (d.post i num sub arg ts).ifl = d.ifl := rfl
@[simp] theorem Dev.post_cal (d : Dev) (i : Island) (num sub arg : Nat) (ts : Option TS) : (d.post i num sub arg ts).cal = d.cal := rfl
@[simp] theorem Dev.post_hedge (d : Dev) (i : Island) (num sub arg : Nat) (ts : Option TS) : (d.post i num sub arg ts).hedge = d.hedge := rfl
@[simp] theorem Dev.post_pwr (d : Dev) (i : Island) (num sub arg : Nat) (ts : Option TS) : (d.post i num sub arg ts).pwr = d.pwr := rfl
@[simp] theorem Dev.post_tap (d : Dev) (i : Island) (num sub arg : Nat) (ts : Option TS) : (d.post i num sub arg ts).tap = d.tap := rfl

/-! A read of one component after the update of another. -/

@[simp] theorem Dev.rd_efw (d : Dev) (a : Nat) (v : Word) (k : Nat) : (d.efw a v).rd k = d.rd k := rfl
@[simp] theorem Dev.rd_setByte (d : Dev) (a : Nat) (b : Byte) (k : Nat) : (d.setByte a b).rd k = d.rd k := rfl
@[simp] theorem Dev.rd_nextFree (d : Dev)  (k : Nat) : (d.nextFree).rd k = d.rd k := rfl
@[simp] theorem Dev.rd_post (d : Dev) (i : Island) (num sub arg : Nat) (ts : Option TS) (k : Nat) : (d.post i num sub arg ts).rd k = d.rd k := rfl
@[simp] theorem Dev.ef_wr (d : Dev) (a : Nat) (v : Word) (k : Nat) : (d.wr a v).ef k = d.ef k := rfl
@[simp] theorem Dev.cfg_wr (d : Dev) (a : Nat) (v : Word) (g : Field) : (d.wr a v).cfg g = d.cfg g := rfl
@[simp] theorem Dev.byte_wr (d : Dev) (a : Nat) (v : Word) (k : Nat) : (d.wr a v).byte k = d.byte k := rfl
@[simp] theorem Dev.ef_put (d : Dev) (f : Field) (x : Nat) (k : Nat) : (d.put f x).ef k = d.ef k := rfl
@[simp] theorem Dev.cfg_put (d : Dev) (f : Field) (x : Nat) (g : Field) : (d.put f x).cfg g = d.cfg g := rfl
@[simp] theorem Dev.byte_put (d : Dev) (f : Field) (x : Nat) (k : Nat) : (d.put f x).byte k = d.byte k := rfl
@[simp] theorem Dev.ef_putB (d : Dev) (f : Field) (b : Bool) (k : Nat) : (d.putB f b).ef k = d.ef k := rfl
@[simp] theorem Dev.cfg_putB (d : Dev) (f : Field) (b : Bool) (g : Field) : (d.putB f b).cfg g = d.cfg g := rfl
@[simp] theorem Dev.byte_putB (d : Dev) (f : Field) (b : Bool) (k : Nat) : (d.putB f b).byte k = d.byte k := rfl
@[simp] theorem Dev.ef_wr64 (d : Dev) (a : Nat) (v : Nat) (k : Nat) : (d.wr64 a v).ef k = d.ef k := rfl
@[simp] theorem Dev.cfg_wr64 (d : Dev) (a : Nat) (v : Nat) (g : Field) : (d.wr64 a v).cfg g = d.cfg g := rfl
@[simp] theorem Dev.byte_wr64 (d : Dev) (a : Nat) (v : Nat) (k : Nat) : (d.wr64 a v).byte k = d.byte k := rfl
@[simp] theorem Dev.ef_count (d : Dev) (a n : Nat) (k : Nat) : (d.count a n).ef k = d.ef k := rfl
@[simp] theorem Dev.cfg_count (d : Dev) (a n : Nat) (g : Field) : (d.count a n).cfg g = d.cfg g := rfl
@[simp] theorem Dev.byte_count (d : Dev) (a n : Nat) (k : Nat) : (d.count a n).byte k = d.byte k := rfl
@[simp] theorem Dev.ef_setUnit (d : Dev) (u : UnitId) (st : Nat) (k : Nat) : (d.setUnit u st).ef k = d.ef k := rfl
@[simp] theorem Dev.cfg_setUnit (d : Dev) (u : UnitId) (st : Nat) (g : Field) : (d.setUnit u st).cfg g = d.cfg g := rfl
@[simp] theorem Dev.byte_setUnit (d : Dev) (u : UnitId) (st : Nat) (k : Nat) : (d.setUnit u st).byte k = d.byte k := rfl
@[simp] theorem Dev.get_efw (d : Dev) (a : Nat) (v : Word) (g : Field) : (d.efw a v).get g = d.get g := rfl
@[simp] theorem Dev.byte_efw (d : Dev) (a : Nat) (v : Word) (k : Nat) : (d.efw a v).byte k = d.byte k := rfl
@[simp] theorem Dev.get_setByte (d : Dev) (a : Nat) (b : Byte) (g : Field) : (d.setByte a b).get g = d.get g := rfl
@[simp] theorem Dev.ef_setByte (d : Dev) (a : Nat) (b : Byte) (k : Nat) : (d.setByte a b).ef k = d.ef k := rfl
@[simp] theorem Dev.cfg_setByte (d : Dev) (a : Nat) (b : Byte) (g : Field) : (d.setByte a b).cfg g = d.cfg g := rfl
@[simp] theorem Dev.get_nextFree (d : Dev)  (g : Field) : (d.nextFree).get g = d.get g := rfl
@[simp] theorem Dev.ef_nextFree (d : Dev)  (k : Nat) : (d.nextFree).ef k = d.ef k := rfl
@[simp] theorem Dev.cfg_nextFree (d : Dev)  (g : Field) : (d.nextFree).cfg g = d.cfg g := rfl
@[simp] theorem Dev.byte_nextFree (d : Dev)  (k : Nat) : (d.nextFree).byte k = d.byte k := rfl
@[simp] theorem Dev.get_post (d : Dev) (i : Island) (num sub arg : Nat) (ts : Option TS) (g : Field) : (d.post i num sub arg ts).get g = d.get g := rfl
@[simp] theorem Dev.ef_post (d : Dev) (i : Island) (num sub arg : Nat) (ts : Option TS) (k : Nat) : (d.post i num sub arg ts).ef k = d.ef k := rfl
@[simp] theorem Dev.cfg_post (d : Dev) (i : Island) (num sub arg : Nat) (ts : Option TS) (g : Field) : (d.post i num sub arg ts).cfg g = d.cfg g := rfl
@[simp] theorem Dev.byte_post (d : Dev) (i : Island) (num sub arg : Nat) (ts : Option TS) (k : Nat) : (d.post i num sub arg ts).byte k = d.byte k := rfl

end Sys2Proof.Machine
end

