-- ==== Sys2Proof/Laws/Store.lean ====
section
/-! SUPPORT. The sparse store: read after write, and every operation keeps the canonical form. -/
namespace Sys2Proof.Machine.Store

variable {β : Type}

/-- Keys strictly rising and no entry equal to what an unlisted key reads as, as two list properties. -/
def Rising (m : Store β) : Prop := m.Pairwise (fun e f => e.1 < f.1)
def Lean' (dflt : Nat → β) (m : Store β) : Prop := ∀ e ∈ m, e.2 ≠ dflt e.1

theorem get_of_not_mem (dflt : Nat → β) (m : Store β) (k : Nat) (h : ∀ e ∈ m, e.1 ≠ k) : get dflt m k = dflt k := by
  induction m with
  | nil => rfl
  | cons e r ih =>
    obtain ⟨j, v⟩ := e
    simp only [get]
    rw [if_neg (h (j, v) (by simp))]
    exact ih (fun e he => h e (by simp [he]))

theorem get_insert_same (dflt : Nat → β) (m : Store β) (k : Nat) (v : β) (h : ∀ e ∈ m, e.1 ≠ k) :
    get dflt (insert k v m) k = v := by
  induction m with
  | nil => simp [insert, get]
  | cons e r ih =>
    obtain ⟨j, w⟩ := e
    simp only [insert]
    split
    · simp [get]
    · simp only [get]
      rw [if_neg (h (j, w) (by simp))]
      exact ih (fun e he => h e (by simp [he]))

theorem get_insert_ne (dflt : Nat → β) (m : Store β) (k i : Nat) (v : β) (h : i ≠ k) :
    get dflt (insert k v m) i = get dflt m i := by
  induction m with
  | nil => simp [insert, get, Ne.symm h]
  | cons e r ih =>
    obtain ⟨j, w⟩ := e
    simp only [insert]
    split
    · simp only [get]; rw [if_neg (Ne.symm h)]
    · simp only [get]; split
      · rfl
      · exact ih

theorem get_filter (dflt : Nat → β) (m : Store β) (k i : Nat) (h : i ≠ k) :
    get dflt (m.filter (fun e => e.1 != k)) i = get dflt m i := by
  induction m with
  | nil => rfl
  | cons e r ih =>
    obtain ⟨j, w⟩ := e
    by_cases hj : j = k
    · subst hj; simp only [List.filter, bne_self_eq_false, get]; rw [if_neg (Ne.symm h)]; exact ih
    · have : ((j, w).1 != k) = true := by simp [hj]
      simp only [List.filter, this, get]; split
      · rfl
      · exact ih

theorem filter_no_key (m : Store β) (k : Nat) : ∀ e ∈ m.filter (fun e => e.1 != k), e.1 ≠ k := by
  intro e he; simpa using (List.mem_filter.mp he).2

/-- A read after a write to the same key gives the value written. -/
@[simp] theorem get_set_same [DecidableEq β] (dflt : Nat → β) (m : Store β) (k : Nat) (v : β) :
    get dflt (set dflt m k v) k = v := by
  unfold set
  split
  · next h => rw [get_of_not_mem dflt _ k (filter_no_key m k)]; exact h.symm
  · exact get_insert_same dflt _ k v (filter_no_key m k)

/-- A write leaves every other key alone. -/
theorem get_set_ne [DecidableEq β] (dflt : Nat → β) (m : Store β) (k i : Nat) (v : β) (h : i ≠ k) :
    get dflt (set dflt m k v) i = get dflt m i := by
  unfold set
  split
  · exact get_filter dflt m k i h
  · rw [get_insert_ne dflt _ k i v h]; exact get_filter dflt m k i h

/-! ### The canonical form -/

theorem wf_iff [DecidableEq β] (dflt : Nat → β) (m : Store β) : wf dflt m = true ↔ Rising m ∧ Lean' dflt m := by
  induction m with
  | nil => simp [wf, Rising, Lean']
  | cons e r ih =>
    obtain ⟨j, v⟩ := e
    cases r with
    | nil => simp [wf, Rising, Lean']
    | cons f r =>
      obtain ⟨k, w⟩ := f
      have step : wf dflt ((j, v) :: (k, w) :: r) = true ↔ v ≠ dflt j ∧ j < k ∧ wf dflt ((k, w) :: r) = true := by
        simp [wf, and_assoc]
      rw [step, ih]
      simp only [Rising, Lean', List.pairwise_cons, List.mem_cons, forall_eq_or_imp]
      constructor
      · rintro ⟨h1, h2, ⟨h3, h4⟩, h5, h6⟩
        exact ⟨⟨⟨h2, fun a ha => Nat.lt_trans h2 (h3 a ha)⟩, h3, h4⟩, h1, h5, h6⟩
      · rintro ⟨⟨⟨h2, _⟩, h3, h4⟩, h1, h5, h6⟩
        exact ⟨h1, h2, ⟨h3, h4⟩, h5, h6⟩

theorem mem_insert (m : Store β) (k : Nat) (v : β) (e : Nat × β) : e ∈ insert k v m ↔ e = (k, v) ∨ e ∈ m := by
  induction m with
  | nil => simp [insert]
  | cons f r ih =>
    obtain ⟨j, w⟩ := f
    simp only [insert]
    split
    · simp
    · simp only [List.mem_cons, ih]; exact or_left_comm

theorem rising_insert (m : Store β) (k : Nat) (v : β) (h : Rising m) (hk : ∀ e ∈ m, e.1 ≠ k) : Rising (insert k v m) := by
  induction m with
  | nil => simp [insert, Rising]
  | cons f r ih =>
    obtain ⟨j, w⟩ := f
    have hr : Rising r := (List.pairwise_cons.mp h).2
    have hj : ∀ e ∈ r, j < e.1 := (List.pairwise_cons.mp h).1
    have hjk : j ≠ k := hk (j, w) (by simp)
    simp only [insert]
    split
    · next hlt =>
      refine List.pairwise_cons.mpr ⟨?_, h⟩
      intro e he
      rcases List.mem_cons.mp he with rfl | he
      · exact hlt
      · exact Nat.lt_trans hlt (hj e he)
    · refine List.pairwise_cons.mpr ⟨?_, ih hr (fun e he => hk e (by simp [he]))⟩
      intro e he
      rcases (mem_insert r k v e).mp he with rfl | he
      · simp; omega
      · exact hj e he

theorem wf_filter [DecidableEq β] (dflt : Nat → β) (m : Store β) (p : Nat × β → Bool) (h : wf dflt m = true) :
    wf dflt (m.filter p) = true := by
  rw [wf_iff] at *
  exact ⟨h.1.filter p, fun e he => h.2 e (List.mem_filter.mp he).1⟩

/-- Every write keeps the canonical form. -/
theorem wf_set [DecidableEq β] (dflt : Nat → β) (m : Store β) (k : Nat) (v : β) (h : wf dflt m = true) :
    wf dflt (set dflt m k v) = true := by
  have hf := wf_filter dflt m (fun e => e.1 != k) h
  unfold set
  split
  · exact hf
  · next hv =>
    rw [wf_iff] at *
    refine ⟨rising_insert _ k v hf.1 (filter_no_key m k), ?_⟩
    intro e he
    rcases (mem_insert _ k v e).mp he with rfl | he
    · exact hv
    · exact hf.2 e he

end Sys2Proof.Machine.Store
end

