-- ==== Sys2Proof/Laws/Regs.lean ====
section
/-! SUPPORT. Registers, fields and memory: read after write, for registers, fields and bytes. -/
namespace Sys2Proof.Machine

/-! ### Bits -/

theorem bitsOf_lt (v hi lo : Nat) : bitsOf v hi lo < 2 ^ (hi + 1 - lo) := Nat.mod_lt _ (Nat.two_pow_pos _)

/-- A number around one of its fields: what lies above, the field, what lies below. -/
theorem bits_split (v lo w : Nat) : v = v / 2 ^ lo / 2 ^ w * 2 ^ w * 2 ^ lo + v / 2 ^ lo % 2 ^ w * 2 ^ lo + v % 2 ^ lo := by
  rw [← Nat.add_mul, Nat.div_add_mod', Nat.div_add_mod']

theorem setBits_split (v hi lo x : Nat) :
    setBits v hi lo x = v % 2 ^ lo + 2 ^ lo * (v / 2 ^ lo / 2 ^ (hi + 1 - lo) * 2 ^ (hi + 1 - lo) + x % 2 ^ (hi + 1 - lo)) := by
  have h := bits_split v lo (hi + 1 - lo)
  unfold setBits bitsOf
  rw [Nat.mul_add, Nat.mul_comm (2 ^ lo), Nat.mul_comm (2 ^ lo)]
  omega

/-- The bits just replaced read as the low bits of what replaced them. -/
theorem bitsOf_setBits_same (v hi lo x : Nat) : bitsOf (setBits v hi lo x) hi lo = x % 2 ^ (hi + 1 - lo) := by
  rw [setBits_split, bitsOf, Nat.add_mul_div_left _ _ (Nat.two_pow_pos lo), Nat.div_eq_of_lt (Nat.mod_lt _ (Nat.two_pow_pos lo)),
    Nat.zero_add, Nat.mul_comm, Nat.mul_add_mod, Nat.mod_mod]

theorem setBits_mod (v hi lo x : Nat) : setBits v hi lo x % 2 ^ lo = v % 2 ^ lo := by
  rw [setBits_split, Nat.add_mul_mod_self_left, Nat.mod_mod]

theorem setBits_div (v hi lo x : Nat) :
    setBits v hi lo x / 2 ^ lo / 2 ^ (hi + 1 - lo) = v / 2 ^ lo / 2 ^ (hi + 1 - lo) := by
  rw [setBits_split, Nat.add_mul_div_left _ _ (Nat.two_pow_pos lo), Nat.div_eq_of_lt (Nat.mod_lt _ (Nat.two_pow_pos lo)), Nat.zero_add,
    Nat.mul_comm, Nat.mul_add_div (Nat.two_pow_pos _), Nat.div_eq_of_lt (Nat.mod_lt _ (Nat.two_pow_pos _)), Nat.add_zero]

/-- A field wholly below, or wholly above, the bits replaced reads as before. -/
theorem bitsOf_setBits_below (v hi lo x h l : Nat) (hh : h < lo) : bitsOf (setBits v hi lo x) h l = bitsOf v h l := by
  by_cases hl : l ≤ h
  · have key (u : Nat) : bitsOf u h l = u % 2 ^ lo / 2 ^ l % 2 ^ (h + 1 - l) := by
      have e : 2 ^ lo = 2 ^ l * 2 ^ (lo - l) := by rw [← Nat.pow_add]; congr 1; omega
      rw [bitsOf, e, Nat.mod_mul_right_div_self, Nat.mod_mod_of_dvd _ (Nat.pow_dvd_pow 2 (by omega))]
    rw [key, key, setBits_mod]
  · have : h + 1 - l = 0 := by omega
    simp [bitsOf, this, Nat.mod_one]

theorem bitsOf_setBits_above (v hi lo x h l : Nat) (hl : hi < l) (hlo : lo ≤ hi) : bitsOf (setBits v hi lo x) h l = bitsOf v h l := by
  have key (u : Nat) : u / 2 ^ l = u / 2 ^ lo / 2 ^ (hi + 1 - lo) / 2 ^ (l - (hi + 1)) := by
    rw [Nat.div_div_eq_div_mul, Nat.div_div_eq_div_mul, ← Nat.pow_add, ← Nat.pow_add]; congr 2; omega
  rw [bitsOf, bitsOf, key, key v, setBits_div]

theorem setBits_lt (v hi lo x n : Nat) (hv : v < 2 ^ n) (hhi : hi < n) (hlo : lo ≤ hi) : setBits v hi lo x < 2 ^ n := by
  have e : 2 ^ n = 2 ^ lo * (2 ^ (hi + 1 - lo) * 2 ^ (n - (hi + 1))) := by
    rw [← Nat.pow_add, ← Nat.pow_add]; congr 1; omega
  have below (u : Nat) : u < 2 ^ n ↔ u / 2 ^ lo / 2 ^ (hi + 1 - lo) < 2 ^ (n - (hi + 1)) := by
    rw [e, Nat.div_lt_iff_lt_mul (Nat.two_pow_pos _), Nat.div_lt_iff_lt_mul (Nat.two_pow_pos _)]
    simp only [Nat.mul_comm]
  rw [below, setBits_div, ← below]
  exact hv

/-! ### Fields of one word -/

/-- A field of a 32-bit register: its bits lie in the word. -/
abbrev Field.ok (f : Field) : Prop := f.lo ≤ f.hi ∧ f.hi < 32

/-! ### Registers -/

@[simp] theorem Dev.rd_wr_same (d : Dev) (a : Nat) (v : Word) : (d.wr a v).rd a = v := Store.get_set_same _ _ _ _
theorem Dev.rd_wr_ne (d : Dev) (a b : Nat) (v : Word) (h : b ≠ a) : (d.wr a v).rd b = d.rd b := Store.get_set_ne _ _ _ _ _ h
@[simp] theorem Dev.ef_efw_same (d : Dev) (a : Nat) (v : Word) : (d.efw a v).ef a = v := Store.get_set_same _ _ _ _
theorem Dev.ef_efw_ne (d : Dev) (a b : Nat) (v : Word) (h : b ≠ a) : (d.efw a v).ef b = d.ef b := Store.get_set_ne _ _ _ _ _ h

/-- A field write leaves the other registers alone. -/
theorem Dev.rd_put_ne (d : Dev) (f : Field) (x b : Nat) (h : b ≠ f.reg) : (d.put f x).rd b = d.rd b := Dev.rd_wr_ne _ _ _ _ h
theorem Dev.get_wr_ne (d : Dev) (f : Field) (a : Nat) (v : Word) (h : f.reg ≠ a) : (d.wr a v).get f = d.get f := by
  simp only [Dev.get, Dev.rd_wr_ne d a f.reg v h]
theorem Dev.get_put_ne (d : Dev) (f g : Field) (x : Nat) (h : g.reg ≠ f.reg) : (d.put f x).get g = d.get g :=
  Dev.get_wr_ne _ _ _ _ h

theorem Dev.rd_put_same (d : Dev) (f : Field) (x : Nat) (h : f.ok) :
    ((d.put f x).rd f.reg).toNat = setBits (d.rd f.reg).toNat f.hi f.lo x := by
  rw [Dev.put, Dev.rd_wr_same, BitVec.toNat_ofNat, Nat.mod_eq_of_lt]
  exact setBits_lt _ _ _ _ 32 (d.rd f.reg).isLt h.2 h.1

/-- A field reads as the low bits of what was put into it. -/
theorem Dev.get_put_same (d : Dev) (f : Field) (x : Nat) (h : f.ok) : (d.put f x).get f = x % 2 ^ (f.hi + 1 - f.lo) := by
  rw [Dev.get, Dev.rd_put_same d f x h, bitsOf_setBits_same]

/-- A field write leaves the other fields of the register alone. -/
theorem Dev.get_put_other (d : Dev) (f g : Field) (x : Nat) (h : f.ok) (hr : g.reg = f.reg) (hd : g.hi < f.lo ∨ f.hi < g.lo) :
    (d.put f x).get g = d.get g := by
  rw [Dev.get, Dev.get, hr, Dev.rd_put_same d f x h]
  rcases hd with hd | hd
  · exact bitsOf_setBits_below _ _ _ _ _ _ hd
  · exact bitsOf_setBits_above _ _ _ _ _ _ hd h.1

/-! ### Memory -/

@[simp] theorem Dev.byte_setByte_same (d : Dev) (a : Nat) (b : Byte) : (d.setByte a b).byte a = b := Store.get_set_same _ _ _ _
theorem Dev.byte_setByte_ne (d : Dev) (a k : Nat) (b : Byte) (h : k ≠ a) : (d.setByte a b).byte k = d.byte k :=
  Store.get_set_ne _ _ _ _ _ h

/-- A store changes only the bytes it names. -/
theorem Dev.byte_storeBytes_ne (d : Dev) (a k : Nat) (bs : List Byte) (h : k < a ∨ a + bs.length ≤ k) :
    (d.storeBytes a bs).byte k = d.byte k := by
  induction bs generalizing d a with
  | nil => rfl
  | cons b bs ih =>
    simp only [Dev.storeBytes, List.length_cons] at *
    rw [ih (d.setByte a b) (a + 1) (by omega), Dev.byte_setByte_ne d a k b (by omega)]

/-- A byte that was stored reads as stored. -/
theorem Dev.byte_storeBytes_mem (d : Dev) (a i : Nat) (bs : List Byte) (h : i < bs.length) :
    (d.storeBytes a bs).byte (a + i) = bs[i] := by
  induction bs generalizing d a i with
  | nil => simp at h
  | cons b bs ih =>
    simp only [Dev.storeBytes]
    cases i with
    | zero => rw [Nat.add_zero, Dev.byte_storeBytes_ne _ _ _ _ (by omega)]; simp
    | succ i =>
      have := ih (d.setByte a b) (a + 1) i (by simpa using h)
      simpa [Nat.add_assoc, Nat.add_comm 1 i] using this

/-- What was stored loads as stored. -/
theorem Dev.loadBytes_storeBytes (d : Dev) (a : Nat) (bs : List Byte) : (d.storeBytes a bs).loadBytes a bs.length = bs := by
  have key : ∀ (n : Nat) (e : Dev) (k : Nat) (cs : List Byte), cs.length = n → (∀ i (h : i < cs.length), e.byte (k + i) = cs[i]) →
      e.loadBytes k n = cs := by
    intro n
    induction n with
    | zero => intro e k cs hl _; rw [List.length_eq_zero_iff.mp hl]; rfl
    | succ n ih =>
      intro e k cs hl hb
      cases cs with
      | nil => simp at hl
      | cons c cs =>
        have h0 := hb 0 (by simp)
        simp only [Nat.add_zero, List.getElem_cons_zero] at h0
        rw [Dev.loadBytes, h0, ih e (k + 1) cs (by simpa using hl)]
        intro i h
        have := hb (i + 1) (by simpa using h)
        simpa [Nat.add_assoc, Nat.add_comm 1 i] using this
  exact key bs.length _ a bs rfl (fun i h => Dev.byte_storeBytes_mem d a i bs h)

theorem storeBytes_gen (d : Dev) (a : Nat) (bs : List Byte) : (d.storeBytes a bs).gen = d.gen := by
  induction bs generalizing d a with
  | nil => rfl
  | cons b bs ih => rw [Dev.storeBytes, ih]; rfl

/-- Every memory operation keeps the canonical form. -/
theorem setByte_wf (d : Dev) (a : Nat) (b : Byte) (h : Store.wf (memReset d.gen) d.mem = true) :
    Store.wf (memReset (d.setByte a b).gen) (d.setByte a b).mem = true := Store.wf_set _ _ _ _ h

theorem storeBytes_wf (d : Dev) (a : Nat) (bs : List Byte) (h : Store.wf (memReset d.gen) d.mem = true) :
    Store.wf (memReset (d.storeBytes a bs).gen) (d.storeBytes a bs).mem = true := by
  induction bs generalizing d a with
  | nil => exact h
  | cons b bs ih => exact ih (d.setByte a b) (a + 1) (setByte_wf d a b h)

end Sys2Proof.Machine
end

