-- ==== Sys2Proof/Laws/Rows.lean ====
section
/-! SUPPORT. What every command's meaning has in common: it acts on the hardware, on a module that is up. -/
namespace Sys2Proof.Machine

theorem Dev.Up.block {d : Dev} (h : d.Up) (i : Nat) : blockUp d i = true := by
  obtain ⟨hk, hq, hu, hs, -⟩ := h
  simp [blockUp, inSreset, hk, hq, hu, hs]

theorem Dev.Up.runs {d : Dev} (h : d.Up) (i : Nat) : blockRuns d i = true := by simp [blockRuns, h.block i, h.2.2.1]

theorem Dev.Up.notHeld {d : Dev} (h : d.Up) (b : Nat) : blockHeld d b = false := by
  obtain ⟨-, -, -, -, hn⟩ := h
  simp only [Dev.noneHeld, List.all_eq_true, List.isEmpty_iff] at hn
  simp only [blockHeld, List.any_eq_false]
  intro c hc
  simp [hn c hc]

/-- On a module that is up, the guard lets a command act. -/
theorem live_up {d : Dev} (h : d.Up) (b : Nat) (f : Dev → Dev) : live b f d = f d := by simp [live, h.runs b]
theorem unheld_up {d : Dev} (h : d.Up) (b : Nat) (f : Dev → Dev) : unheld b f d = f d := by simp [unheld, h.notHeld b]

/-- A meaning that acts on the hardware runs, with what it does. -/
theorem runs_of_act {c : Instr} {s : State} {p : Dev → Prop} (f : Dev → Dev) (h : exec c s = s.act f) (hp : p (f s.dev)) : Runs c s p :=
  ⟨f s.dev, h, hp⟩

/-- The same, for a meaning behind the guard of its block. -/
theorem runs_of_live {c : Instr} {s : State} {p : Dev → Prop} (b : Nat) (f : Dev → Dev) (hu : s.dev.Up) (h : exec c s = s.act (live b f))
    (hp : p (f s.dev)) : Runs c s p :=
  ⟨f s.dev, by rw [h, State.act, live_up hu], hp⟩

/-- The same, for a block's own work. -/
theorem runs_of_unheld {c : Instr} {s : State} {p : Dev → Prop} (b o : Nat) (f : Dev → Dev) (hu : s.dev.Up)
    (h : exec c s = s.act (live b (unheld o f))) (hp : p (f s.dev)) : Runs c s p :=
  ⟨f s.dev, by rw [h, State.act, live_up hu, unheld_up hu], hp⟩

end Sys2Proof.Machine
end

