-- ==== Sys2Proof/Laws/Sdec.lean ====
section
/-! SUPPORT. What the serial decoders can change: their own state and registers, the queue of candidates, the events of C and the
counter of open values. -/
namespace Sys2Proof.Machine

/-- Everything else is as before. -/
def SdecOnly (d e : Dev) : Prop :=
  ∃ regs crossings freeCtr cands sdec,
    e = { d with regs := regs, crossings := crossings, freeCtr := freeCtr, fox := { d.fox with cands := cands }, sdec := sdec } ∧
    ∀ a, a / 0x100000 ≠ 8 → e.rd a = d.rd a

theorem SdecOnly.refl (d : Dev) : SdecOnly d d := ⟨d.regs, d.crossings, d.freeCtr, d.fox.cands, d.sdec, rfl, fun _ _ => rfl⟩

theorem SdecOnly.trans {d e f : Dev} (h : SdecOnly d e) (k : SdecOnly e f) : SdecOnly d f := by
  obtain ⟨r, c, n, q, s, rfl, hr⟩ := h
  obtain ⟨r', c', n', q', s', rfl, hr'⟩ := k
  exact ⟨r', c', n', q', s', rfl, fun a ha => (hr' a ha).trans (hr a ha)⟩

theorem SdecOnly.wr (d : Dev) (a : Nat) (v : Word) (h : a / 0x100000 = 8) : SdecOnly d (d.wr a v) :=
  ⟨(d.wr a v).regs, d.crossings, d.freeCtr, d.fox.cands, d.sdec, rfl, fun b hb => d.rd_wr_ne a b v (fun e => hb (e ▸ h))⟩
theorem SdecOnly.put (d : Dev) (f : Field) (x : Nat) (h : f.reg / 0x100000 = 8) : SdecOnly d (d.put f x) := SdecOnly.wr _ _ _ h
theorem SdecOnly.count (d : Dev) (a n : Nat) (h : a / 0x100000 = 8) : SdecOnly d (d.count a n) := SdecOnly.wr _ _ _ h
theorem SdecOnly.post (d : Dev) (i : Island) (num sub arg : Nat) (ts : Option TS) : SdecOnly d (d.post i num sub arg ts) :=
  ⟨d.regs, (d.post i num sub arg ts).crossings, d.freeCtr, d.fox.cands, d.sdec, rfl, fun _ _ => rfl⟩
theorem SdecOnly.setSdec (d : Dev) (n : Fin 4) (x : Sdec) : SdecOnly d (d.setSdec n x) :=
  ⟨d.regs, d.crossings, d.freeCtr, d.fox.cands, (d.setSdec n x).sdec, rfl, fun _ _ => rfl⟩
theorem SdecOnly.queueCand (d : Dev) (c : Cand) : SdecOnly d (queueCand d c) :=
  ⟨d.regs, d.crossings, d.freeCtr, d.fox.cands ++ [c], d.sdec, rfl, fun _ _ => rfl⟩
theorem SdecOnly.nextFree (d : Dev) : SdecOnly d d.nextFree :=
  ⟨d.regs, d.crossings, d.freeCtr + 1, d.fox.cands, d.sdec, rfl, fun _ _ => rfl⟩

/-- What a fold does when each of its steps only touches the decoders. -/
theorem SdecOnly.foldl {α : Type} (f : Dev → α → Dev) (h : ∀ d x, SdecOnly d (f d x)) (l : List α) (d : Dev) :
    SdecOnly d (l.foldl f d) :=
  List.foldlRecOn l f (motive := SdecOnly d) (SdecOnly.refl d) fun _ k x _ => k.trans (h _ x)

theorem SdecOnly.ite {d a b : Dev} (p : Prop) [Decidable p] (ha : SdecOnly d a) (hb : SdecOnly d b) :
    SdecOnly d (if p then a else b) := by
  split <;> assumption

theorem status_block (n : Fin 4) : (R.SDEC_d_STATUS n) / 0x100000 = 8 := by revert n; decide
theorem matchCnt_block (n : Fin 4) : (R.SDEC_d_MATCH_CNT n) / 0x100000 = 8 := by revert n; decide
theorem errCnt_block (n : Fin 4) : (R.SDEC_d_ERR_CNT n) / 0x100000 = 8 := by revert n; decide
theorem frameCnt_block (n : Fin 4) : (R.SDEC_d_FRAME_CNT n) / 0x100000 = 8 := by revert n; decide
theorem lastField_block (n : Fin 4) (j : Nat) (h : j < 4) : (R.SDEC_d_LAST_FIELD n j) / 0x100000 = 8 := by
  have := n.isLt; simp only [R.SDEC_d_LAST_FIELD]; omega

theorem setSync_only (n : Fin 4) (on : Bool) (d : Dev) : SdecOnly d (setSync n on d) := by
  have h : SdecOnly d (if on then d else d.setSdec n { d.sdec.get n with recent := [] }) :=
    SdecOnly.ite _ (SdecOnly.refl d) (SdecOnly.setSdec d n _)
  unfold setSync
  exact SdecOnly.ite _ h (h.trans ((SdecOnly.put _ _ _ (status_block n)).trans (SdecOnly.post _ _ _ _ _ _)))

theorem fieldComplete_only (n : Fin 4) (t : Instant) (x : Nat) (d : Dev) : SdecOnly d (fieldComplete n t x d) := by
  have h : SdecOnly d ((List.range 4).foldl (fun d j => d.wr (R.SDEC_d_LAST_FIELD n j) (BitVec.ofNat 32 (x / 2 ^ (32 * j)))) d) := by
    have w (d : Dev) (j : Nat) (hj : j < 4) := SdecOnly.wr d (R.SDEC_d_LAST_FIELD n j) (BitVec.ofNat 32 (x / 2 ^ (32 * j))) (lastField_block n j hj)
    exact (((w _ 0 (by omega)).trans (w _ 1 (by omega))).trans (w _ 2 (by omega))).trans (w _ 3 (by omega))
  unfold fieldComplete
  refine SdecOnly.ite _ h ?_
  have k := h.trans (SdecOnly.count _ _ 1 (matchCnt_block n))
  exact SdecOnly.ite _ (k.trans (SdecOnly.queueCand _ _)) k

theorem sliding_only (n : Fin 4) (t : Instant) (raw : Bool) (w len : Nat) (d : Dev) :
    SdecOnly d (sliding n t raw w len d) := by
  unfold sliding; exact SdecOnly.ite _ (fieldComplete_only ..) (SdecOnly.refl d)

theorem sdecError_only (n : Fin 4) (t : Instant) (bits : Nat) (d : Dev) : SdecOnly d (sdecError n t bits d) := by
  unfold sdecError
  have h1 := SdecOnly.count d (R.SDEC_d_ERR_CNT n) 1 (errCnt_block n)
  generalize d.count (R.SDEC_d_ERR_CNT n) = d1 at h1 ⊢
  have h2 : SdecOnly d (if d1.flag (F.SDEC_d_STATUS_ERR n) then d1
      else (d1.putB (F.SDEC_d_STATUS_ERR n) true).post .c evSdecErr n.val bits) :=
    SdecOnly.ite _ h1 (h1.trans ((SdecOnly.put _ _ _ (status_block n)).trans (SdecOnly.post ..)))
  simp only []
  generalize (if d1.flag (F.SDEC_d_STATUS_ERR n) then d1
      else (d1.putB (F.SDEC_d_STATUS_ERR n) true).post .c evSdecErr n.val bits) = d2 at h2 ⊢
  have h3 : SdecOnly d (if sdecField d2 n = 0xF then fieldComplete n t bits d2 else d2) :=
    SdecOnly.ite _ (h2.trans (fieldComplete_only ..)) h2
  generalize (if sdecField d2 n = 0xF then fieldComplete n t bits d2 else d2) = d3 at h3 ⊢
  exact SdecOnly.ite _ h3 (h3.trans ((SdecOnly.setSdec ..).trans (setSync_only ..)))

theorem sdecItem_only (n : Fin 4) (t : Instant) (it : SdecItem) (d : Dev) : SdecOnly d (sdecItem n t it d) := by
  have s (x : Sdec) := SdecOnly.setSdec d n x
  have fc (e : Dev) (x : Nat) (h : SdecOnly d e) := h.trans (fieldComplete_only n t x e)
  have sl (e : Dev) (raw : Bool) (w l : Nat) (h : SdecOnly d e) := h.trans (sliding_only n t raw w l e)
  cases it with
  | char v => simp only [sdecItem]; exact SdecOnly.ite _ (fc _ _ (s _)) (SdecOnly.ite _ (sl _ _ _ _ (s _)) (s _))
  | word a b =>
    have w (e : Dev) (x : Nat) (h : SdecOnly d e) : SdecOnly d (match sdecField d n with
        | 0 => fieldComplete n t a e | 1 => fieldComplete n t x e | 2 => fieldComplete n t (a * 2 ^ 64 + x) e | _ => e) := by
      split
      · exact fc _ _ h
      · exact fc _ _ h
      · exact fc _ _ h
      · exact h
    cases b with
    | some b => exact w _ _ (SdecOnly.refl d)
    | none => exact w _ _ (SdecOnly.ite _ (SdecOnly.nextFree d) (SdecOnly.refl d))
  | cond c => simp only [sdecItem]; exact SdecOnly.ite _ (fc _ _ (s _)) (s _)
  | addr v => simp only [sdecItem]; exact SdecOnly.ite _ (fc _ _ (s _)) (s _)
  | data b =>
    simp only [sdecItem]; split
    · exact SdecOnly.ite _ (fc _ _ (s _)) (s _)
    · exact s _
  | canId v => simp only [sdecItem]; exact SdecOnly.ite _ (fc _ _ (s _)) (s _)
  | canByte b =>
    simp only [sdecItem]; split
    · exact SdecOnly.ite _ (fc _ _ (s _)) (s _)
    · exact s _
  | symbol v raw =>
    simp only [sdecItem]
    refine SdecOnly.ite _ (s _) ?_
    have k (x : Sdec) := (s x).trans (SdecOnly.count _ _ 1 (frameCnt_block n))
    exact SdecOnly.ite _ (sl _ _ _ _ (k _)) (SdecOnly.ite _ (sl _ _ _ _ (k _)) (k _))
  | block v =>
    have k (x : Sdec) := (s x).trans (SdecOnly.count _ _ 1 (frameCnt_block n))
    cases v with
    | none => exact s _
    | some p =>
      simp only [sdecItem]; split
      · exact fc _ _ (k _)
      · exact fc _ _ (k _)
      · exact k _
  | tooFast => exact ((SdecOnly.put _ _ _ (status_block n)).trans (SdecOnly.setSdec ..)).trans (setSync_only ..)
  | frameEnd => exact SdecOnly.count _ _ 1 (frameCnt_block n)
  | error bits => exact sdecError_only ..
  | align on => exact setSync_only ..

/-- No commit to a decoder waits for the end of a frame (R166). -/
def SdecQuiet (d : Dev) : Prop := ∀ n, hasPart d (.sdec n) = false

theorem SdecOnly.quiet {d e : Dev} (h : SdecOnly d e) (q : SdecQuiet d) : SdecQuiet e := by
  obtain ⟨_, _, _, _, _, rfl, _⟩ := h; exact q

theorem SdecOnly.foldQuiet {α : Type} (f : Dev → α → Dev) (h : ∀ d x, SdecQuiet d → SdecOnly d (f d x)) (l : List α) (d : Dev)
    (q : SdecQuiet d) : SdecOnly d (l.foldl f d) :=
  List.foldlRecOn l f (motive := SdecOnly d) (SdecOnly.refl d) fun _ k x _ => k.trans (h _ x (k.quiet q))

theorem sdecItems_only (n : Fin 4) (l : List (Instant × SdecItem)) (d : Dev) (q : SdecQuiet d) : SdecOnly d (sdecItems n l d) := by
  induction l generalizing d with
  | nil => exact SdecOnly.refl d
  | cons x xs ih =>
    have k := sdecItem_only n x.1 x.2 d
    simp only [sdecItems, k.quiet q n, Bool.and_false, Bool.false_and, Bool.false_eq_true, if_false]
    exact SdecOnly.ite _ k (k.trans (ih _ (k.quiet q)))

theorem sdecTakes_only (n : Fin 4) (r : Sdec × List (Instant × SdecItem)) (d : Dev) (q : SdecQuiet d) : SdecOnly d (sdecTakes n r d) :=
  (SdecOnly.setSdec ..).trans (sdecItems_only _ _ _ ((SdecOnly.setSdec ..).quiet q))

theorem sdecSpan_only (d : Dev) (q : SdecQuiet d) : SdecOnly d (sdecSpan d) :=
  SdecOnly.foldQuiet _ (fun d _ q => SdecOnly.ite _ (sdecTakes_only _ _ d q) (SdecOnly.refl d)) _ d q

theorem sdecVector_only (inp : Nat) (k0 : Int) (cdr : List CdrBit) (d : Dev) (q : SdecQuiet d) : SdecOnly d (sdecVector inp k0 cdr d) :=
  SdecOnly.foldQuiet _ (fun d _ q => SdecOnly.ite _ (sdecTakes_only _ _ d q) (SdecOnly.refl d)) _ d q

theorem sdecTick_only (ts : Nat) (cdr : List CdrBit) (d : Dev) (q : SdecQuiet d) : SdecOnly d (sdecTick ts cdr d) :=
  have h := SdecOnly.foldQuiet _ (fun d _ q => SdecOnly.ite _ (sdecTakes_only _ _ d q) (SdecOnly.refl d)) _ d q
  h.trans (SdecOnly.foldQuiet _ (fun d _ q => SdecOnly.ite _ (sdecTakes_only _ _ d q) (SdecOnly.refl d)) _ _ (h.quiet q))

end Sys2Proof.Machine
end

