-- ==== Sys2Proof/Tests/Slice0.lean ====
section
/-! SUPPORT. Small tests, each about one step or one definition, and for every statement that has hypotheses a theorem that
gives a state and operands that meet them, clause by clause. -/
namespace Sys2Proof.Machine

/-- A field of a configuration register as in effect at its unit. -/
def Dev.given (d : Dev) (f : Field) (x : Nat) : Dev := d.efw f.reg (BitVec.ofNat 32 (setBits (d.ef f.reg).toNat f.hi f.lo x))
def Dev.withReg (d : Dev) (n : Fin 8) (g : Fin 16) (x : Nat) : Dev := d.setCtx n ((d.ctx n).setReg g (BitVec.ofNat 64 x))
def Dev.withSpan (d : Dev) (n : Nat) : Dev := { d with ddr := { d.ddr with span := n } }
/-- Watch slot k of context n has counted one event. -/
def Dev.watching (d : Dev) (n : Fin 8) (k : Fin 16) : Dev :=
  d.setCtx n { d.ctx n with watch := (d.ctx n).watch.set k.val { num := 7, cnt := 1 } }

end Sys2Proof.Machine

namespace Sys2Proof.Tests
open Sys2Proof Sys2Proof.Machine
set_option Elab.async false

/-- Every island is released. -/
def up : Dev := { pwr := { kUp := true, qUp := true, up := true } }
def st (d : Dev) : State := ⟨d, []⟩
theorem idle : ∀ n, (up.ctx n).busy = .idle := by decide
/-- The host's link is up. -/
def linked : Dev := { up with host := { perst := false } }.put F.PCIE_STATUS_DL_UP 1
def ready : Dev := up.put F.GLB_STATUS_READY 1
/-- Context n is RUNNING at PC 0. -/
def run1 (n : Fin 8) : Dev := up.setCtx n { up.ctx n with run := .running }
/-- Context n is about to issue i at `pc`. -/
def prog (n : Fin 8) (i : Instr) (pc : Nat := 0) : Dev :=
  (up.store (programBase + 4 * pc) 4 ((aqsEncode i).getD 0).toNat).setCtx n { run := .running, pc := BitVec.ofNat 19 pc }
/-- Context n is RUNNING with something in progress, or WAITING. -/
def inProgress (n : Fin 8) (b : Busy) : Dev := up.setCtx n { run := .running, busy := b, pc := 99 }
def waits (n : Fin 8) (b : Busy) : Dev := up.setCtx n { run := .waiting, busy := b, pc := 99 }
/-- The register at an address, and its indices. -/
def row (a : Nat) : RegRow × List Nat := (findReg a).getD (⟨0, [], 0, 0, 0, 0, 0, 0, 0, 0, false, .single⟩, [])
/-- A unit of capture of input 3 that stores 300 samples. -/
def unit (k : CapKind) (mode : Nat) : CapUnit :=
  { kind := k, mode := mode, arr := 0, inputs := [3], entry := 0, slot := 0, index := 3, acq := 0, source := 1, start := 0, startK := 0
    pre := 0, preReq := 0, need := 300, tsFirst := 5, bodyAddr := dataBase, inStride := 4096, hdrAddr := dataBase + 8192
    slDiv := 0x40000000, calCount := 1 }
/-- LYNX input 7 is ON and stamps both edges. -/
def measuring7 (l : LynxIn) : Dev :=
  { up with lynx := Vector.replicate 8 l }.given (F.LYNX_n_CFG_EDGE 7) 2 |>.setUnit (.lynx 7) stOn
/-- Monitor 7 is ON with SENSE above. -/
def monitor7 : Dev := up.given (F.OWL_n_CFG_SENSE 7) 2 |>.setUnit (.owl 7) stOn
/-- Pulse unit 3 is ON with its output active. -/
def firing (p : PulseUnit) : Dev :=
  { up with pulse := Vector.replicate 4 p }.setUnit (.pulse 3) stOn |>.put (F.PULSE_u_STATUS_OUT 3) 1

/-- CALIBRATE, with READY set and the sample clock locked. -/
def calibrating (proc : Option (Nat × Nat × Nat)) : Dev :=
  { up with cal := { proc := proc, begun := true } }.setUnit .cal stOn |>.put F.GLB_MODE_STATUS_CUR_MODE mCalibrate
    |>.put F.GLB_STATUS_READY 1 |>.put F.STAG_STATUS_SL_LOCK 1 |>.put F.HEDGE_STATUS_LC 1
def result : CalResult :=
  { trims := [], chans := [], planes := [], failed := [], delays := [], owls := [], refUv := 0, gainPpm := 0, offsetUv := 0, skewFs := 0
    thresh := 0 }
/-- BADGER's lane 7 works on a job of ring 3. -/
def laned (j : BadgerJob) : Dev :=
  { up with badger := { lanes := (Vector.replicate 8 none).set 7 (some j) } }.given F.BADGER_CTRL_EN 1
    |>.given (F.BADGER_r_CFG_SIZE_LOG 3) 4 |>.put (F.BADGER_r_NEXT_INDEX 3) 5
def job (src : JobSrc) (bytes : List Byte) : BadgerJob :=
  { src := src, bytes := bytes, len := bytes.length, dst := dataBase + 0x1000, dstCap := 5000, tag := 77 }
/-- A block whose data is one literal run. -/
def literalBlock (x : List Byte) : List Byte :=
  let toks : List Byte := BitVec.ofNat 8 (x.length - 1) :: x ++ [0xC0]
  let hdr := withCrc (leBytes 4 badgerMagic ++ leBytes 1 1 ++ leBytes 1 0 ++ leBytes 1 12 ++ List.replicate 1 0 ++ leBytes 4 x.length
    ++ leBytes 4 toks.length ++ leBytes 4 77 ++ List.replicate 4 0 ++ leBytes 4 (crc32 x).toNat)
  padTo (up64 (32 + toks.length)) (hdr ++ toks)
/-- Ring 3 of BADGER fetches from its descriptor 5. -/
def ringFetch (own : Nat) : Dev :=
  { up with badger := { fetch := #v[0, 0, 0, 5] } }.given F.BADGER_CTRL_EN 1 |>.given (F.BADGER_r_CFG_SIZE_LOG 3) 4
    |>.efw (R.BADGER_r_BASE_LO 3) 0x30208000 |>.efw (R.BADGER_r_BASE_LO 3 + 4) 0xF000 |>.put (F.BADGER_r_STATUS_STATE 3) stOn
    |>.put (F.BADGER_r_STATUS_IDLE 3) 0 |>.store (dataBase + 0x8000 + 64 * 5) 4 own |>.store (dataBase + 0x8000 + 64 * 5 + 16) 4 4096
/-- Eight channels are fitted and every stripe is named; `c` is channel 7. -/
def dram (c : DdrCh) : Dev :=
  { up with ddr := { chans := up.ddr.chans.set 7 c, span := 2 ^ 30 } }.setUnit (.ddr 7) stOn
    |>.put F.DDR_STRIPE_CH_NAMED 0xFFF
def ddrReq (write : Bool) (be : Nat) : DdrReq :=
  { addr := 64, write := write, data := List.replicate 64 7, be := BitVec.ofNat 64 be, classD := false, host := false, urgent := false }
/-- BEAVER's channel 31 is ON and RUNNING, at the descriptor at 0xF00030200400. -/
def channel (c : DmaChan) : Dev :=
  (up.given F.BEAVER_CTRL_EN 1 |>.given (F.BEAVER_CH_n_CFG_EN 31) 1 |>.given (F.BEAVER_CH_n_CFG_HOP_LIMIT 31) 0 |>.setUnit (.beaver 31) stOn
    |>.put (F.BEAVER_CH_n_STATUS_RUN 31) 1 |>.wr (R.BEAVER_CH_n_CUR_LO 31) 0x30200400 |>.wr (R.BEAVER_CH_n_CUR_LO 31 + 4) 0xF000).setChan 31 c
def desc : DmaDesc :=
  { ctrl := 2 ^ 31, tag := 5, src := dataBase + 0x2003, dst := dataBase + 0x2001, next := 128, srcLine := 100, srcCount := 1, srcStride := 0
    dstLine := 100, dstCount := 1, dstStride := 0 }
/-- The channel's descriptor stands in memory with this control word. -/
def described (ctrl db : Nat) : Dev :=
  (channel {}).storeBytes (dataBase + 0x400) (leBytes 4 ctrl ++ leBytes 4 5 ++ leBytes 8 (dataBase + 0x2003) ++ leBytes 8 (dataBase + 0x2001)
    ++ leBytes 8 128 ++ leBytes 4 100 ++ leBytes 4 1 ++ leBytes 4 0 ++ leBytes 4 100 ++ leBytes 4 1 ++ leBytes 4 0 ++ List.replicate 8 0)
    |>.put (F.BEAVER_CH_n_STATUS_DB_PENDING 31) db
/-- Step 0 of a schedule at offset 0: event 0x123 starts channel 31, every third time, twice over. -/
def scheduled (s : Sched) : Dev :=
  { channel {} with beaver := { (channel {}).beaver with sched := { s with on := true } } }.store (tableBase + 48) 2 0x123
    |>.store (tableBase + 50) 1 31 |>.store (tableBase + 51) 1 1 |>.store (tableBase + 52) 4 3 |>.store (tableBase + 56) 4 2
    |>.store (tableBase + 32) 2 1
/-- Pair 1 has joined; port p of it is up or down, and its state is q. The module's address is 449. -/
def port (p : Port) (u : Bool) (q : IflPort) (d : Dev := up) : Dev :=
  (d.put (F.IFL_x_STATUS_BYPASS 1) 0 |>.given F.IFL_ADDR_ADDR 449 |>.put F.IFL_STATUS_TIME_PORT 7 |>.put (Port.up p) u.toNat).setPort p q
theorem one_rank (d : Dev) : 0 < (ddrOrgOf d).ranks := by unfold ddrOrgOf; split <;> decide
/-- Both ports of pair 1 are up. -/
def ring1 (q : IflPort) : Dev := port 2 true q (port 3 true {})
/-- A message of three bytes on channel 1, from address 123 to `dest`. -/
def message (ftype dest : Nat) : List Byte :=
  leBytes 1 1 ++ leBytes 1 ftype ++ leBytes 2 3 ++ leBytes 4 dest ++ leBytes 4 0x3FFFF ++ leBytes 4 123 ++ leBytes 8 99 ++ leBytes 1 0
    ++ leBytes 1 1 ++ [3, 0] ++ leBytes 4 7 ++ List.replicate 32 0 ++ [4, 5, 6]
def route : RouteHead := { flags := 3, hops := 255, dest := 450, mask := 0x3FFFF, src := 77 }
/-- HEDGE carries out a command; a quarter of the DRAM is installed. -/
def commanded (op arg : Nat) (addr : Nat := 0) (h : Hedge := {}) : Dev :=
  { up with ddr := { up.ddr with span := 2 ^ 30 }, hedge := { h with cmd := some ⟨op, arg, addr, []⟩ } }
theorem wrong_half (n : Nat) : (n % 65536 + 1) * 65536 / 65536 ≠ n % 65536 := by omega
theorem right_half (n : Nat) : (n % 65536 * 65536 + 2) / 65536 = n % 65536 := by omega
theorem asks_sealed (n : Nat) : (n % 65536 * 65536 + 2) % 4 = 2 := by omega
theorem no_confirmation (op n : Nat) (h : n ≠ Config.deviceId.toNat % 65536) : confirmed ⟨op, n * 65536, 0, []⟩ = false := by
  unfold confirmed; rw [Nat.mul_div_cancel n (by decide)]; exact decide_eq_false h
theorem confirmation (op : Nat) : confirmed ⟨op, Config.deviceId.toNat % 65536 * 65536 + 2, 0, []⟩ = true := by
  unfold confirmed; exact decide_eq_true (right_half _)
theorem another (n : Nat) : n + 1 ≠ n := Nat.succ_ne_self n
/-- Every rail is up, and island K is still held. -/
def held (h : Hedge) : Dev := { hedge := h : Dev }.put F.PWR_RAIL_OK 511
def leaf : Leaf :=
  { num := 5, stream := 0, ty := 1, hdrAddr := 4096, hdrLen := 256, bodyAddr := 8192, inStride := 4096, inputs := 2, samples := 100, tlistAddr := 0
    ntrig := 0, hold := false, part := 1, written := true, code := 0 }
def sealing (s : Seal) : Dev :=
  { up with sealing := s, ddr := { up.ddr with span := 2 ^ 30 }, hedge := { running := some 1 } }.wr R.HEDGE_LEAF_BASE_LO 0x1000000
    |>.wr R.HEDGE_SEAL_BASE_LO 0x2000000
/-- Settings of a decoder: UI 400, 8 data bits and even parity, SPI mode 0 with 8-bit words, sample points at 96/128. -/
def rx (proto : Nat) : RxCfg :=
  { proto := proto, ui := 400, ui2 := 100, dataBits := 8, parity := 1, stops := 1, spiMode := 0, lsbFirst := false, wordBits := 8
    csUsed := true, data1Used := false, addr10 := false, fdEn := true, spNom := 96, spData := 96, sjw := 16, commaAny := false
    descr := true }
/-- What a decoder finds on its lines, a sample every `gap`, from numbers whose bit r is line r. -/
def found (c : RxCfg) (gap : Nat) (xs : List Nat) : List SdecItem :=
  ((xs.zipIdx.foldl (fun s (x, i) =>
    sdecAt c ⟨i, gap * i, i, 0⟩ (gap * i) (fun first r l =>
      let v := decide (x / 2 ^ r.val % 2 = 1)
      if first then ({ level := v, prev := v, seen := gap * i }, none)
      else if v = l.level then (l, none)
      else ({ l with level := v, prev := l.level, seen := gap * i }, some ⟨r, gap * i, gap * i, v⟩)) s)
    (({}, []) : Sdec × List (Instant × SdecItem))).2).map (·.2)
/-- n bits of v, the highest first. -/
def msb (n v : Nat) : List Nat := (List.range n).map fun i => v / 2 ^ (n - 1 - i) % 2


/-! ### WellFormed refuses an ill-formed term of each check, and takes a well-formed one -/

theorem test_wf_write_empty : wellFormed (.registerWrite ⟨.host, none⟩ (.bar0 8 [])) = false := by decide +kernel
theorem test_wf_write_beyond : wellFormed (.registerWrite ⟨.host, none⟩ (.bar0 0x3FFFFFF [1, 2])) = false := by decide +kernel
theorem test_wf_write_half_word : wellFormed (.registerWrite ⟨(.ctx 3), none⟩ (.bar0 8 [1, 2])) = false := by decide +kernel
theorem test_wf_write_unaligned : wellFormed (.registerWrite ⟨(.ctx 3), none⟩ (.bar0 6 [1, 2, 3, 4])) = false := by decide +kernel
theorem test_wf_write_config : wellFormed (.registerWrite ⟨(.ctx 3), none⟩ (.config (.busMaster true))) = false := by decide +kernel
theorem test_wf_write : wellFormed (.registerWrite ⟨.host, none⟩ (.bar0 6 [1, 2, 3, 4])) = true := by decide +kernel
theorem test_wf_read_empty : wellFormed (.rcRead .host 8 0) = false := by decide +kernel
theorem test_wf_read_unaligned : wellFormed (.pairLoRead (.ctx 0) 2 4) = false := by decide +kernel
theorem test_wf_read : wellFormed (.rcRead (.ctx 0) 4 4) = true := by decide +kernel
theorem test_wf_config_unaligned : wellFormed (.configWrite ⟨.host, none⟩ 6 1) = false := by decide +kernel
theorem test_wf_access_none : wellFormed (.bar2Access 0 (.read 0)) = false := by decide +kernel
theorem test_wf_access_long : wellFormed (.bar2Access 0 (.read 4097)) = false := by decide +kernel
theorem test_wf_access : wellFormed (.bar2Access 0 (.write [none])) = true := by decide +kernel
theorem test_wf_window_beyond : wellFormed (.bar0WindowAccess 0x3FFFFFF (.read 2)) = false := by decide +kernel
theorem test_wf_vector_short : wellFormed (.vectorDelivered 0 0 [] [0, 0, 0, 0] []) = false := by decide +kernel
theorem test_wf_window_quals : wellFormed (.estWindowEnd [0, 0, 0] [] []) = false := by decide +kernel
theorem test_wf_window_sub : wellFormed (.estWindowEnd [0, 0, 0, 0] [⟨0, 33, 0, false⟩] []) = false := by decide +kernel
theorem test_wf_results_delays : wellFormed (.calDone { result with delays := List.replicate 8 0 }) = false := by decide +kernel
theorem test_wf_results_trims : wellFormed (.calDone { result with trims := [⟨0, 33, 0, 0, 0, 0⟩] }) = false := by decide +kernel
theorem test_wf_results_failed : wellFormed (.calDone { result with failed := [(0, 33)] }) = false := by decide +kernel
theorem test_wf_results : wellFormed (.calDone result) = true := by decide +kernel
theorem test_wf_condition : wellFormed (.br 0 15 0) = false := by decide +kernel
theorem test_wf_dram_address : wellFormed (.ddrRequest { ddrReq false 0 with addr := 2 ^ 48 }) = false := by decide +kernel
theorem test_wf_dram_data : wellFormed (.ddrRequest { ddrReq true 0 with data := [1] }) = false := by decide +kernel
theorem test_wf_neighbour_sub : wellFormed (.neighbourRefresh 0 0 2 0) = false := by decide +kernel
theorem test_wf_neighbour_bank : wellFormed (.neighbourRefresh 0 0 1 32) = false := by decide +kernel
theorem test_wf_link_level : wellFormed (.linkRx 0 ⟨3, 0, true, true, 0, 0, 0, 0⟩ 0) = false := by decide +kernel
theorem test_wf_link_delay : wellFormed (.linkRx 0 ⟨0, 0, true, true, 0, 0, 0, 2 ^ 31⟩ 0) = false := by decide +kernel
theorem test_wf_route_hops : wellFormed (.schedRx 0 { route with hops := 256 } 0 0) = false := by decide +kernel
theorem test_wf_route_level : wellFormed (.schedRx 0 route 3 0) = false := by decide +kernel
theorem test_wf_frame_short : wellFormed (.frameRx 0 (List.replicate 67 0) 0) = false := by decide +kernel

/-! ### AQS words, bit by bit from Tables 9.2 and 9.4 -/

/-- Format R: opcode 0x02, D 3, A 5, B 6. -/
theorem test_decode_add : aqsDecode 2 0b000010_0011_0101_0110_00000000000000#32 = some (.add 2 3 5 6) := by decide +kernel
/-- Format I: opcode 0x19, D 3, A 5, IMM18 −4. -/
theorem test_decode_stw : aqsDecode 2 0b011001_0011_0101_111111111111111100#32 = some (.stw 2 3 5 0x3FFFC) := by decide +kernel
/-- Format U: opcode 0x1B, condition 1, IMM22 4. -/
theorem test_decode_br : aqsDecode 2 0b011011_0001_0000000000000000000100#32 = some (.br 2 1 4) := by decide +kernel
/-- Format C: opcode 0x20, D 4, BLK 7, WOFF 0x28. -/
theorem test_decode_csrr : aqsDecode 2 0b100000_0100_00111_00000000000101000#32 = some (.csrr 2 4 7 0x28) := by decide +kernel
/-- Format W: opcode 0x26, D 3, A 2, MASK 1. -/
theorem test_decode_wait : aqsDecode 2 0b100110_0011_0010_00_0000000000000001#32 = some (.wait 2 3 2 1) := by decide +kernel
/-- A bit that Table 9.2 requires to be 0. -/
theorem test_decode_reserved_bit : aqsDecode 2 0b000010_0011_0101_0110_00000000000001#32 = none := by decide +kernel
theorem test_decode_zero : aqsDecode 0 0 = none := by decide +kernel

/-! ### The manual's worked examples -/

/-- The hardware a command leaves. -/
def after (c : Instr) (d : Dev) : Dev := match exec c (st d) with | .next t => t.dev | _ => d

/-- Chapter 0: the TS 0x271 ticks and a half, in memory. -/
theorem test_timestamp_bytes : tsBytes (mkTS 0x271 0x80000000) = [0, 0, 0, 0x80, 0x71, 2, 0, 0, 0, 0, 0, 0] := by decide +kernel
/-- Chapter 3: codes 5, −3 and +511 in the first word of a block. -/
theorem test_p10_word : p10Word 0 [5, BitVec.ofInt 10 (-3), 511] = 0x5FFFF405 := by decide +kernel
/-- Chapter 5: the EDGE trigger between codes −100 and +300 lies at 0x4000 of the interval. -/
theorem test_crossing_fraction :
    crossFrac ({ up with fox := { up.fox with vec := #v[[-100, 300], [], [], []] } }.given F.FOX_KERNEL_KSEL 0) 0 (-3) 0 = 0x4000 := by decide +kernel
/-- Chapter 9: one second of ticks, built by MOVI and MOVH. -/
theorem test_load_immediate :
    (((after (.movi 2 4 0x4A) (prog 2 (.movi 2 4 0x4A))).ctx 2).reg 4 = 0x4A) ∧
    ((after (.movh 2 4 0x205F20) ((prog 2 (.movh 2 4 0x205F20)).withReg 2 4 0x4A)).ctx 2).reg 4 = 312500000 := by decide +kernel
/-- Chapter 10: eleven channels, channel 7 left out. -/
def elevenChannels : Dev :=
  (up.store (tableBase + 32) 1 12).store (tableBase + 34) 2 11 |>.store (tableBase + 36) 2 0xF7F |>.store (tableBase + 38) 2 1
    |>.storeBytes (tableBase + 48) [0, 1, 2, 3, 4, 5, 6, 8, 9, 10, 11]
theorem test_stripe_map : stripeMap elevenChannels 0 0x123456789 = (9, 0x1A7AA789) := by decide +kernel
/-- Chapter 10: the clamp report of FOX_TRIGOUT_DELAY. -/
theorem test_clamp_report :
    (List.range 16).map (rptByte (fileReport up 0x2345 0x31 1600 1920 false 7 0x104)) =
      [0x45, 0x23, 0x31, 0, 0x40, 6, 0, 0, 0x80, 7, 0, 0, 4, 1, 7, 0] := by decide +kernel
/-- Chapter 14: the token stream of a 20-byte job (the output is kept newest byte first). -/
theorem test_tokens :
    decodeTokens 20 13 0 [3, 0x41, 0x42, 0x43, 0x44, 0x89, 3, 0, 0xC1, 3, 0, 0xC0] 0 [] =
      .done [0, 0, 0, 0, 0x44, 0x43, 0x42, 0x41, 0x44, 0x43, 0x42, 0x41, 0x44, 0x43, 0x42, 0x41, 0x44, 0x43, 0x42, 0x41] := by decide +kernel
/-- Chapter 16: the descriptor that reads back a record of two inputs is accepted, and its lengths agree. -/
def readBack : DmaDesc :=
  { ctrl := 0xE1000000, tag := 7, src := 0x1000000000, dst := 0x8000000120000000, next := 0, srcLine := 0x100000, srcCount := 2
    srcStride := 0x100000, dstLine := 0x300000, dstCount := 1, dstStride := 0 }
theorem test_descriptor : descCode readBack true false = 0 ∧ readBack.srcLen = 2097152 ∧ readBack.dstLen = 3145728 := by decide +kernel
/-- Chapter 17: entry 57 of the event queue. -/
theorem test_event_entry : evqEntry ⟨0x2C1, 0, 0x1000, none⟩ (mkTS 1003100) false 57 =
    [0xC1, 2, 0, 0, 0x39, 0, 0, 0, 0, 0x10, 0, 0, 0, 0, 0, 0, 0, 0, 0, 0, 0x5C, 0x4E, 0x0F, 0, 0, 0, 0, 0, 0, 0, 0, 0] := by decide +kernel
/-- Chapter 19: leaf 17 of stream 5. -/
theorem test_seal_word : sealWord 5 18 = 0x85000011 := by decide +kernel

/-! ### Single steps -/

theorem test_idle_step : step (st up) = .next (st up) := rfl
/-- R235: the sum wraps to 0, which sets Z and C. -/
theorem test_add_wraps :
    let d := ((prog 2 (.add 2 3 5 6)).withReg 2 5 (2 ^ 64 - 1)).withReg 2 6 1
    let c := (after (.add 2 3 5 6) d).ctx 2
    c.reg 3 = 0 ∧ c.z = true ∧ c.c = true ∧ c.v = false ∧ c.pc = 1 := by decide +kernel
/-- R233: G0 reads as 0 and discards what is written. -/
theorem test_g0_discards : ((after (.movi 2 0 5) (prog 2 (.movi 2 0 5))).ctx 2).reg 0 = 0 := by decide +kernel
/-- R235: BR.EQ is not taken while Z is 0. -/
theorem test_branch_not_taken : ((after (.br 2 1 4) (prog 2 (.br 2 1 4))).ctx 2).pc = 1 := by decide +kernel
/-- R236: RET on an empty call stack faults. -/
theorem test_ret_faults : ((after (.ret 2) (prog 2 (.ret 2))).ctx 2).run = .faulted := by decide +kernel
/-- R239: FADD on the last doubleword of data SRAM adds and returns the old value. -/
theorem test_fadd_stores :
    let d := (((prog 2 (.fadd 2 3 5 6)).withReg 2 5 dataBase).withReg 2 6 9).store dataBase 8 4
    (after (.fabricAccessDone 2) (after (.fadd 2 3 5 6) d)).load dataBase 8 = 13 := by decide +kernel
/-- R490: a rail that is lost resets the module. -/
theorem test_rail_fault : (after (.railFault 4) up).pwr.kUp = false := by decide +kernel

/-- The examples after R516: IFLB_E_RX2N is BU21, BU22 is VSS, PCIE_REFCLK E23 and E24, PERST_N J23, AK31 VDD_CORE, AK30 VSS. -/
theorem test_lands :
    rowName 54 = "BU" ∧ landAt 54 21 = some (.iflRx 1 true 2 false) ∧ landAt 54 22 = some .vss ∧ landX 21 = -10795 ∧ landY 54 = -31115 ∧
    rowName 5 = "E" ∧ landAt 5 23 = some (.pcieRefclk true) ∧ landAt 5 24 = some (.pcieRefclk false) ∧
    rowName 9 = "J" ∧ landAt 9 23 = some .perstN ∧
    rowName 29 = "AK" ∧ landAt 29 31 = some (.rail .core) ∧ landAt 29 30 = some .vss := by decide +kernel

/-- R157: the character 0x53, lowest bit first after its start bit, with even parity and a stop bit; then one with wrong parity. -/
theorem test_uart_line :
    found (rx 0) 100 (([1, 1, 1, 1, 1] ++ [0, 1, 1, 0, 0, 1, 0, 1, 0, 0, 1] ++ [0, 1, 0, 0, 0, 0, 0, 0, 0, 0, 1]).flatMap (List.replicate 4)) =
      [.align true, .char 0x53, .frameEnd, .align true, .char 1, .error 1] := by decide +kernel
/-- R158, R160: an SPI word of mode 0, its first bit the highest; CS_N released inside the next word. SCLK is bit 0, CS_N 1, DATA0 2. -/
theorem test_spi_line :
    found (rx 1) (2 ^ 32) ([2, 2, 0] ++ (msb 8 0xA5).flatMap (fun b => [4 * b, 4 * b + 1]) ++ [0, 1, 0, 2]) =
      [.align true, .word 0xA5 none, .frameEnd, .error 1] := by decide +kernel
/-- R158, R161: START, the address byte 0xA1 acknowledged, a data byte 0x3C not acknowledged; 40 ns a sample. SCL is bit 0, SDA 1. -/
theorem test_i2c_line :
    found (rx 2) (2 ^ 25 * 1600) ([3, 3, 3, 1, 1, 1, 0, 0, 0] ++
        (msb 8 0xA1 ++ [0] ++ msb 8 0x3C ++ [1]).flatMap (fun b => [2 * b, 2 * b, 2 * b, 2 * b + 1, 2 * b + 1, 2 * b + 1, 2 * b, 2 * b, 2 * b])) =
      [.align true, .cond 0, .addr 0xA1, .frameEnd, .data 0x3C, .error 2] := by decide +kernel
/-- R160, ISO 11898-1: eleven recessive bits, then the classical frame of identifier 0x123 with the byte 0xDE, acknowledged. -/
theorem test_can_line :
    found (rx 3) 100 ((msb 69 0x1ffe2460bbdf48b7ff).flatMap (List.replicate 4)) =
      [.align true, .canId (0x123 * 2 ^ 18 + 2 ^ 32), .canByte 0xDE, .frameEnd] := by decide +kernel
/-- R160, IEEE 802.3 Clause 36: the comma of K28.5 aligns; D21.5 follows; 1111111111 is no code. -/
theorem test_symbols :
    ((msb 30 (0b0011111010 * 2 ^ 20 + 0b1010101010 * 2 ^ 10 + 0b1111111111)).foldl
      (fun s b => let (y, o) := symBit (rx 4) (b = 1) s.1; (y, s.2 ++ o)) (({}, []) : SymRx × List SdecItem)).2 =
      [.align true, .symbol (some 0x1BC) 0b0011111010, .symbol (some 0xB5) 0b1010101010, .error 1, .symbol none 0b1111111111] := by
  decide +kernel
/-- Table 6.3, R160: a control block of type 0x78 under lock, not scrambled: header 0b01, first-sent bit of the payload in bit 0. -/
theorem test_block :
    (([true, false] ++ (List.range 64).map (fun i => (0xFEDC00000000FF78 : Nat).testBit i)).foldl
      (fun s b => let (y, o) := blkBit { rx 5 with descr := false } b s.1; (y, s.2 ++ o)) (({ locked := true }, []) : BlkRx × List SdecItem)).2 =
      [.block (some (1, 0xFEDC00000000FF78))] := by decide +kernel
theorem witness_SerialFields :
    (∃ (c : RxCfg) (v : Nat) (p : Bool), 5 ≤ c.dataBits ∧ c.dataBits ≤ 9 ∧ c.parity ≤ 2 ∧ 1 ≤ c.stops ∧ c.stops ≤ 2 ∧ v < 2 ^ c.dataBits ∧
      c.parity ≠ 0 ∧ ((((List.range c.dataBits).map fun i => decide (v / 2 ^ i % 2 = 1)).filter id).length + p.toNat) % 2 = (c.parity + 1) % 2) ∧
    (∃ (c : RxCfg) (v : Nat) (p : Bool), 5 ≤ c.dataBits ∧ c.dataBits ≤ 9 ∧ c.parity ≤ 2 ∧ 1 ≤ c.stops ∧ c.stops ≤ 2 ∧ v < 2 ^ c.dataBits ∧
      ¬ (c.parity = 0 ∨
        ((((List.range c.dataBits).map fun i => decide (v / 2 ^ i % 2 = 1)).filter id).length + p.toNat) % 2 = (c.parity + 1) % 2)) ∧
    (∃ v : Nat, v < 256) ∧ (∃ (x : BlkRx) (l : List Bool), x.n = 2 ∧ l.length = 64) ∧
    (∃ (d : Dev) (n : Fin 4), (fieldLen (sdecProto d n) (sdecField d n)).isSome = true) ∧
    (∃ (d : Dev) (n : Fin 4), d.cfg (F.SDEC_d_MATCH_REL n) = 1) ∧ ∃ (d : Dev) (n : Fin 4), d.cfg (F.SDEC_d_MATCH_REL n) = 5 :=
  ⟨⟨{ rx 0 with dataBits := 5 }, 31, true, by decide +kernel⟩, ⟨{ rx 0 with dataBits := 9, stops := 2 }, 511, false, by decide +kernel⟩,
    ⟨255, by decide⟩, ⟨{ n := 2 }, List.replicate 64 true, by decide +kernel⟩, ⟨up, 3, by decide +kernel⟩,
    ⟨up.given (F.SDEC_d_MATCH_REL 3) 1, 3, by decide +kernel⟩, ⟨up.given (F.SDEC_d_MATCH_REL 0) 5, 0, by decide +kernel⟩⟩


/-! ### What meets the hypotheses of each statement, clause by clause in their order -/

theorem witness_StepRunsFront : ∃ (s : State), s.pending = [] :=
  ⟨st up, by decide +kernel⟩

theorem witness_ResetValues : ∃ p, p ∈ [(R.PWR_START, 5), (R.PWR_RESET_CAUSE, 1), (R.PWR_THERM_CFG, 0x695F), (R.HEDGE_SEAL_CTRL,
    0x11080400), (R.HEDGE_SEAL_PERIOD, 100)] :=
  ⟨(R.PWR_START, 5), by decide +kernel⟩

theorem witness_FusesNeverGoBack : ∃ (s : State) (t : State), s.dev.FusesAhead ∧ step s = .next t :=
  ⟨st up, st up, (by intro f h; cases h), rfl⟩

theorem witness_AqsDecodeEncode : ∃ (n : Fin 8) (i : Instr), aqsContext i = some n :=
  ⟨7, .fadd 7 1 15 0, by decide +kernel⟩

theorem witness_AqsReservedWords :
    (∃ (w : Word), (w.toNat / 2 ^ 26 = 0 ∨ 0x37 ≤ w.toNat / 2 ^ 26)) ∧
    (∃ (w : Word), w.toNat / 2 ^ 26 = 0x1B ∧ w.toNat / 2 ^ 22 % 16 = 15) ∧
    (∃ (n : Fin 8) (w : Word) (i : Instr), aqsDecode n w = some i) ∧
    (∃ (s : State) (n : Fin 8), s.dev.Up ∧ (s.dev.ctx n).run = .running ∧ (s.dev.ctx n).busy = .idle ∧
        aqsDecode n (wordAt s.dev (s.dev.ctx n).pc) = none) :=
  ⟨⟨0xDC000000, by decide +kernel⟩,
   ⟨0x6FC00000, by decide +kernel⟩,
   ⟨3, 0xD4000000, .halt 3, by decide +kernel⟩,
   ⟨st (run1 7), 7, ⟨rfl, rfl, rfl, rfl, rfl⟩, by decide +kernel⟩⟩

theorem witness_AqsWorkedWords :
    (∃ (n : Fin 8), ∃ p, p ∈ [(0xA40002C3#32, Instr.wset n 0 0x2C3), (0x5080004A#32, .movi n 2 0x4A), (0x54A05F20#32, .movh n 2 0x205F20),
        (0xB4000000#32, .arm n), (0x98C80001#32, .wait n 3 2 1), (0x6C400004#32, .br n 1 4), (0xA9000001#32, .evr n 4 1), (0xC8100001#32,
        .emit n 4 1), (0xD4000000#32, .halt n), (0xB8000000#32, .disarm n), (0xC80000FF#32, .emit n 0 0xFF)]) ∧
    (∃ w, w ∈ [0x00000000#32, 0xDC000000#32, 0x04000001#32, 0x6FC00000#32]) :=
  ⟨⟨0, (0xD4000000#32, .halt 0), by decide +kernel⟩,
   ⟨0x6FC00000#32, by decide +kernel⟩⟩

theorem witness_ReferencePresence : ∃ (s : State), s.dev.Up ∧ s.dev.get F.STAG_STATUS_REF_OK = 1 :=
  ⟨st (up.put F.STAG_STATUS_REF_OK 1), ⟨rfl, rfl, rfl, rfl, rfl⟩, by decide +kernel⟩

theorem witness_HoldoverEntry : ∃ (s : State), s.dev.Up ∧ s.dev.get F.STAG_STATUS_TB_SRC = 1 ∧ s.dev.get F.STAG_STATUS_REF_OK = 0 :=
  ⟨st (up.put F.STAG_STATUS_TB_SRC 1), ⟨rfl, rfl, rfl, rfl, rfl⟩, by decide +kernel⟩

theorem witness_ReferenceReturn : ∃ (s : State), s.dev.Up ∧ s.dev.cfg F.STAG_TB_CTRL_SRC = 0 ∧ s.dev.get F.STAG_STATUS_REF_OK = 1 ∧
    s.dev.get F.STAG_STATUS_TB_SRC = 3 ∧ s.dev.stag.counting = true :=
  ⟨st ({ up with stag := { counting := true } }.put F.STAG_STATUS_REF_OK 1 |>.put F.STAG_STATUS_TB_SRC 3), ⟨rfl, rfl, rfl, rfl, rfl⟩,
      by decide +kernel⟩

theorem witness_SlewEnds : ∃ (s : State), s.dev.Up ∧ s.dev.get F.STAG_STATUS_SLEWING = 1 ∧ s.dev.stag.slewRem.natAbs ≤ onePs * 10 ^ 7 :=
  ⟨st ({ up with stag := { slewRem := -9 } }.put F.STAG_STATUS_SLEWING 1), ⟨rfl, rfl, rfl, rfl, rfl⟩, by decide +kernel⟩

theorem witness_CountSteps :
    (∃ (s : State) (j : Int), s.dev.Up ∧ s.dev.stag.snap = some j) ∧
    (∃ (s : State), s.dev.Up ∧ s.dev.get F.STAG_STATUS_TB_SRC ≠ 2 ∧ s.dev.armed = false ∧ capOpen s.dev = false) ∧
    (∃ (s : State), s.dev.Up ∧ s.dev.get F.STAG_STATUS_TB_SRC = 2) ∧
    (∃ (s : State), s.dev.Up ∧ s.dev.get F.STAG_STATUS_TB_SRC ≠ 2 ∧ s.dev.armed = true) :=
  ⟨⟨st { up with stag := { snap := some (-9) } }, -9, ⟨rfl, rfl, rfl, rfl, rfl⟩, by decide +kernel⟩,
   ⟨st up, ⟨rfl, rfl, rfl, rfl, rfl⟩, by decide +kernel⟩,
   ⟨st (up.put F.STAG_STATUS_TB_SRC 2), ⟨rfl, rfl, rfl, rfl, rfl⟩, by decide +kernel⟩,
   ⟨st (up.put F.FOX_STATUS_ARMED 1), ⟨rfl, rfl, rfl, rfl, rfl⟩, by decide +kernel⟩⟩

theorem witness_SampleLoop :
    (∃ (s : State), s.dev.Up ∧ s.dev.get F.STAG_STATUS_SL_LOCK = 1 ∧ s.dev.cap.unit = none ∧ s.dev.cal.proc = none) ∧
    (∃ (s : State), s.dev.Up ∧ s.dev.cfg F.STAG_SL_CTRL_EN = 1 ∧ s.dev.get F.STAG_STATUS_SL_LOCK = 0 ∧
        s.dev.cfg F.STAG_SL_CTRL_AUTO_RELOCK = 1) ∧
    (∃ (s : State), s.dev.Up ∧ s.dev.stag.searching = true ∧ s.dev.cfg F.STAG_SL_CTRL_EN = 1 ∧ s.dev.get F.GLB_STATUS_READY = 1 ∧
        s.dev.get F.PWR_STATUS_PHASE = 8) ∧
    (∃ (s : State), s.dev.Up ∧ s.dev.stag.searching = true ∧ s.dev.cfg F.STAG_SL_CTRL_EN = 1) :=
  ⟨⟨st (up.put F.STAG_STATUS_SL_LOCK 1), ⟨rfl, rfl, rfl, rfl, rfl⟩, by decide +kernel⟩,
   ⟨st (up.given F.STAG_SL_CTRL_EN 1 |>.given F.STAG_SL_CTRL_AUTO_RELOCK 1), ⟨rfl, rfl, rfl, rfl, rfl⟩, by decide +kernel⟩,
   ⟨st ({ up with stag := { searching := true } }.given F.STAG_SL_CTRL_EN 1 |>.put F.GLB_STATUS_READY 1 |>.put F.PWR_STATUS_PHASE 8),
       ⟨rfl, rfl, rfl, rfl, rfl⟩, by decide +kernel⟩,
   ⟨st ({ up with stag := { searching := true } }.given F.STAG_SL_CTRL_EN 1), ⟨rfl, rfl, rfl, rfl, rfl⟩, by decide +kernel⟩⟩

theorem witness_TimebaseLoop :
    (∃ (s : State), s.dev.Up ∧ s.dev.cfg F.STAG_TB_CTRL_SRC = 0 ∧ s.dev.get F.STAG_STATUS_REF_OK = 1 ∧ s.dev.stag.counting = false ∧
        s.dev.get F.GLB_STATUS_READY = 1 ∧ s.dev.get F.PWR_STATUS_PHASE = 8) ∧
    (∃ (s : State), s.dev.Up ∧ s.dev.get F.STAG_STATUS_REF_OK = 1) :=
  ⟨⟨st (up.put F.STAG_STATUS_REF_OK 1 |>.put F.GLB_STATUS_READY 1 |>.put F.PWR_STATUS_PHASE 8), ⟨rfl, rfl, rfl, rfl, rfl⟩,
      by decide +kernel⟩,
   ⟨st (up.put F.STAG_STATUS_REF_OK 1), ⟨rfl, rfl, rfl, rfl, rfl⟩, by decide +kernel⟩⟩

theorem witness_RegisterWrites :
    (∃ (s : State) (q : Requester) (a : Nat) (r : RegRow) (ix : List Nat) (bytes : List Byte), s.dev.Reaches q a ∧ findReg a = some (r,
        ix) ∧ r.plain = true ∧ bytes.length = 4) ∧
    (∃ (s : State) (a : Nat) (r : RegRow) (h : RegRow) (ix : List Nat) (iy : List Nat) (bytes : List Byte), s.dev.Reaches .host a ∧
        findReg a = some (r, ix) ∧ findReg (a + 4) = some (h, iy) ∧ r.part = .lo ∧ h.part = .hi ∧ r.cfg = false ∧ h.cfg = false ∧
        r.rw ≠ 0 ∧ h.rw ≠ 0 ∧ r.off ∉ ownPair ∧ bytes.length = 8) ∧
    (∃ (s : State) (u : State) (n : Fin 8) (b : Fin 22), s.dev.Up ∧ (s.dev.ctx n).busy = .idle ∧ exec (.postedWriteDone n b) s = .next u) :=
  ⟨⟨st linked, .ctx 7, 0x2C, (row 0x2C).1, (row 0x2C).2, [1, 2, 3, 4], ⟨⟨rfl, rfl, rfl, rfl, rfl⟩, by decide +kernel⟩, by decide +kernel⟩,
   ⟨st linked, R.HEDGE_ADDR_LO, (row R.HEDGE_ADDR_LO).1, (row (R.HEDGE_ADDR_LO + 4)).1, (row R.HEDGE_ADDR_LO).2,
       (row (R.HEDGE_ADDR_LO + 4)).2, List.replicate 8 7, ⟨⟨rfl, rfl, rfl, rfl, rfl⟩, by decide +kernel⟩, by decide +kernel⟩,
   ⟨st up, _, 7, 0, ⟨rfl, rfl, rfl, rfl, rfl⟩, rfl, rfl⟩⟩

theorem witness_RegisterAccess :
    (∃ (s : State) (bytes : List Byte), s.dev.Up ∧ hostReaches s.dev = true ∧ bytes.length = 4) ∧
    (∃ (s : State) (q : Requester) (a : Nat) (r : RegRow) (ix : List Nat), s.dev.Reaches q a ∧ findReg a = some (r, ix) ∧
        r.part = .single) :=
  ⟨⟨st linked, [1, 2, 3, 0xFF], ⟨rfl, rfl, rfl, rfl, rfl⟩, by decide +kernel⟩,
   ⟨st linked, .host, R.GLB_EVQ_LOST, (row R.GLB_EVQ_LOST).1, (row R.GLB_EVQ_LOST).2, ⟨⟨rfl, rfl, rfl, rfl, rfl⟩, by decide +kernel⟩,
       by decide +kernel⟩⟩

theorem witness_AccessSizeIsReported :
    (∃ (s : State) (off : BitVec 26) (bytes : List Byte), s.dev.Up ∧ hostReaches s.dev = true ∧ off.toNat + bytes.length ≤ 0x1600000 ∧
        ¬ (off.toNat % 4 = 0 ∧ (bytes.length = 4 ∨ bytes.length = 8))) ∧
    (∃ (s : State) (q : Requester), s.dev.Reaches q R.GLB_BAD_ADDR_LO) :=
  ⟨⟨st linked, 0x15FFFFE, [1, 2], ⟨rfl, rfl, rfl, rfl, rfl⟩, by decide +kernel⟩,
   ⟨st linked, .ctx 3, ⟨⟨rfl, rfl, rfl, rfl, rfl⟩, by decide +kernel⟩⟩⟩

theorem witness_PairReadsCohere :
    (∃ (s : State) (q : Requester) (a : Nat) (r : RegRow) (h : RegRow) (ix : List Nat) (iy : List Nat), s.dev.Reaches q a ∧
        findReg a = some (r, ix) ∧ r.part = .lo ∧ findReg (a + 4) = some (h, iy) ∧ r.rc = 0 ∧ a ≠ R.GLB_BAD_ADDR_LO) ∧
    (∃ (s : State) (q : Requester) (a : Nat) (r : RegRow) (ix : List Nat), s.dev.Reaches q a ∧ findReg a = some (r, ix) ∧ r.part = .hi) ∧
    (∃ (s : State) (q : Requester) (a : Nat) (k : Nat) (r : RegRow) (ix : List Nat), s.dev.Reaches q a ∧ findReg a = some (r, ix) ∧
        r.part = .word0 k ∧ ix.getLastD 0 = 0 ∧ r.off ≠ R.LYNX_n_Q 0 0) :=
  ⟨⟨st linked, .host, R.STAG_PHASE_ERR_LO, (row R.STAG_PHASE_ERR_LO).1, (row (R.STAG_PHASE_ERR_LO + 4)).1, (row R.STAG_PHASE_ERR_LO).2,
      (row (R.STAG_PHASE_ERR_LO + 4)).2, ⟨⟨rfl, rfl, rfl, rfl, rfl⟩, by decide +kernel⟩, by decide +kernel⟩,
   ⟨st { linked with shadows := [(.host, R.STAG_PHASE_ERR_LO + 4, 77)] }, .host, R.STAG_PHASE_ERR_LO + 4,
       (row (R.STAG_PHASE_ERR_LO + 4)).1, (row (R.STAG_PHASE_ERR_LO + 4)).2, ⟨⟨rfl, rfl, rfl, rfl, rfl⟩, by decide +kernel⟩,
       by decide +kernel⟩,
   ⟨st linked, .ctx 7, R.CAL_LAST_TS 0, 3, (row (R.CAL_LAST_TS 0)).1, (row (R.CAL_LAST_TS 0)).2, ⟨⟨rfl, rfl, rfl, rfl, rfl⟩,
       by decide +kernel⟩, by decide +kernel⟩⟩

theorem witness_EventArrives :
    (∃ (s : State) (i : Island) (x : Event) (rest : List Event) (held : List Event) (lost : Nat), s.dev.Released ∧
        s.dev.crossings.get i = ⟨x :: rest, held, lost⟩ ∧ x.num ≠ 0 ∧ x.num < 64 * 22 ∧
        bitsOf (s.dev.get F.GLB_EVQ_MASK_BLOCKS) (x.num / 64) (x.num / 64) = 1 ∧ s.dev.get (F.GLB_IRQ_ROUTE_EN (x.num / 64)) = 0 ∧
        s.dev.rd R.GLB_EVQ_RD = 0 ∧ (s.dev.rd R.GLB_EVQ_WR).toNat < 8192) ∧
    (∃ (s : State) (i : Island) (x : Event) (rest : List Event) (held : List Event) (lost : Nat), s.dev.Released ∧
        s.dev.crossings.get i = ⟨x :: rest, held, lost⟩ ∧ x.num ≠ 0 ∧ x.num < 64 * 22 ∧
        bitsOf (s.dev.get F.GLB_EVQ_MASK_BLOCKS) (x.num / 64) (x.num / 64) = 1 ∧ s.dev.rd R.GLB_EVQ_RD = 0 ∧
        (s.dev.rd R.GLB_EVQ_WR).toNat = 8192) ∧
    (∃ (s : State) (u : State) (k : Fin 2) (bits : Word), s.dev.Released ∧ hostReaches s.dev = true ∧
        exec (.irqRearm k bits) s = .next u) :=
  ⟨⟨st { up with crossings := up.crossings.set 5 ⟨[⟨1407, 3, 4, none⟩], [⟨9, 0, 0, none⟩], 2⟩ } |> fun s => { s with dev := s.dev.put F.GLB_EVQ_MASK_BLOCKS 0x3FFFFF |>.wr R.GLB_EVQ_WR 8191 },
      5, ⟨1407, 3, 4, none⟩, [], [⟨9, 0, 0, none⟩], 2, ⟨rfl, rfl, rfl, rfl⟩, by decide +kernel⟩,
   ⟨st { up with crossings := up.crossings.set 5 ⟨[⟨1407, 3, 4, none⟩], [], 0⟩ } |> fun s => { s with dev := s.dev.put F.GLB_EVQ_MASK_BLOCKS 0x3FFFFF |>.wr R.GLB_EVQ_WR 8192 },
       5, ⟨1407, 3, 4, none⟩, [], [], 0, ⟨rfl, rfl, rfl, rfl⟩, by decide +kernel⟩,
   ⟨st linked, _, 1, 0x80000021, ⟨rfl, rfl, rfl, rfl⟩, by decide +kernel, rfl⟩⟩

theorem witness_EventsLost :
    (∃ (s : State) (i : Island) (x : Event) (rest : List Event), s.dev.Released ∧ (s.dev.crossings.get i).held = x :: rest) ∧
    (∃ (s : State) (i : Island), s.dev.Released ∧ (s.dev.crossings.get i).held = [] ∧ (s.dev.crossings.get i).fifo.length < 32 ∧
        (s.dev.crossings.get i).lost ≠ 0) :=
  ⟨⟨st { up with crossings := up.crossings.set 23 ⟨[], [⟨9, 0, 0, none⟩], 1⟩ }, 23, ⟨9, 0, 0, none⟩, [], ⟨rfl, rfl, rfl, rfl⟩,
      by decide +kernel⟩,
   ⟨st { up with crossings := up.crossings.set 23 ⟨List.replicate 31 ⟨9, 0, 0, none⟩, [], 1⟩ }, 23, ⟨rfl, rfl, rfl, rfl⟩,
       by decide +kernel⟩⟩

theorem witness_Interrupts :
    (∃ (s : State) (v : Fin 64), s.dev.Up ∧ s.dev.host.latch.getLsbD v.val = false) ∧
    (∃ (s : State), s.dev.Up ∧ s.dev.host.latch = 0) ∧
    (∃ (s : State) (v : Fin 64), s.dev.Up ∧ s.dev.host.latch.getLsbD v.val = true ∧ deliverable s.dev v = true) ∧
    (∃ (s : State) (v : Fin 64), s.dev.Up ∧ s.dev.host.pba = BitVec.ofNat 64 (2 ^ v.val) ∧ s.dev.host.msixEn = true ∧
        (s.dev.host.funcMask = false) ∧ mayIssue s.dev = true) :=
  ⟨⟨st up, 63, ⟨rfl, rfl, rfl, rfl, rfl⟩, by decide +kernel⟩,
   ⟨st up, ⟨rfl, rfl, rfl, rfl, rfl⟩, by decide +kernel⟩,
   ⟨st { linked with host := { linked.host with latch := 1 <<< 63, msixEn := true, busMaster := true, msix := Vector.replicate 64 { masked := false } } },
       63, ⟨rfl, rfl, rfl, rfl, rfl⟩, by decide +kernel⟩,
   ⟨st { linked with host := { linked.host with pba := 1 <<< 63, msixEn := true, busMaster := true } }, 63, ⟨rfl, rfl, rfl, rfl, rfl⟩,
       by decide +kernel⟩⟩

theorem witness_ConfigWriteStages :
    (∃ (s : State) (q : Requester) (a : Nat) (r : RegRow) (ix : List Nat) (v : Word), s.dev.Reaches q a ∧ findReg a = some (r, ix) ∧
        r.cfg = true ∧ r.part = .single ∧ sealedWrite s.dev q a = false ∧ s.dev.cfgc.staged.length < 4096 ∧
        v.toNat &&& rowBits r = v.toNat ∧ clampBy (singleRules r.off) (v.toNat &&& r.rw) = (v.toNat &&& r.rw, [])) ∧
    (∃ (s : State) (q : Requester) (a : Nat) (r : RegRow) (ix : List Nat), s.dev.Reaches q a ∧ findReg a = some (r, ix) ∧ r.cfg = true ∧
        r.part = .lo ∧ sealedWrite s.dev q a = false) ∧
    (∃ (s : State) (q : Requester) (a : Nat) (r : RegRow) (l : RegRow) (ix : List Nat) (iy : List Nat) (v : Word) (w : Word) (k : Nat),
        s.dev.Reaches q (a + 4) ∧ findReg (a + 4) = some (r, ix) ∧ findReg a = some (l, iy) ∧ r.cfg = true ∧ r.part = .hi ∧
        sealedWrite s.dev q (a + 4) = false ∧ s.dev.cfgc.staged.length + 2 ≤ 4096 ∧ s.dev.halves = [⟨q, a, w, k⟩] ∧
        w.toNat &&& l.rw = w.toNat ∧ v.toNat &&& r.rw = v.toNat ∧
        clampBy (pairRules l.off) (w.toNat + 2 ^ 32 * v.toNat) = (w.toNat + 2 ^ 32 * v.toNat, [])) ∧
    (∃ (s : State), s.dev.Up ∧ s.dev.cfgc.staged = [] ∧ s.dev.rd R.CFGC_RPT_RD = 0 ∧ s.dev.rd R.CFGC_RPT_WR = 0) ∧
    (∃ (s : State), s.dev.Up ∧ s.dev.cfgc.staged.length = 4096 ∧ (∀ w ∈ s.dev.cfgc.staged, w.addr ≠ R.FOX_SEQ_COUNT)) :=
  ⟨⟨st up, .ctx 7, R.FOX_SEQ_COUNT, (row R.FOX_SEQ_COUNT).1, (row R.FOX_SEQ_COUNT).2, 5, ⟨⟨rfl, rfl, rfl, rfl, rfl⟩, by decide +kernel⟩,
      by decide +kernel⟩,
   ⟨st linked, .host, R.BADGER_r_BASE_LO 3, (row (R.BADGER_r_BASE_LO 3)).1, (row (R.BADGER_r_BASE_LO 3)).2, ⟨⟨rfl, rfl, rfl, rfl, rfl⟩,
       by decide +kernel⟩, by decide +kernel⟩,
   ⟨st { linked with halves := [⟨.host, R.BADGER_r_BASE_LO 3, 64, 3⟩] }, .host, R.BADGER_r_BASE_LO 3, (row (R.BADGER_r_BASE_LO 3 + 4)).1,
       (row (R.BADGER_r_BASE_LO 3)).1, (row (R.BADGER_r_BASE_LO 3 + 4)).2, (row (R.BADGER_r_BASE_LO 3)).2, 0, 64, 3, ⟨⟨rfl, rfl, rfl, rfl,
       rfl⟩, by decide +kernel⟩, by decide +kernel⟩,
   ⟨st up, ⟨rfl, rfl, rfl, rfl, rfl⟩, by decide +kernel⟩,
   ⟨st { up with cfgc := { staged := List.replicate 4096 ⟨4, 5, 6⟩ } }, ⟨rfl, rfl, rfl, rfl, rfl⟩, List.length_replicate,
       by intro w h; cases List.eq_of_mem_replicate h; decide⟩⟩

theorem witness_CommitReachesUnit :
    (∃ (s : State), s.dev.Up ∧ s.dev.cfgc.commits.length < 8) ∧
    (∃ (s : State), s.dev.Up ∧ 8 ≤ s.dev.cfgc.commits.length) ∧
    (∃ (s : State) (v : Word) (seq : Nat) (q : Nat), s.dev.Up ∧ s.dev.cfgc.commits = [⟨seq, [⟨R.STAG_TB_CTRL, v, q⟩], []⟩] ∧
        s.dev.cfgc.parts = [] ∧ s.dev.cfgc.waits = [] ∧ s.dev.phase = 0) ∧
    (∃ (s : State) (v : Word) (seq : Nat), s.dev.Up ∧ s.dev.cfgc.parts = [⟨.stagTb, R.STAG_TB_CTRL, v⟩] ∧ s.dev.cfgc.waits = [⟨seq,
        [.stagTb], false⟩] ∧ (s.dev.rd R.CFGC_APPLIED_SEQ).toNat ≤ seq ∧ seq < (s.dev.rd R.CFGC_APPLIED_SEQ).toNat + 2 ^ 31 ∧
        seq < 2 ^ 32) ∧
    (∃ (s : State) (a : Nat) (v : Word) (seq : Nat), ∃ u, u ∈ [CfgUnit.stagTb, .lynxExt, .ilvCtrl, .fox] ∧ s.dev.Up ∧
        midSpan s.dev = false ∧ s.dev.cfgc.parts = [⟨u, a, v⟩] ∧ s.dev.cfgc.waits = [⟨seq, [u], false⟩]) ∧
    (∃ (s : State) (v : Word) (seq : Nat) (q : Nat), s.dev.Up ∧ s.dev.cfgc.commits = [⟨seq, [⟨R.STAG_TB_CTRL, v, q⟩], []⟩] ∧
        s.dev.cfgc.parts = [] ∧ s.dev.cfgc.waits = [] ∧ s.dev.phase ≠ 0) :=
  ⟨⟨st { up with cfgc := { staged := [⟨R.FOX_SEQ_COUNT, 5, 1⟩], commits := List.replicate 7 ⟨1, [], []⟩ } }, ⟨rfl, rfl, rfl, rfl, rfl⟩,
      by decide +kernel⟩,
   ⟨st { up with cfgc := { commits := List.replicate 8 ⟨1, [], []⟩ } }, ⟨rfl, rfl, rfl, rfl, rfl⟩, by decide +kernel⟩,
   ⟨st { up with cfgc := { commits := [⟨3, [⟨R.STAG_TB_CTRL, 5, 2⟩], []⟩] } }, 5, 3, 2, ⟨rfl, rfl, rfl, rfl, rfl⟩, by decide +kernel⟩,
   ⟨st { up with cfgc := { parts := [⟨.stagTb, R.STAG_TB_CTRL, 5⟩], waits := [⟨3, [.stagTb], false⟩] } }, 5, 3, ⟨rfl, rfl, rfl, rfl, rfl⟩,
       by decide +kernel⟩,
   ⟨st { up with cfgc := { parts := [⟨.lynxExt, R.LYNX_EXT_OFFSET, 5⟩], waits := [⟨3, [.lynxExt], false⟩] } }, R.LYNX_EXT_OFFSET, 5, 3,
       .lynxExt, by decide +kernel, ⟨rfl, rfl, rfl, rfl, rfl⟩, by decide +kernel⟩,
   ⟨st ({ up with cfgc := { commits := [⟨3, [⟨R.STAG_TB_CTRL, 5, 2⟩], []⟩] } }.put F.GLB_MODE_STATUS_PHASE 2), 5, 3, 2, ⟨rfl, rfl, rfl,
       rfl, rfl⟩, by decide +kernel⟩⟩

theorem witness_HostMemoryWindows :
    (∃ (s : State) (off : BitVec 39) (n : Nat), s.dev.Up ∧ hostReaches s.dev = true ∧ off.toNat + n ≤ dramEnd ∧
        off.toNat + n ≤ s.dev.ddr.span ∧ 0 < n ∧ burstPoisoned s.dev off.toNat n = false) ∧
    (∃ (s : State) (off : BitVec 39), s.dev.Up ∧ hostReaches s.dev = true ∧ 0x7100000000 ≤ off.toNat) ∧
    (∃ (s : State) (k : Nat) (bytes : List Byte), s.dev.Up ∧ hostReaches s.dev = true ∧ bytes ≠ [] ∧ k + bytes.length ≤ 0x200000 ∧
        s.dev.ddr.span ≤ dramEnd) ∧
    (∃ (s : State), s.dev.Up ∧ hostReaches s.dev = true) ∧
    (∃ (s : State) (off : BitVec 39) (bytes : List Byte), s.dev.Up ∧ hostReaches s.dev = true ∧ bytes ≠ [] ∧
        off.toNat + bytes.length ≤ dramEnd ∧ off.toNat + bytes.length ≤ s.dev.ddr.span ∧ canWrite s.dev off.toNat bytes.length = true) :=
  ⟨⟨st { linked with ddr := { span := 4096 } }, 4095, 1, ⟨rfl, rfl, rfl, rfl, rfl⟩, by decide +kernel⟩,
   ⟨st linked, 0x7100000000, ⟨rfl, rfl, rfl, rfl, rfl⟩, by decide +kernel⟩,
   ⟨st linked, 0x1FFFFF, [5], ⟨rfl, rfl, rfl, rfl, rfl⟩, by decide +kernel⟩,
   ⟨st linked, ⟨rfl, rfl, rfl, rfl, rfl⟩, by decide +kernel⟩,
   ⟨st { linked with ddr := { span := 4096 } }, 4095, [5], ⟨rfl, rfl, rfl, rfl, rfl⟩, by decide +kernel⟩⟩

theorem witness_EndpointEvents :
    (∃ (s : State) (speed : Fin 7), s.dev.Up ∧ hRuns s.dev = true ∧ speed.val ≤ s.dev.get F.PCIE_CTRL_TARGET_SPEED) ∧
    (∃ (s : State), ∃ c, c ∈ [Instr.perst, .functionLevelReset] ∧ s.dev.Up ∧ hRuns s.dev = true) ∧
    (∃ (s : State), s.dev.Up ∧ hRuns s.dev = true) :=
  ⟨⟨st linked, 0, ⟨rfl, rfl, rfl, rfl, rfl⟩, by decide +kernel⟩,
   ⟨st linked, .perst, by decide +kernel, ⟨rfl, rfl, rfl, rfl, rfl⟩, by decide +kernel⟩,
   ⟨st linked, ⟨rfl, rfl, rfl, rfl, rfl⟩, by decide +kernel⟩⟩

theorem witness_AgePromotion :
    (∃ (s : State) (n : Fin 32) (w : Nat), s.dev.Up ∧ s.dev.cfg F.BEAVER_ARB_AGE ≤ w ∧ chanMoving s.dev n = true ∧
        n ∉ s.dev.beaver.urgent) ∧
    (∃ (s : State) (w : Nat), s.dev.Up ∧ w < s.dev.cfg F.BEAVER_ARB_AGE) ∧
    (∃ (s : State) (n : Fin 12) (k : Nat) (w : Nat) (r : DdrReq), s.dev.Up ∧ (s.dev.ddr.chans.get n).queue[k]? = some r ∧
        (if r.host then s.dev.cfg F.DDR_ARB_HOST_AGE else s.dev.cfg F.DDR_ARB_AGE) ≤ w) ∧
    (∃ (s : State) (x : JobSrc) (w : Nat), s.dev.Up ∧ 160 ≤ w ∧ x ∉ s.dev.badger.urgent) ∧
    (∃ (s : State) (p : Port) (k : Nat) (w : Nat) (f : IflFrame), s.dev.Up ∧ (s.dev.port p).queue[k]? = some f ∧
        10 * s.dev.cfg F.IFL_RING_AGE ≤ w) ∧
    (∃ (s : State) (n : Fin 8) (b : Fin 22) (w : Nat), s.dev.Up ∧ 32 ≤ w ∧ onBus s.dev n b.val = true ∧ (n, b.val) ∉ s.dev.aqs.urgent) :=
  ⟨⟨st ({ up with beaver := { chans := Vector.replicate 32 { desc := some ⟨0, 0, 0, 0, 0, 0, 0, 0, 0, 0, 0⟩ } } }.given F.BEAVER_ARB_AGE 100),
      31, 100, ⟨rfl, rfl, rfl, rfl, rfl⟩, by decide +kernel⟩,
   ⟨st (up.given F.BEAVER_ARB_AGE 100), 99, ⟨rfl, rfl, rfl, rfl, rfl⟩, by decide +kernel⟩,
   ⟨st { up with ddr := { chans := Vector.replicate 12 { queue := [ddrReq true 1, ddrReq false 3] } } }, 11, 1, 5000, ddrReq false 3,
       ⟨rfl, rfl, rfl, rfl, rfl⟩, by decide +kernel⟩,
   ⟨st up, .ring 3 5, 160, ⟨rfl, rfl, rfl, rfl, rfl⟩, by decide +kernel⟩,
   ⟨st (port 2 true { queue := [⟨[1], none, false, false⟩, ⟨[2], none, false, false⟩] }), 2, 1, 100000, ⟨[2], none, false, false⟩, ⟨rfl,
       rfl, rfl, rfl, rfl⟩, by decide +kernel⟩,
   ⟨st (inProgress 7 (.csr R.CFGC_SEQ 15)), 7, 1, 32, ⟨rfl, rfl, rfl, rfl, rfl⟩, by decide +kernel⟩⟩

theorem witness_ModeRefusals :
    (∃ (s : State), s.dev.Up ∧ s.dev.get F.GLB_STATUS_READY = 0) ∧
    (∃ (s : State), s.dev.Up ∧ s.dev.get F.GLB_STATUS_READY = 1 ∧ s.dev.phase = 2) ∧
    (∃ (s : State) (v : Word), s.dev.Up ∧ s.dev.get F.GLB_STATUS_READY = 1 ∧ s.dev.phase ≠ 2 ∧
        (bitsOf v.toNat 5 4 = 3 ∨ (bitsOf v.toNat 2 0 = mFine ∧ bitsOf v.toNat 5 4 ≠ 0))) ∧
    (∃ (s : State) (v : Word), s.dev.Up ∧ s.dev.get F.GLB_STATUS_READY = 1 ∧ s.dev.phase ≠ 2 ∧ bitsOf v.toNat 5 4 ≠ 3 ∧
        (bitsOf v.toNat 2 0 < mFine ∨ (bitsOf v.toNat 2 0 = mFine ∧ bitsOf v.toNat 5 4 = 0)) ∧ s.dev.cfg F.STAG_SL_CTRL_EN = 0) :=
  ⟨⟨st up, ⟨rfl, rfl, rfl, rfl, rfl⟩, by decide +kernel⟩,
   ⟨st (ready.put F.GLB_MODE_STATUS_PHASE 2), ⟨rfl, rfl, rfl, rfl, rfl⟩, by decide +kernel⟩,
   ⟨st ready, 0x31, ⟨rfl, rfl, rfl, rfl, rfl⟩, by decide +kernel⟩,
   ⟨st (ready.given F.STAG_SL_CTRL_EN 0), 5, ⟨rfl, rfl, rfl, rfl, rfl⟩, by decide +kernel⟩⟩

theorem witness_ModeRequestTaken :
    (∃ (s : State) (v : Word), s.dev.Up ∧ s.dev.get F.GLB_STATUS_READY = 1 ∧ s.dev.phase = 0 ∧ s.dev.cfg F.STAG_SL_CTRL_EN = 1 ∧
        bitsOf v.toNat 5 4 ≠ 3 ∧ (bitsOf v.toNat 2 0 ≠ mFine ∨ bitsOf v.toNat 5 4 = 0) ∧
        (bitsOf v.toNat 9 9 = 1 ∨ (midSpan s.dev = false ∧ (bitsOf v.toNat 2 0 ≠ s.dev.mode ∨ (bitsOf v.toNat 5 4 ≠ s.dev.arr ∧
        s.dev.mode ≠ mSentry ∧ s.dev.mode ≠ mCount))))) ∧
    (∃ (s : State) (v : Word), s.dev.Up ∧ s.dev.get F.GLB_STATUS_READY = 1 ∧ s.dev.phase = 0 ∧ s.dev.cfg F.STAG_SL_CTRL_EN = 1 ∧
        bitsOf v.toNat 5 4 ≠ 3 ∧ (bitsOf v.toNat 2 0 ≠ mFine ∨ bitsOf v.toNat 5 4 = 0) ∧ bitsOf v.toNat 2 0 = s.dev.mode ∧
        bitsOf v.toNat 5 4 = s.dev.arr ∧ bitsOf v.toNat 9 9 = 0) ∧
    (∃ (s : State) (v : Word), s.dev.Up ∧ s.dev.get F.GLB_STATUS_READY = 1 ∧ s.dev.phase = 1 ∧ s.dev.cfg F.STAG_SL_CTRL_EN = 1 ∧
        bitsOf v.toNat 5 4 ≠ 3 ∧ (bitsOf v.toNat 2 0 ≠ mFine ∨ bitsOf v.toNat 5 4 = 0)) ∧
    (∃ (s : State) (u : State) (n : Fin 8) (b : Fin 22), s.dev.Up ∧ (s.dev.ctx n).busy = .idle ∧ exec (.postedWriteDone n b) s = .next u) :=
  ⟨⟨st (ready.given F.STAG_SL_CTRL_EN 1), 5, ⟨rfl, rfl, rfl, rfl, rfl⟩, by decide +kernel⟩,
   ⟨st (ready.given F.STAG_SL_CTRL_EN 1 |>.put F.GLB_MODE_STATUS_CUR_MODE 2 |>.put F.GLB_MODE_STATUS_CUR_ARR 2), 0x22, ⟨rfl, rfl, rfl,
       rfl, rfl⟩, by decide +kernel⟩,
   ⟨st (ready.given F.STAG_SL_CTRL_EN 1 |>.put F.GLB_MODE_STATUS_PHASE 1), 5, ⟨rfl, rfl, rfl, rfl, rfl⟩, by decide +kernel⟩,
   ⟨st up, _, 7, 0, ⟨rfl, rfl, rfl, rfl, rfl⟩, rfl, rfl⟩⟩

theorem witness_ModePhases :
    (∃ (s : State), s.dev.Up ∧ s.dev.phase = 1 ∧ (∀ u ∈ s.dev.mod.leaving, unitOff s.dev u = true) ∧ s.dev.cap.unit = none ∧
        s.dev.cap.tail = none ∧ midSpan s.dev = false ∧ s.dev.fox.due = []) ∧
    (∃ (s : State) (u : UnitId), s.dev.Up ∧ (s.dev.phase ≠ 1 ∨ (u ∈ s.dev.mod.leaving ∧
        unitOff s.dev u = false) ∨ s.dev.cap.unit.isSome = true)) ∧
    (∃ (s : State), s.dev.Up ∧ s.dev.phase = 3 ∧ s.dev.get F.STAG_STATUS_SL_LOCK = 1) ∧
    (∃ (s : State), s.dev.Up ∧ (s.dev.phase ≠ 3 ∨ s.dev.get F.STAG_STATUS_SL_LOCK = 0)) :=
  ⟨⟨st (up.put F.GLB_MODE_STATUS_PHASE 1), ⟨rfl, rfl, rfl, rfl, rfl⟩, by decide +kernel⟩,
   ⟨st up, .fox, ⟨rfl, rfl, rfl, rfl, rfl⟩, by decide +kernel⟩,
   ⟨st (up.put F.GLB_MODE_STATUS_PHASE 3 |>.put F.STAG_STATUS_SL_LOCK 1), ⟨rfl, rfl, rfl, rfl, rfl⟩, by decide +kernel⟩,
   ⟨st (up.put F.GLB_MODE_STATUS_PHASE 3), ⟨rfl, rfl, rfl, rfl, rfl⟩, by decide +kernel⟩⟩

theorem witness_ModeEntered :
    (∃ (s : State), s.dev.Up ∧ s.dev.phase = 2 ∧ s.dev.mod.wake = false ∧ s.dev.mod.forCal = false ∧ s.dev.cal.startup = false ∧
        s.dev.cfgc.withMode = [] ∧ s.dev.get F.GLB_MODE_STATUS_TGT_ARR ≤ 2) ∧
    (∃ (s : State), s.dev.Up ∧ s.dev.phase = 2 ∧ s.dev.mod.wake = true ∧ s.dev.get F.GLB_MODE_WAKE_ARM = 0 ∧ s.dev.cfgc.withMode = [] ∧
        s.dev.get F.GLB_MODE_STATUS_TGT_ARR ≤ 2) ∧
    (∃ (s : State), s.dev.Up ∧ s.dev.phase ≠ 2) :=
  ⟨⟨st (up.put F.GLB_MODE_STATUS_PHASE 2), ⟨rfl, rfl, rfl, rfl, rfl⟩, by decide +kernel⟩,
   ⟨st ({ up with mod := { wake := true } }.put F.GLB_MODE_STATUS_PHASE 2), ⟨rfl, rfl, rfl, rfl, rfl⟩, by decide +kernel⟩,
   ⟨st up, ⟨rfl, rfl, rfl, rfl, rfl⟩, by decide +kernel⟩⟩

theorem witness_UnitsReachOff :
    (∃ (s : State) (n : Fin 8), s.dev.Up ∧ s.dev.unitState (.lynx n) = stDraining ∧ (s.dev.lynx.get n).measuring = false) ∧
    (∃ (s : State) (p : Fin 4), s.dev.Up ∧ s.dev.unitState (.red p) = stDraining) ∧
    (∃ (s : State) (p : Fin 4), s.dev.Up ∧ s.dev.unitState (.sdec p) = stDraining ∧ sdecInFrame s.dev p = false ∧
        hasPart s.dev (.sdec p) = false) ∧
    (∃ (s : State) (p : Fin 4), s.dev.Up ∧ s.dev.unitState (.pulse p) = stDraining ∧ (s.dev.pulse.get p).active = false ∧
        hasPart s.dev (.pulse p) = false) ∧
    (∃ (s : State), s.dev.Up ∧ s.dev.unitState .stk = stDraining ∧ s.dev.stk.fold = none) ∧
    (∃ (s : State) (p : Fin 4), s.dev.Up ∧ s.dev.unitState (.red p) = stAborting) ∧
    (∃ (s : State), s.dev.Up ∧ s.dev.get F.CAP_STATUS_STATE = stAborting) ∧
    (∃ (s : State) (n : Fin 8) (p : Fin 4), ∃ u, s.dev.Up ∧ hasPart s.dev (.sdec p) = false ∧ hasPart s.dev (.pulse p) = false ∧
        u ∈ [UnitId.sdec p, .pulse p, .lynx n, .stk] ∧ s.dev.unitState u = stAborting) ∧
    (∃ (s : State) (u : UnitId), s.dev.Up ∧ s.dev.unitState u ≠ stDraining) ∧
    (∃ (s : State) (u : UnitId), s.dev.Up ∧ s.dev.unitState u ≠ stAborting) :=
  ⟨⟨st (up.setUnit (.lynx 7) stDraining), 7, ⟨rfl, rfl, rfl, rfl, rfl⟩, by decide +kernel⟩,
   ⟨st (up.setUnit (.red 3) stDraining), 3, ⟨rfl, rfl, rfl, rfl, rfl⟩, by decide +kernel⟩,
   ⟨st (up.setUnit (.sdec 3) stDraining), 3, ⟨rfl, rfl, rfl, rfl, rfl⟩, by decide +kernel⟩,
   ⟨st (up.setUnit (.pulse 3) stDraining), 3, ⟨rfl, rfl, rfl, rfl, rfl⟩, by decide +kernel⟩,
   ⟨st (up.setUnit .stk stDraining), ⟨rfl, rfl, rfl, rfl, rfl⟩, by decide +kernel⟩,
   ⟨st (up.setUnit (.red 3) stAborting), 3, ⟨rfl, rfl, rfl, rfl, rfl⟩, by decide +kernel⟩,
   ⟨st (up.setUnit .cap stAborting), ⟨rfl, rfl, rfl, rfl, rfl⟩, by decide +kernel⟩,
   ⟨st (up.setUnit (.pulse 3) stAborting), 0, 3, .pulse 3, ⟨rfl, rfl, rfl, rfl, rfl⟩, by decide +kernel⟩,
   ⟨st up, .beaver 31, ⟨rfl, rfl, rfl, rfl, rfl⟩, by decide +kernel⟩,
   ⟨st up, .ddr 11, ⟨rfl, rfl, rfl, rfl, rfl⟩, by decide +kernel⟩⟩

theorem witness_EstimatorWindow :
    (∃ (s : State) (quals : List Nat) (props : List TrimProp), s.dev.Up ∧ estimating s.dev = true ∧
        2 ^ s.dev.cfg F.ILV_CTRL_WIN ≤ s.dev.conv.window ∧ windowOk quals props s.dev = true ∧ (props.map (fun p => (p.bank,
        p.sub))).Nodup) ∧
    (∃ (s : State), s.dev.Up ∧ (estimating s.dev = false ∨ s.dev.conv.window < 2 ^ s.dev.cfg F.ILV_CTRL_WIN)) :=
  ⟨⟨st ({ up with conv := { window := 2 ^ 26 } }.put F.GLB_MODE_STATUS_CUR_ARR 2 |>.put F.GLB_MODE_STATUS_CUR_MODE 2 |>.given F.ILV_CTRL_EST_EN 1 |>.given F.ILV_CTRL_QUAL_MIN 255),
      [], [], ⟨rfl, rfl, rfl, rfl, rfl⟩, by decide +kernel⟩,
   ⟨st up, ⟨rfl, rfl, rfl, rfl, rfl⟩, by decide +kernel⟩⟩

theorem witness_ShadowReady :
    (∃ (s : State) (b : Fin 4) (slot : Nat) (n : Nat), s.dev.Up ∧ s.dev.conv.shadow.get b = some (slot, n) ∧
        2 ^ s.dev.cfg F.ILV_CTRL_WIN ≤ n ∧ s.dev.owlSvc.get b = none) ∧
    (∃ (s : State) (b : Fin 4) (slot : Nat) (n : Nat), s.dev.Up ∧ s.dev.conv.shadow.get b = some (slot, n) ∧
        (n < 2 ^ s.dev.cfg F.ILV_CTRL_WIN ∨ (s.dev.owlSvc.get b).isSome = true)) :=
  ⟨⟨st { up with conv := { shadow := #v[none, none, none, some (5, 2 ^ 26)] } }, 3, 5, 2 ^ 26, ⟨rfl, rfl, rfl, rfl, rfl⟩,
      by decide +kernel⟩,
   ⟨st { up with conv := { shadow := #v[none, none, none, some (5, 6)] } }, 3, 5, 6, ⟨rfl, rfl, rfl, rfl, rfl⟩, by decide +kernel⟩⟩

theorem witness_TickAdvances : ∃ (s : State), s.dev.Up ∧ s.dev.stag.counting = true ∧ s.dev.stag.starting = false ∧
    s.dev.stag.load = none ∧ s.dev.mode = mSentry ∧ s.dev.armed = false :=
  ⟨st { up with stag := { counting := true } }, ⟨rfl, rfl, rfl, rfl, rfl⟩, by decide +kernel⟩

theorem witness_DividerApplies : ∃ (s : State) (v : Word) (seq : Nat), s.dev.Up ∧ s.dev.armed = false ∧ capOpen s.dev = false ∧
    s.dev.cfgc.parts = [⟨.stagSl, R.STAG_SL_DIV, v⟩] ∧ s.dev.cfgc.waits = [⟨seq, [.stagSl], false⟩] ∧ s.dev.cfg F.STAG_SL_CTRL_EN = 1 ∧
    s.dev.get F.STAG_STATUS_SL_LOCK = 1 ∧ divN v ≠ divN (s.dev.ef R.STAG_SL_DIV) ∧
    ((divN v : Int) - divN (s.dev.ef R.STAG_SL_DIV)).natAbs * 5000 ≤ divN (s.dev.ef R.STAG_SL_DIV) :=
  ⟨st ({ up with cfgc := { parts := [⟨.stagSl, R.STAG_SL_DIV, 0x40000100⟩], waits := [⟨9, [.stagSl], false⟩] } }.efw R.STAG_SL_DIV 0x40000000 |>.given F.STAG_SL_CTRL_EN 1 |>.put F.STAG_STATUS_SL_LOCK 1),
      0x40000100, 9, ⟨rfl, rfl, rfl, rfl, rfl⟩, by decide +kernel⟩

theorem witness_ArmAndDisarm :
    (∃ (s : State), s.dev.Up ∧ s.dev.Between ∧ s.dev.phase = 0 ∧ s.dev.mode ≠ mCalibrate ∧ s.dev.get F.PWR_STATUS_READY = 1 ∧
        srcEnabled s.dev 1 = true ∧ mainUnsampled s.dev = false ∧ s.dev.armed = false) ∧
    (∃ (s : State), s.dev.Up ∧ s.dev.Between ∧ s.dev.get F.PWR_STATUS_READY = 0 ∧ s.dev.armed = false) ∧
    (∃ (s : State), s.dev.Up ∧ s.dev.Between ∧ s.dev.phase = 0 ∧ s.dev.mode ≠ mCalibrate ∧ s.dev.get F.PWR_STATUS_READY = 1 ∧
        s.dev.cfg F.FOX_CTRL_SRC_EN = 0 ∧ s.dev.armed = false) ∧
    (∃ (s : State), s.dev.Up ∧ s.dev.Between ∧ s.dev.armed = true) ∧
    (∃ (s : State), s.dev.Up ∧ midSpan s.dev = true) :=
  ⟨⟨st (up.put F.PWR_STATUS_READY 1 |>.given F.FOX_CTRL_SRC_EN 2), ⟨rfl, rfl, rfl, rfl, rfl⟩, ⟨by decide +kernel, rfl⟩, by decide +kernel⟩,
   ⟨st up, ⟨rfl, rfl, rfl, rfl, rfl⟩, ⟨by decide +kernel, rfl⟩, by decide +kernel⟩,
   ⟨st (up.put F.PWR_STATUS_READY 1 |>.given F.FOX_CTRL_SRC_EN 0), ⟨rfl, rfl, rfl, rfl, rfl⟩, ⟨by decide +kernel, rfl⟩, by decide +kernel⟩,
   ⟨st (up.put F.FOX_STATUS_ARMED 1), ⟨rfl, rfl, rfl, rfl, rfl⟩, ⟨by decide +kernel, rfl⟩, by decide +kernel⟩,
   ⟨st ({ up with conv := { next := #v[some 256, none, some 0, none] } }.put F.GLB_MODE_STATUS_CUR_MODE 2), ⟨rfl, rfl, rfl, rfl, rfl⟩,
       by decide +kernel⟩⟩

theorem witness_SoftwareTrigger :
    (∃ (s : State), s.dev.Up ∧ s.dev.Between ∧ s.dev.armed = false) ∧
    (∃ (s : State), s.dev.Up ∧ s.dev.Between ∧ s.dev.armed = true ∧ s.dev.mode ≠ mCount ∧ s.dev.stag.lost = false ∧
        s.dev.fox.swNow = false ∧ s.dev.get F.FOX_STATUS_FORCE_PENDING = 0) ∧
    (∃ (s : State), s.dev.Up ∧ s.dev.Between ∧ s.dev.armed = true ∧ s.dev.fox.swNow = true) ∧
    (∃ (s : State), s.dev.Up ∧ s.dev.armed = true ∧ s.dev.get F.FOX_STATUS_FORCE_PENDING = 1 ∧
        inBusy s.dev (s.dev.fox.vecK + 256 * foxStride s.dev) = false) :=
  ⟨⟨st up, ⟨rfl, rfl, rfl, rfl, rfl⟩, ⟨by decide +kernel, rfl⟩, by decide +kernel⟩,
   ⟨st (up.put F.FOX_STATUS_ARMED 1 |>.put F.GLB_MODE_STATUS_CUR_MODE 2), ⟨rfl, rfl, rfl, rfl, rfl⟩, ⟨by decide +kernel, rfl⟩,
       by decide +kernel⟩,
   ⟨st ({ up with fox := { swNow := true } }.put F.FOX_STATUS_ARMED 1), ⟨rfl, rfl, rfl, rfl, rfl⟩, ⟨by decide +kernel, rfl⟩,
       by decide +kernel⟩,
   ⟨st ({ up with fox := { busyEnd := some 256 } }.put F.FOX_STATUS_ARMED 1 |>.put F.FOX_STATUS_FORCE_PENDING 1 |>.put F.GLB_MODE_STATUS_CUR_MODE 1),
       ⟨rfl, rfl, rfl, rfl, rfl⟩, by decide +kernel⟩⟩

theorem witness_SentryWakes :
    (∃ (d : Dev), d.armed = true ∧ d.mode = mSentry ∧ d.phase = 0 ∧ d.stag.lost = false) ∧
    (∃ (d : Dev), d.armed = true ∧ d.mode = mSentry ∧ d.phase ≠ 0 ∧ d.stag.lost = false) :=
  ⟨⟨up.put F.FOX_STATUS_ARMED 1, by decide +kernel⟩,
   ⟨up.put F.FOX_STATUS_ARMED 1 |>.put F.GLB_MODE_STATUS_PHASE 1, by decide +kernel⟩⟩

theorem witness_TriggerIntervalsEnd :
    (∃ (s : State) (t : Nat), s.dev.Up ∧ s.dev.fox.holdUntil = some t ∧ t ≤ s.dev.stag.now.toNat) ∧
    (∃ (s : State) (k : Int), s.dev.Up ∧ s.dev.fox.busyEnd = some k ∧ k ≤ s.dev.fox.vecK + 256 * foxStride s.dev ∧ s.dev.cap.unit = none ∧
        s.dev.cap.full = false) ∧
    (∃ (s : State) (t : Nat), s.dev.Up ∧ s.dev.fox.seqAt = some t ∧ s.dev.cf64 R.FOX_SEQ_WIN_LO % 2 ^ 48 ≠ 0 ∧
        t + s.dev.cf64 R.FOX_SEQ_WIN_LO % 2 ^ 48 * 2 ^ 32 < min s.dev.stag.now.toNat (s.dev.sampleTS (foxIndex s.dev 255)).toNat) :=
  ⟨⟨st { up with fox := { holdUntil := some 9 }, stag := { now := 9 } }, 9, ⟨rfl, rfl, rfl, rfl, rfl⟩, by decide +kernel⟩,
   ⟨st ({ up with fox := { busyEnd := some 256 } }.put F.GLB_MODE_STATUS_CUR_MODE 1), 256, ⟨rfl, rfl, rfl, rfl, rfl⟩, by decide +kernel⟩,
   ⟨st ({ up with fox := { seqAt := some 0 }, stag := { now := 0x100000001 } }.efw R.FOX_SEQ_WIN_LO 1), 0, ⟨rfl, rfl, rfl, rfl, rfl⟩,
       by decide +kernel⟩⟩

theorem witness_TrigoutPeriods :
    (∃ (s : State) (x : Nat) (fin : Nat) (rest : List (Nat × Nat)), s.dev.Up ∧ s.dev.fox.trigout.edges = (x, fin) :: rest ∧
        s.dev.fox.trigout.active = false ∧ s.dev.fox.trigout.endAt = 0) ∧
    (∃ (s : State) (x : Nat) (fin : Nat) (rest : List (Nat × Nat)), s.dev.Up ∧ s.dev.fox.trigout.edges = (x, fin) :: rest ∧
        s.dev.fox.trigout.active = true ∧ s.dev.fox.trigout.endAt ≠ 0 ∧ x < s.dev.fox.trigout.endAt + 2 ^ 31) ∧
    (∃ (s : State), s.dev.Up ∧ s.dev.fox.trigout.active = true ∧ s.dev.fox.trigout.edges = []) :=
  ⟨⟨st { up with fox := { trigout := { edges := [(4, 9)] } } }, 4, 9, [], ⟨rfl, rfl, rfl, rfl, rfl⟩, by decide +kernel⟩,
   ⟨st { up with fox := { trigout := { edges := [(4, 9)], active := true, endAt := 4 } } }, 4, 9, [], ⟨rfl, rfl, rfl, rfl, rfl⟩,
       by decide +kernel⟩,
   ⟨st { up with fox := { trigout := { active := true, endAt := 4 } } }, ⟨rfl, rfl, rfl, rfl, rfl⟩, by decide +kernel⟩⟩

theorem witness_TrigoutMinimum :
    (∃ (s : State), s.dev.Up ∧ s.dev.ef R.STAG_SL_DIV = 0x40000000#32 ∧ isCapture s.dev.mode = true ∧
        s.dev.get F.STAG_STATUS_ON_BYCLK = 0 ∧ s.dev.cfg F.FOX_CTRL_SRC_EN = 2) ∧
    (∃ (s : State), s.dev.Up ∧ s.dev.ef R.STAG_SL_DIV = 0x40000000#32 ∧ isCapture s.dev.mode = true ∧
        s.dev.get F.STAG_STATUS_ON_BYCLK = 0 ∧ s.dev.arr = 0 ∧ s.dev.cfg F.FOX_CTRL_SRC_EN = 16) :=
  ⟨⟨st (up.efw R.STAG_SL_DIV 0x40000000 |>.put F.GLB_MODE_STATUS_CUR_MODE 5 |>.given F.FOX_CTRL_SRC_EN 2), ⟨rfl, rfl, rfl, rfl, rfl⟩,
      by decide +kernel⟩,
   ⟨st (up.efw R.STAG_SL_DIV 0x40000000 |>.put F.GLB_MODE_STATUS_CUR_MODE 1 |>.given F.FOX_CTRL_SRC_EN 16), ⟨rfl, rfl, rfl, rfl, rfl⟩,
       by decide +kernel⟩⟩

theorem witness_ClockRecovery :
    (∃ (s : State) (n : Fin 4), s.dev.Up ∧ 4 ≤ sdecProto s.dev n ∧ sdecDecodes s.dev n = true) ∧
    (∃ (s : State) (n : Fin 4), s.dev.Up ∧ s.dev.get (F.SDEC_d_STATUS_CDR_LOCK n) = 1) :=
  ⟨⟨st (up.given (F.SDEC_d_CFG_PROTO 3) 7 |>.given (F.SDEC_d_CFG_LINE0 3) 0 |>.put (F.SDEC_d_STATUS_STATE 3) 1 |>.put F.GLB_MODE_STATUS_CUR_MODE 3),
      3, ⟨rfl, rfl, rfl, rfl, rfl⟩, by decide +kernel⟩,
   ⟨st (up.put (F.SDEC_d_STATUS_CDR_LOCK 0) 1), 0, ⟨rfl, rfl, rfl, rfl, rfl⟩, by decide +kernel⟩⟩

theorem witness_VectorIsDelivered : ∃ (s : State) (inp : Fin 4) (k0 : Int) (xs : List Sample), s.dev.Up ∧
    vectorDue inp k0 xs.length s.dev = true ∧ s.dev.armed = false ∧ trimsWaiting s.dev = false ∧
    (s.dev.fox.vec.get inp = [] ∨ (s.dev.fox.vec.get inp).length = 264) :=
  ⟨st ({ up with fox := { vecK := 256 } }.put F.GLB_MODE_STATUS_CUR_MODE 1 |>.put F.STAG_STATUS_SL_LOCK 1), 0, 256, List.replicate 256 ⟨5,
      false⟩, ⟨rfl, rfl, rfl, rfl, rfl⟩, by decide +kernel⟩

theorem witness_UnitsClose :
    (∃ (s : State) (u : CapUnit), s.dev.Up ∧ s.dev.cap.unit = some u ∧ u.kind = .record ∧ u.mode = mSingle ∧ u.hold = false ∧
        u.keep = true ∧ u.need ≤ u.indexOf s.dev.cap.have ∧ trimsWaiting s.dev = false) ∧
    (∃ (s : State) (u : CapUnit), s.dev.Up ∧ s.dev.cap.unit = some u ∧ u.kind = .block ∧ u.mode = mStream ∧ s.dev.cap.mode = mStream ∧
        s.dev.cap.nextInputs = none ∧ u.hold = false ∧ u.keep = true ∧ u.start + u.need ≤ s.dev.cap.have ∧ trimsWaiting s.dev = false) :=
  ⟨⟨st { up with cap := { unit := some (unit .record mSingle), inputs := [3], stored := Vector.replicate 4 300 } }, unit .record mSingle,
      ⟨rfl, rfl, rfl, rfl, rfl⟩, by decide +kernel⟩,
   ⟨st { up with cap := { unit := some (unit .block mStream), inputs := [3], stored := Vector.replicate 4 300, mode := mStream } },
       unit .block mStream, ⟨rfl, rfl, rfl, rfl, rfl⟩, by decide +kernel⟩⟩

theorem witness_BodyBurstStores :
    (∃ (s : State) (u : CapUnit) (us : List CapUnit), s.dev.Up ∧ s.dev.cap.moving = u :: us ∧ u.closed = true ∧
        ringHolds s.dev u = false ∧ (u.bursts ≠ 0 ∨ u.hdrAddr ∉ s.dev.cap.written) ∧
        u.bursts < u.inputs.length * bodyBursts u.mode u.samples) ∧
    (∃ (s : State) (u : CapUnit) (us : List CapUnit), s.dev.Up ∧ s.dev.cap.moving = u :: us ∧ u.closed = true ∧ ringHolds s.dev u = true ∧
        u.bursts < u.inputs.length * bodyBursts u.mode u.samples) :=
  ⟨⟨st { up with cap := { moving := [{ unit .record mSingle with samples := 1200, bursts := 24, closed := true }] } },
      { unit .record mSingle with samples := 1200, bursts := 24, closed := true }, [], ⟨rfl, rfl, rfl, rfl, rfl⟩, by decide +kernel⟩,
   ⟨st ({ up with cap := { moving := [{ unit .block mStream with samples := 1200, bursts := 24, closed := true, ringCount := 2 }] } }.given F.CAP_CTRL_RING_POLICY 0),
       { unit .block mStream with samples := 1200, bursts := 24, closed := true, ringCount := 2 }, [], ⟨rfl, rfl, rfl, rfl, rfl⟩,
       by decide +kernel⟩⟩

theorem witness_HeadersWritten :
    (∃ (s : State) (u : CapUnit) (us : List CapUnit), s.dev.Up ∧ s.dev.cap.moving = u :: us ∧ u.kind = .record ∧ u.closed = true ∧
        u.inputs.length * bodyBursts u.mode u.samples ≤ u.bursts) ∧
    (∃ (s : State) (u : CapUnit) (us : List CapUnit), s.dev.Up ∧ s.dev.cap.moving = [] ∧ s.dev.cap.heads = u :: us ∧ u.kind = .record) ∧
    (∃ (s : State) (a : AcqAcc) (rest : List AcqAcc), s.dev.Up ∧ s.dev.cap.ended = a :: rest ∧ a.segments = 0 ∧ a.hdrOk = true ∧
        (∀ u ∈ s.dev.cap.moving ++ s.dev.cap.unit.toList, u.acq ≠ a.num) ∧ s.dev.sealing.on = false) :=
  ⟨⟨st { up with cap := { moving := [{ unit .record mSingle with samples := 1200, bursts := 25, closed := true }] } },
      { unit .record mSingle with samples := 1200, bursts := 25, closed := true }, [], ⟨rfl, rfl, rfl, rfl, rfl⟩, by decide +kernel⟩,
   ⟨st { up with cap := { heads := [unit .record mSingle] } }, unit .record mSingle, [], ⟨rfl, rfl, rfl, rfl, rfl⟩, by decide +kernel⟩,
   ⟨st { up with cap := { ended := [{ num := 4 }], moving := [unit .record mSingle] } }, { num := 4 }, [], ⟨rfl, rfl, rfl, rfl, rfl⟩,
       by decide +kernel⟩⟩

theorem witness_CaptureResumes :
    (∃ (s : State), s.dev.Up ∧ s.dev.cap.full = true ∧ keptBytes s.dev + 0x400000 ≤ 0x4000000) ∧
    (∃ (s : State), s.dev.Up ∧ 0x4000000 < keptBytes s.dev + 0x400000) :=
  ⟨⟨st { up with cap := { full := true } }, ⟨rfl, rfl, rfl, rfl, rfl⟩, by decide +kernel⟩,
   ⟨st { up with cap := { moving := [{ unit .block mFine with samples := 32000000, closed := true }] } }, ⟨rfl, rfl, rfl, rfl, rfl⟩,
       by decide +kernel⟩⟩

theorem witness_ReductionBlocks :
    (∃ (s : State) (p : Fin 4), s.dev.Up ∧ s.dev.cfg (F.RED_p_CFG_MEM p) = 0 ∧ blockFull s.dev p = true ∧
        (s.dev.red.get p).ready.length < 2) ∧
    (∃ (s : State) (p : Fin 4), s.dev.Up ∧ s.dev.cfg (F.RED_p_CFG_MEM p) = 0 ∧ blockFull s.dev p = true ∧
        2 ≤ (s.dev.red.get p).ready.length ∧ (s.dev.rd64 (R.RED_p_LOST_LO p)) < 2 ^ 63 ∧
        (pipeCfg s.dev p).capacity * (pipeCfg s.dev p).decim < 2 ^ 63) :=
  ⟨⟨st { up with red := Vector.replicate 4 { vals := List.replicate 100000 ⟨0, false, 9, 9, 0, 0, 0⟩ } }, 3, ⟨rfl, rfl, rfl, rfl, rfl⟩,
      by decide +kernel,
      by show decide (_ ≤ (List.replicate 100000 (⟨0, false, 9, 9, 0, 0, 0⟩ : RedOut)).length) = true; rw [List.length_replicate]; decide +kernel, by decide +kernel⟩,
   ⟨st { up with red := Vector.replicate 4 { vals := List.replicate 100000 ⟨0, false, 9, 9, 0, 0, 0⟩, ready := [⟨0, [], 0, false⟩, ⟨0, [], 0, false⟩] } },
       0, ⟨rfl, rfl, rfl, rfl, rfl⟩, by decide +kernel,
       by show decide (_ ≤ (List.replicate 100000 (⟨0, false, 9, 9, 0, 0, 0⟩ : RedOut)).length) = true; rw [List.length_replicate]; decide +kernel, by decide +kernel⟩⟩

theorem witness_ReductionJobs :
    (∃ (s : State) (p : Fin 4) (b : RedBlock) (bs : List RedBlock), s.dev.Up ∧ (s.dev.red.get p).ready = b :: bs ∧
        s.dev.cfg (F.RED_p_DST_KIND p) = 2) ∧
    (∃ (s : State) (p : Fin 4) (b : RedBlock) (bs : List RedBlock) (x : DmaDesc) (n : Fin 32), s.dev.Up ∧
        (s.dev.red.get p).ready = b :: bs ∧ s.dev.cfg (F.RED_p_DST_KIND p) = 0 ∧ n.val = s.dev.cfg (F.RED_p_DST_CHAN p) ∧
        s.dev.badger.outQ = [] ∧ (s.dev.beaver.chans.get n).desc = some x ∧ x.feed = true ∧ (s.dev.beaver.chans.get n).wb = none ∧
        (s.dev.beaver.chans.get n).block = none ∧ b.bytes.length ≤ x.dstLen) ∧
    (∃ (s : State) (p : Fin 4), s.dev.Up ∧ s.dev.unitState (.red p) ≠ stOff) ∧
    (∃ (s : State) (p : Fin 4), s.dev.Up ∧ s.dev.unitState (.red p) = stOff ∧ s.dev.cfgc.latched = [] ∧
        s.dev.cfg (F.RED_p_CFG_MEM p) = 1 ∧ s.dev.cfg (F.RED_p_CFG_EN p) = 1 ∧ isCapture s.dev.mode = true ∧ s.dev.mode ≠ mFine ∧
        (pipeCost (pipeCfg s.dev p)).1 ≤ 32 * (pipeCost (pipeCfg s.dev p)).2 ∧
        (rangeRegion s.dev (s.dev.cf64 (R.RED_p_MEM_ADDR_LO p)) (max 1 (4 * divUp (s.dev.cf64 (R.RED_p_MEM_COUNT_LO p)) 3))).isSome =
        true) ∧
    (∃ (s : State) (p : Fin 4), s.dev.Up ∧ s.dev.unitState (.red p) = stOn) ∧
    (∃ (s : State) (p : Fin 4), s.dev.Up ∧ s.dev.cfg (F.RED_p_CFG_MEM p) = 1 ∧ s.dev.mode ≠ mFine ∧ (s.dev.red.get p).running = true ∧
        s.dev.cf64 (R.RED_p_MEM_COUNT_LO p) ≤ (s.dev.red.get p).memK ∧ (s.dev.red.get p).vals = [] ∧ (s.dev.red.get p).ready = []) :=
  ⟨⟨st ({ up with red := Vector.replicate 4 { ready := [⟨0, [], 0, false⟩] } }.given (F.RED_p_DST_KIND 3) 2), 3, ⟨0, [], 0, false⟩, [],
      ⟨rfl, rfl, rfl, rfl, rfl⟩, by decide +kernel⟩,
   ⟨st (({ channel { desc := some { desc with ctrl := 2 ^ 31 + 2 ^ 26 } } with red := Vector.replicate 4 { ready := [⟨0, [5], 0, false⟩] } }).given (F.RED_p_DST_KIND 3) 0 |>.given (F.RED_p_DST_CHAN 3) 31),
       3, ⟨0, [5], 0, false⟩, [], { desc with ctrl := 2 ^ 31 + 2 ^ 26 }, 31, ⟨rfl, rfl, rfl, rfl, rfl⟩, by decide +kernel⟩,
   ⟨st (up.setUnit (.red 3) stOn), 3, ⟨rfl, rfl, rfl, rfl, rfl⟩, by decide +kernel⟩,
   ⟨st (up.given (F.RED_p_CFG_MEM 3) 1 |>.given (F.RED_p_CFG_EN 3) 1 |>.put F.GLB_MODE_STATUS_CUR_MODE 3 |>.efw (R.RED_p_MEM_ADDR_LO 3) 0x30200000 |>.efw (R.RED_p_MEM_ADDR_LO 3 + 4) 0xF000 |>.efw (R.RED_p_MEM_COUNT_LO 3) 3000),
       3, ⟨rfl, rfl, rfl, rfl, rfl⟩, by decide +kernel⟩,
   ⟨st (up.setUnit (.red 0) stOn), 0, ⟨rfl, rfl, rfl, rfl, rfl⟩, by decide +kernel⟩,
   ⟨st ({ up with red := Vector.replicate 4 { running := true, memK := 3000 } }.given (F.RED_p_CFG_MEM 3) 1 |>.efw (R.RED_p_MEM_COUNT_LO 3) 3000),
       3, ⟨rfl, rfl, rfl, rfl, rfl⟩, by decide +kernel⟩⟩

theorem witness_StackFolds : ∃ (s : State) (u : CapUnit) (i : Nat), s.dev.Up ∧ s.dev.stk.fold = some u ∧ u.inputs = [i] ∧ 0 < u.samples ∧
    4 * u.samples ≤ 0x1000000 ∧ s.dev.cfg F.STK_CTRL_SUM = 1 ∧ s.dev.cfg F.STK_CTRL_ENV = 0 ∧ s.dev.cfg F.STK_CTRL_HIST = 0 ∧
    s.dev.ddr.span ≤ dramEnd ∧ s.dev.stk.clearReq = false ∧ stkCount s.dev + 1 < 2 ^ 32 :=
  ⟨st ({ up with stk := { fold := some { unit .record mStack with samples := 40 } } }.given F.STK_CTRL_SUM 1 |>.given F.STK_CTRL_ENV 0 |>.given F.STK_CTRL_HIST 0),
      { unit .record mStack with samples := 40 }, 3, ⟨rfl, rfl, rfl, rfl, rfl⟩, by decide +kernel⟩

theorem witness_StackClears :
    (∃ (s : State), s.dev.Up ∧ s.dev.stk.fold = none ∧ s.dev.mode ≠ mStack) ∧
    (∃ (s : State), s.dev.Up ∧ s.dev.stk.clearing = true) ∧
    (∃ (s : State), s.dev.Up ∧ s.dev.unitState .stk = stOn) :=
  ⟨⟨st up, ⟨rfl, rfl, rfl, rfl, rfl⟩, by decide +kernel⟩,
   ⟨st { up with stk := { clearing := true } }, ⟨rfl, rfl, rfl, rfl, rfl⟩, by decide +kernel⟩,
   ⟨st (up.setUnit .stk stOn), ⟨rfl, rfl, rfl, rfl, rfl⟩, by decide +kernel⟩⟩

theorem witness_AqsIssuesOnlyItsWord :
    (∃ (s : State) (i : Instr) (n : Fin 8) (w : Word), aqsContext i = some n ∧ aqsEncode i = some w ∧ issues s.dev n w = false) ∧
    (∃ (s : State) (n : Fin 8) (i : Instr) (x : Ctx), s.dev.Up ∧ s.dev.Issues n i ∧ (s.dev.ctx n).pc = lastPc ∧
        arithmetic (s.dev.ctx n) i = some x) :=
  ⟨⟨st up, .halt 7, 7, 0xD4000000, by decide +kernel⟩,
   ⟨st (prog 7 (.nop 7) 524287), 7, .nop 7, (prog 7 (.nop 7) 524287).ctx 7, ⟨rfl, rfl, rfl, rfl, rfl⟩,
       by unfold Dev.Issues; decide +kernel, by decide +kernel⟩⟩

theorem witness_AqsArithmetic : ∃ (s : State) (n : Fin 8) (i : Instr) (x : Ctx), s.dev.Up ∧ s.dev.Issues n i ∧ (s.dev.ctx n).pc ≠ lastPc ∧
    arithmetic (s.dev.ctx n) i = some x :=
  ⟨st (prog 7 (.nop 7)), 7, .nop 7, _, ⟨rfl, rfl, rfl, rfl, rfl⟩, by unfold Dev.Issues; decide +kernel, by decide +kernel, rfl⟩

theorem witness_AqsControlTransfer :
    (∃ (s : State) (n : Fin 8) (cond : BitVec 4) (imm : BitVec 22) (taken : Bool) (t : BitVec 19), s.dev.Up ∧
        s.dev.Issues n (.br n cond imm) ∧ condition (s.dev.ctx n) cond = some taken ∧
        (t.toNat : Int) = (s.dev.ctx n).pc.toNat + imm.toInt ∧ (taken = true ∨ (s.dev.ctx n).pc ≠ lastPc)) ∧
    (∃ (s : State) (n : Fin 8) (cond : BitVec 4) (imm : BitVec 22), s.dev.Up ∧ s.dev.Issues n (.br n cond imm) ∧ cond ≠ 15 ∧
        (((s.dev.ctx n).pc.toNat : Int) + imm.toInt < 0 ∨ 524287 < ((s.dev.ctx n).pc.toNat : Int) + imm.toInt)) ∧
    (∃ (s : State) (n : Fin 8) (imm : BitVec 22) (t : BitVec 19), s.dev.Up ∧ s.dev.Issues n (.call n imm) ∧ (s.dev.ctx n).pc ≠ lastPc ∧
        (t.toNat : Int) = (s.dev.ctx n).pc.toNat + imm.toInt) ∧
    (∃ (s : State) (n : Fin 8) (st : List (BitVec 19)) (t : BitVec 19), s.dev.Up ∧ s.dev.Issues n (.ret n) ∧
        (s.dev.ctx n).stack = st ++ [t]) ∧
    (∃ (s : State) (n : Fin 8), s.dev.Up ∧ s.dev.Issues n (.ret n) ∧ (s.dev.ctx n).stack = []) ∧
    (∃ (s : State) (n : Fin 8) (a : Fin 16), s.dev.Up ∧ s.dev.Issues n (.jr n a)) ∧
    (∃ (s : State) (n : Fin 8) (g : Fin 16) (imm : BitVec 22) (t : BitVec 19), s.dev.Up ∧ s.dev.Issues n (.loop n g imm) ∧
        (s.dev.ctx n).pc ≠ lastPc ∧ (t.toNat : Int) = (s.dev.ctx n).pc.toNat + imm.toInt) :=
  ⟨⟨st (prog 7 (.br 7 14 0x3FFFFF) 1), 7, 14, 0x3FFFFF, true, 0, ⟨rfl, rfl, rfl, rfl, rfl⟩,
      by unfold Dev.Issues; decide +kernel, by decide +kernel⟩,
   ⟨st (prog 0 (.br 0 0 0x3FFFFF)), 0, 0, 0x3FFFFF, ⟨rfl, rfl, rfl, rfl, rfl⟩, by unfold Dev.Issues; decide +kernel, by decide +kernel⟩,
   ⟨st (prog 0 (.call 0 1) 524286), 0, 1, 524287, ⟨rfl, rfl, rfl, rfl, rfl⟩, by unfold Dev.Issues; decide +kernel, by decide +kernel⟩,
   ⟨st ((prog 0 (.ret 0)).setCtx 0 { (prog 0 (.ret 0)).ctx 0 with stack := [9, 524287] }), 0, [9], 524287, ⟨rfl, rfl, rfl, rfl, rfl⟩,
       by unfold Dev.Issues; decide +kernel, by decide +kernel⟩,
   ⟨st (prog 0 (.ret 0)), 0, ⟨rfl, rfl, rfl, rfl, rfl⟩, by unfold Dev.Issues; decide +kernel, by decide +kernel⟩,
   ⟨st (prog 0 (.jr 0 15)), 0, 15, ⟨rfl, rfl, rfl, rfl, rfl⟩, by unfold Dev.Issues; decide +kernel⟩,
   ⟨st (prog 0 (.loop 0 15 0)), 0, 15, 0, 0, ⟨rfl, rfl, rfl, rfl, rfl⟩, by unfold Dev.Issues; decide +kernel, by decide +kernel⟩⟩

theorem witness_AqsMemoryAccess :
    (∃ (s : State) (n : Fin 8) (g : Fin 16) (a : Fin 16) (imm : BitVec 18), ∃ p, p ∈ [(Instr.ld n g a imm, 8), (Instr.ldw n g a imm, 4)] ∧
        s.dev.Up ∧ s.dev.Issues n p.1 ∧ (s.dev.ctx n).pc ≠ lastPc ∧
        (regionOf s.dev ((s.dev.ctx n).address a imm) = some .data ∨ regionOf s.dev ((s.dev.ctx n).address a imm) = some .program) ∧
        (s.dev.ctx n).address a imm % p.2 = 0) ∧
    (∃ (s : State) (n : Fin 8) (g : Fin 16) (a : Fin 16) (imm : BitVec 18), ∃ p, p ∈ [(Instr.st n g a imm, 8), (Instr.stw n g a imm, 4)] ∧
        s.dev.Up ∧ s.dev.Issues n p.1 ∧ (s.dev.ctx n).pc ≠ lastPc ∧ regionOf s.dev ((s.dev.ctx n).address a imm) = some .data ∧
        (s.dev.ctx n).address a imm % p.2 = 0) ∧
    (∃ (s : State) (n : Fin 8) (g : Fin 16) (a : Fin 16) (imm : BitVec 18), ∃ p, p ∈ [(Instr.ld n g a imm, 8), (Instr.ldw n g a imm, 4),
        (Instr.st n g a imm, 8), (Instr.stw n g a imm, 4)] ∧ s.dev.Up ∧ s.dev.Issues n p.1 ∧ (s.dev.ctx n).pc ≠ lastPc ∧
        s.dev.ddr.span ≤ dramEnd ∧ (s.dev.ctx n).address a imm < dramEnd ∧ s.dev.ddr.span ≤ (s.dev.ctx n).address a imm) ∧
    (∃ (s : State) (n : Fin 8) (g : Fin 16) (a : Fin 16) (imm : BitVec 18), ∃ p, p ∈ [(Instr.ld n g a imm, 8), (Instr.ldw n g a imm, 4),
        (Instr.st n g a imm, 8), (Instr.stw n g a imm, 4)] ∧ s.dev.Up ∧ s.dev.Issues n p.1 ∧ (s.dev.ctx n).pc ≠ lastPc ∧
        s.dev.ddr.span ≤ dramEnd ∧ regionOf s.dev ((s.dev.ctx n).address a imm) ≠ none ∧ (s.dev.ctx n).address a imm < 2 ^ 48 ∧
        (s.dev.ctx n).address a imm % p.2 ≠ 0) ∧
    (∃ (s : State) (n : Fin 8) (g : Fin 16) (a : Fin 16) (imm : BitVec 18), s.dev.Up ∧ s.dev.Issues n (.st n g a imm) ∧
        (s.dev.ctx n).pc ≠ lastPc ∧ (s.dev.ctx n).address a imm % 8 = 0 ∧ regionOf s.dev ((s.dev.ctx n).address a imm) = some .program) ∧
    (∃ (s : State) (n : Fin 8) (g : Fin 16) (a : Fin 16) (imm : BitVec 18), s.dev.Up ∧ s.dev.Issues n (.ld n g a imm) ∧
        (s.dev.ctx n).pc ≠ lastPc ∧ (s.dev.ctx n).address a imm % 8 = 0 ∧ (s.dev.ctx n).address a imm < s.dev.ddr.span ∧
        s.dev.ddr.span ≤ dramEnd) ∧
    (∃ (s : State) (n : Fin 8) (g : Fin 16) (a : Nat), s.dev.Up ∧ (s.dev.ctx n).run = .running ∧ (s.dev.ctx n).single = false ∧
        (s.dev.ctx n).late = none ∧ (s.dev.ctx n).busy = .fabric .ld g a ∧
        (regionOf s.dev a = some .stk ∨ regionOf s.dev a = some .badger ∨ regionOf s.dev a = some .table) ∧ noHole s.dev a 8 = true) ∧
    (∃ (s : State) (n : Fin 8) (g : Fin 16) (op : MemOp) (v : Word64), s.dev.Up ∧ (s.dev.ctx n).run = .running ∧
        (s.dev.ctx n).single = false ∧ (s.dev.ctx n).late = none ∧ (s.dev.ctx n).busy = .answered op g v) ∧
    (∃ (s : State) (n : Fin 8) (g : Fin 16) (op : MemOp) (a : Nat), s.dev.Up ∧ (s.dev.ctx n).busy = .fabric op g a) ∧
    (∃ (s : State) (n : Fin 8) (g : Fin 16) (a : Fin 16) (b : Fin 16), s.dev.Up ∧ s.dev.Issues n (.fadd n g a b) ∧
        (s.dev.ctx n).pc ≠ lastPc ∧ regionOf s.dev ((s.dev.ctx n).reg a).toNat = some .data ∧ ((s.dev.ctx n).reg a).toNat % 8 = 0) :=
  ⟨⟨st ((prog 7 (.ld 7 2 1 0x1FFFF)).withReg 7 1 (dataBase + 1)), 7, 2, 1, 0x1FFFF, (.ld 7 2 1 0x1FFFF, 8),
      by decide, ⟨rfl, rfl, rfl, rfl, rfl⟩, by unfold Dev.Issues; decide +kernel, by decide +kernel⟩,
   ⟨st ((prog 7 (.stw 7 2 1 0)).withReg 7 1 (dataBase + 0x1FFFFC)), 7, 2, 1, 0, (.stw 7 2 1 0, 4),
       by decide, ⟨rfl, rfl, rfl, rfl, rfl⟩, by unfold Dev.Issues; decide +kernel, by decide +kernel⟩,
   ⟨st (prog 7 (.ld 7 2 1 0)), 7, 2, 1, 0, (.ld 7 2 1 0, 8),
       by decide, ⟨rfl, rfl, rfl, rfl, rfl⟩, by unfold Dev.Issues; decide +kernel, by decide +kernel⟩,
   ⟨st ((prog 7 (.ld 7 2 1 0)).withReg 7 1 (dataBase + 1)), 7, 2, 1, 0, (.ld 7 2 1 0, 8),
       by decide, ⟨rfl, rfl, rfl, rfl, rfl⟩, by unfold Dev.Issues; decide +kernel, by decide +kernel⟩,
   ⟨st ((prog 7 (.st 7 2 1 0)).withReg 7 1 programBase), 7, 2, 1, 0, ⟨rfl, rfl, rfl, rfl, rfl⟩,
       by unfold Dev.Issues; decide +kernel, by decide +kernel⟩,
   ⟨st { prog 7 (.ld 7 2 1 0) with ddr := { span := 4096 } }, 7, 2, 1, 0, ⟨rfl, rfl, rfl, rfl, rfl⟩,
       by unfold Dev.Issues; decide +kernel, by decide +kernel⟩,
   ⟨st (inProgress 7 (.fabric .ld 2 (tableBase + 8))), 7, 2, tableBase + 8, ⟨rfl, rfl, rfl, rfl, rfl⟩, by decide +kernel⟩,
   ⟨st (inProgress 7 (.answered .ldw 15 5)), 7, 15, .ldw, 5, ⟨rfl, rfl, rfl, rfl, rfl⟩, by decide +kernel⟩,
   ⟨st (inProgress 7 (.fabric .stw 2 4096)), 7, 2, .stw, 4096, ⟨rfl, rfl, rfl, rfl, rfl⟩, by decide +kernel⟩,
   ⟨st ((prog 7 (.fadd 7 1 2 3)).withReg 7 2 (dataBase + 0x1FFFF8)), 7, 1, 2, 3, ⟨rfl, rfl, rfl, rfl, rfl⟩,
       by unfold Dev.Issues; decide +kernel, by decide +kernel⟩⟩

theorem witness_AqsRegisterBus :
    (∃ (s : State) (n : Fin 8) (g : Fin 16) (a : Fin 16) (imm : BitVec 18) (blk : BitVec 5) (woff : BitVec 17), ∃ p,
        p ∈ [(Instr.csrr n g blk woff, blk.toNat * 0x100000 + 4 * woff.toNat), (Instr.csrri n g a imm, (s.dev.ctx n).address a imm)] ∧
        s.dev.Up ∧ s.dev.Issues n p.1 ∧ (s.dev.ctx n).pc ≠ lastPc) ∧
    (∃ (s : State) (n : Fin 8) (g : Fin 16), s.dev.Up ∧ (s.dev.ctx n).run = .running ∧ (s.dev.ctx n).single = false ∧
        (s.dev.ctx n).late = none ∧ (s.dev.ctx n).busy = .csr R.CFGC_SEQ g ∧ s.dev.aqs.posted = [] ∧ s.dev.aqs.urgent = []) ∧
    (∃ (s : State) (n : Fin 8) (g : Fin 16) (a : Nat) (r : RegRow) (ix : List Nat), s.dev.Reaches (.ctx n) a ∧ findReg a = some (r, ix) ∧
        r.part = .single ∧ (s.dev.ctx n).run = .running ∧ (s.dev.ctx n).single = false ∧ (s.dev.ctx n).late = none ∧
        (s.dev.ctx n).busy = .csr a g ∧ s.dev.aqs.posted = [] ∧ s.dev.aqs.urgent = []) ∧
    (∃ (s : State) (n : Fin 8) (g : Fin 16) (a : Fin 16) (imm : BitVec 18) (blk : BitVec 5) (woff : BitVec 17) (how : Bool) (wake : Bool) (arr : BitVec 2) (m : BitVec 3),
        ∃ p, p ∈ [(Instr.csrw n g blk woff, blk.toNat * 0x100000 + 4 * woff.toNat, ((s.dev.ctx n).reg g).toNat), (Instr.csrwi n g a imm,
        (s.dev.ctx n).address a imm, ((s.dev.ctx n).reg g).toNat), (Instr.arm n, R.FOX_ARM, 1), (Instr.disarm n, R.FOX_ARM, 2),
        (Instr.force n, R.FOX_ARM, 4), (Instr.mode n how wake arr m, R.GLB_MODE,
        how.toNat * 512 + wake.toNat * 256 + arr.toNat * 16 + m.toNat)] ∧ s.dev.Up ∧ s.dev.Issues n p.1 ∧ (s.dev.ctx n).pc ≠ lastPc ∧
        p.2.1 < 0x1600000 ∧ p.2.1 % 4 = 0) ∧
    (∃ (s : State) (n : Fin 8) (v : Word) (pc : BitVec 19), s.dev.Up ∧ s.dev.aqs.posted = [⟨n, R.GLB_EVQ_MASK, v, pc⟩] ∧
        s.dev.aqs.urgent = []) ∧
    (∃ (s : State) (n : Fin 8) (b : Fin 22) (a : Nat) (r : RegRow) (ix : List Nat) (v : Word) (pc : BitVec 19), s.dev.Reaches (.ctx n) a ∧
        findReg a = some (r, ix) ∧ r.plain = true ∧ a / 0x100000 = b.val ∧ s.dev.aqs.posted = [⟨n, a, v, pc⟩] ∧ s.dev.aqs.urgent = []) ∧
    (∃ (s : State) (n : Fin 8) (g : Fin 16) (a : Nat), s.dev.Up ∧ (s.dev.ctx n).busy = .csr a g) ∧
    (∃ (s : State) (n : Fin 8) (block : Fin 22) (a : Nat) (v : Word) (pc : BitVec 19), s.dev.Up ∧ s.dev.aqs.posted = [⟨n, a, v, pc⟩] ∧
        a / 0x100000 = block.val ∧ (s.dev.ctx n).busy = .idle) ∧
    (∃ (s : State) (n : Fin 8) (block : Fin 22) (a : Nat) (v : Word) (pc : BitVec 19), s.dev.Up ∧ s.dev.aqs.posted = [⟨n, a, v, pc⟩] ∧
        a / 0x100000 = block.val ∧ (s.dev.ctx n).busy ≠ .idle ∧ (s.dev.ctx n).run = .running ∧ (s.dev.ctx n).late = none) ∧
    (∃ (s : State) (n : Fin 8) (g : Fin 16) (pc : BitVec 19), s.dev.Up ∧ (s.dev.ctx n).run = .running ∧ (s.dev.ctx n).single = false ∧
        (s.dev.ctx n).late = some pc ∧ (s.dev.ctx n).busy = .csr R.CFGC_SEQ g ∧ s.dev.aqs.posted = [] ∧ s.dev.aqs.urgent = []) :=
  ⟨⟨st (prog 7 (.csrr 7 1 31 0x1FFFF)), 7, 1, 0, 0, 31, 0x1FFFF, _, List.mem_cons_self, ⟨rfl, rfl, rfl, rfl, rfl⟩,
      by unfold Dev.Issues; decide +kernel, by decide +kernel⟩,
   ⟨st (inProgress 7 (.csr R.CFGC_SEQ 15)), 7, 15, ⟨rfl, rfl, rfl, rfl, rfl⟩, by decide +kernel⟩,
   ⟨st (inProgress 7 (.csr R.GLB_EVQ_LOST 15)), 7, 15, R.GLB_EVQ_LOST, (row R.GLB_EVQ_LOST).1, (row R.GLB_EVQ_LOST).2, ⟨⟨rfl, rfl, rfl,
       rfl, rfl⟩, by decide +kernel⟩, by decide +kernel⟩,
   ⟨st (prog 7 (.csrw 7 1 21 0x1FFFF)), 7, 1, 0, 0, 21, 0x1FFFF, false, false, 0, 0, _, List.mem_cons_self, ⟨rfl, rfl, rfl, rfl, rfl⟩,
       by unfold Dev.Issues; decide +kernel, by decide +kernel⟩,
   ⟨st { up with aqs := { posted := [⟨7, R.GLB_EVQ_MASK, 5, 9⟩] } }, 7, 5, 9, ⟨rfl, rfl, rfl, rfl, rfl⟩, by decide +kernel⟩,
   ⟨st { up with aqs := { posted := [⟨7, 0x2C, 5, 9⟩] } }, 7, 0, 0x2C, (row 0x2C).1, (row 0x2C).2, 5, 9, ⟨⟨rfl, rfl, rfl, rfl, rfl⟩,
       by decide +kernel⟩, by decide +kernel⟩,
   ⟨st (inProgress 7 (.csr 4 2)), 7, 2, 4, ⟨rfl, rfl, rfl, rfl, rfl⟩, by decide +kernel⟩,
   ⟨st { up with aqs := { posted := [⟨7, 0x1500000, 5, 9⟩] } }, 7, 21, 0x1500000, 5, 9, ⟨rfl, rfl, rfl, rfl, rfl⟩, by decide +kernel⟩,
   ⟨st { inProgress 7 (.csr 4 2) with aqs := { (inProgress 7 (.csr 4 2)).aqs with posted := [⟨7, 0x1500000, 5, 9⟩] } }, 7, 21, 0x1500000,
       5, 9, ⟨rfl, rfl, rfl, rfl, rfl⟩, by decide +kernel⟩,
   ⟨st ((inProgress 7 (.csr R.CFGC_SEQ 15)).setCtx 7 { (inProgress 7 (.csr R.CFGC_SEQ 15)).ctx 7 with late := some 9 }), 7, 15, 9, ⟨rfl,
       rfl, rfl, rfl, rfl⟩, by decide +kernel⟩⟩

theorem witness_AqsConfigurationAndDma :
    (∃ (s : State) (n : Fin 8) (g : Fin 16) (a : Fin 16) (ch : Fin 32) (q : Fin 8), ∃ p, p ∈ [(Instr.cfgl n g a,
        Busy.cfgl g ((s.dev.ctx n).reg a).toNat), (Instr.dmaq n g a ch, Busy.dmaq g ((s.dev.ctx n).reg a) ch), (Instr.lyq n g a q,
        Busy.lyq g a q)] ∧ s.dev.Up ∧ s.dev.Issues n p.1 ∧ (s.dev.ctx n).pc ≠ lastPc) ∧
    (∃ (s : State) (n : Fin 8) (g : Fin 16) (a : Nat), s.dev.Up ∧ (s.dev.ctx n).run = .running ∧ (s.dev.ctx n).single = false ∧
        (s.dev.ctx n).late = none ∧ (s.dev.ctx n).busy = .cfgl g a ∧ s.dev.aqs.posted = [] ∧ a % 8 ≠ 0) ∧
    (∃ (s : State) (n : Fin 8) (g : Fin 16) (a : Nat), s.dev.Up ∧ (s.dev.ctx n).run = .running ∧ (s.dev.ctx n).single = false ∧
        (s.dev.ctx n).late = none ∧ (s.dev.ctx n).busy = .cfgl g a ∧ s.dev.aqs.posted = [] ∧ a % 8 = 0 ∧ regionOf s.dev a = some .data ∧
        regionOf s.dev (a + 23) = some .data ∧ s.dev.load (a + 4) 2 = 1 ∧ s.dev.load (a + 6) 2 = 0 ∧ s.dev.load (a + 8) 4 = 24 ∧
        s.dev.load (a + 16) 2 = R.FOX_SEQ_COUNT / 0x100000 ∧ s.dev.load (a + 18) 2 = R.FOX_SEQ_COUNT % 0x100000 / 4 ∧
        s.dev.load (a + 20) 4 ≠ 0 ∧ s.dev.cfgc.staged = []) ∧
    (∃ (s : State) (n : Fin 8) (g : Fin 16), s.dev.Up ∧ s.dev.Issues n (.commit n g) ∧ (s.dev.ctx n).pc ≠ lastPc ∧ s.dev.aqs.posted = [] ∧
        8 ≤ s.dev.cfgc.commits.length) ∧
    (∃ (s : State) (n : Fin 8) (g : Fin 16), s.dev.Up ∧ s.dev.Issues n (.commit n g) ∧ (s.dev.ctx n).pc ≠ lastPc ∧ s.dev.aqs.posted = [] ∧
        s.dev.cfgc.commits.length < 8) ∧
    (∃ (s : State) (n : Fin 8) (g : Fin 16) (head : Word64) (ch : Fin 32), s.dev.Up ∧ (s.dev.ctx n).run = .running ∧
        (s.dev.ctx n).single = false ∧ (s.dev.ctx n).late = none ∧ (s.dev.ctx n).busy = .dmaq g head ch ∧ s.dev.aqs.posted = [] ∧
        s.dev.aqs.urgent = [] ∧ handoverCode ch head.toNat s.dev = 0) ∧
    (∃ (s : State) (n : Fin 8) (q : Fin 8) (g : Fin 16) (a : Fin 16), s.dev.Up ∧ (s.dev.ctx n).run = .running ∧
        (s.dev.ctx n).single = false ∧ (s.dev.ctx n).late = none ∧ (s.dev.ctx n).busy = .lyq g a q ∧ s.dev.aqs.posted = [] ∧
        s.dev.aqs.urgent = [] ∧ (s.dev.lynx.get q).queue = []) ∧
    (∃ (s : State) (n : Fin 8) (q : Fin 8) (g : Fin 16) (a : Fin 16), ∃ w0, ∃ w1, ∃ rest, s.dev.Up ∧ (s.dev.ctx n).run = .running ∧
        (s.dev.ctx n).single = false ∧ (s.dev.ctx n).late = none ∧ (s.dev.ctx n).busy = .lyq g a q ∧ s.dev.aqs.posted = [] ∧
        s.dev.aqs.urgent = [] ∧ (s.dev.lynx.get q).queue = (w0, w1) :: rest) :=
  ⟨⟨st (prog 7 (.cfgl 7 1 2)), 7, 1, 2, 0, 0, _, List.mem_cons_self, ⟨rfl, rfl, rfl, rfl, rfl⟩,
      by unfold Dev.Issues; decide +kernel, by decide +kernel⟩,
   ⟨st (inProgress 7 (.cfgl 1 (dataBase + 4))), 7, 1, dataBase + 4, ⟨rfl, rfl, rfl, rfl, rfl⟩, by decide +kernel⟩,
   ⟨st ((inProgress 7 (.cfgl 1 dataBase)).storeBytes (dataBase + 4) ([1, 0, 0, 0, 24, 0, 0, 0, 0, 0, 0,
       0] ++ leBytes 2 (R.FOX_SEQ_COUNT / 0x100000) ++ leBytes 2 (R.FOX_SEQ_COUNT % 0x100000 / 4) ++ [9])), 7, 1, dataBase, ⟨rfl, rfl,
       rfl, rfl, rfl⟩, by decide +kernel⟩,
   ⟨st { prog 7 (.commit 7 2) with cfgc := { commits := List.replicate 8 ⟨1, [], []⟩ } }, 7, 2, ⟨rfl, rfl, rfl, rfl, rfl⟩,
       by unfold Dev.Issues; decide +kernel, by decide +kernel⟩,
   ⟨st { prog 7 (.commit 7 2) with cfgc := { commits := List.replicate 7 ⟨1, [], []⟩ } }, 7, 2, ⟨rfl, rfl, rfl, rfl, rfl⟩,
       by unfold Dev.Issues; decide +kernel, by decide +kernel⟩,
   ⟨st (inProgress 7 (.dmaq 2 64 31) |>.given (F.BEAVER_CH_n_CFG_EN 31) 1 |>.given F.BEAVER_CTRL_EN 1), 7, 2, 64, 31, ⟨rfl, rfl, rfl, rfl,
       rfl⟩, by decide +kernel⟩,
   ⟨st (inProgress 7 (.lyq 2 1 7)), 7, 7, 2, 1, ⟨rfl, rfl, rfl, rfl, rfl⟩, by decide +kernel⟩,
   ⟨st { inProgress 7 (.lyq 2 2 7) with lynx := Vector.replicate 8 { queue := [(3, 4)] } }, 7, 7, 2, 2, 3, 4, [], ⟨rfl, rfl, rfl, rfl,
       rfl⟩, by decide +kernel⟩⟩

theorem witness_AqsWaits :
    (∃ (s : State) (n : Fin 8) (g : Fin 16) (k : Fin 16) (mask : BitVec 16) (c : Instr), s.dev.Up ∧ mask.getLsbD k.val = true ∧
        ((s.dev.ctx n).watch.get k).cnt ≠ 0 ∧ (∀ j : Fin 16, j < k → mask.getLsbD j.val = true → ((s.dev.ctx n).watch.get j).cnt = 0) ∧
        ((∃ a, c = .wait n g a mask ∧ s.dev.Issues n c ∧ (s.dev.ctx n).pc ≠ lastPc) ∨ (∃ t, c = .waitWake n ∧
        (s.dev.ctx n).busy = .waitEv g mask t ∧ (s.dev.ctx n).run = .waiting ∧ (s.dev.ctx n).single = false))) ∧
    (∃ (s : State) (n : Fin 8) (g : Fin 16) (a : Fin 16) (mask : BitVec 16), s.dev.Up ∧ s.dev.Issues n (.wait n g a mask) ∧
        (s.dev.ctx n).pc ≠ lastPc ∧ (∀ j : Fin 16, mask.getLsbD j.val = true → ((s.dev.ctx n).watch.get j).cnt = 0)) ∧
    (∃ (s : State) (n : Fin 8) (g : Fin 16) (mask : BitVec 16) (t : Nat), s.dev.Up ∧ (s.dev.ctx n).busy = .waitEv g mask (some t) ∧
        (s.dev.ctx n).run = .waiting ∧ (s.dev.ctx n).single = false ∧ t ≤ s.dev.aqs.tick.toNat ∧ (∀ j : Fin 16,
        mask.getLsbD j.val = true → ((s.dev.ctx n).watch.get j).cnt = 0)) ∧
    (∃ (s : State) (n : Fin 8) (a : Fin 16) (rel : Bool), s.dev.Up ∧ s.dev.Issues n (.waitt n a rel) ∧ (s.dev.ctx n).pc ≠ lastPc) ∧
    (∃ (s : State) (n : Fin 8) (t : Nat), s.dev.Up ∧ (s.dev.ctx n).busy = .waitTick t ∧ (s.dev.ctx n).run = .waiting ∧
        (s.dev.ctx n).single = false) ∧
    (∃ (s : State) (n : Fin 8) (k : BitVec 22), s.dev.Up ∧ s.dev.Issues n (.waitc n k) ∧ (s.dev.ctx n).pc ≠ lastPc) ∧
    (∃ (s : State) (n : Fin 8) (k : Nat), s.dev.Up ∧ (s.dev.ctx n).busy = .waitCyc k ∧ (s.dev.ctx n).run = .waiting ∧
        (s.dev.ctx n).single = false) ∧
    (∃ (s : State) (n : Fin 8) (k : Fin 16) (ev : BitVec 12), s.dev.Up ∧ s.dev.Issues n (.wset n k ev) ∧ (s.dev.ctx n).pc ≠ lastPc) ∧
    (∃ (s : State) (n : Fin 8) (g : Fin 16) (sel : BitVec 2), s.dev.Up ∧ s.dev.Issues n (.evr n g sel) ∧ (s.dev.ctx n).pc ≠ lastPc) ∧
    (∃ (s : State) (n : Fin 8) (g : Fin 16), s.dev.Up ∧ s.dev.Issues n (.tsr n g) ∧ (s.dev.ctx n).pc ≠ lastPc) ∧
    (∃ (s : State) (n : Fin 8) (a : Fin 16) (sub : BitVec 8), s.dev.Up ∧ s.dev.Issues n (.emit n a sub) ∧ (s.dev.ctx n).pc ≠ lastPc) :=
  ⟨⟨st ((prog 7 (.wait 7 2 1 0x8000)).watching 7 15), 7, 2, 15, 0x8000, .wait 7 2 1 0x8000, ⟨rfl, rfl, rfl, rfl, rfl⟩,
      by decide, by decide +kernel, by decide +kernel, .inl ⟨1, rfl, by unfold Dev.Issues; decide +kernel, by decide +kernel⟩⟩,
   ⟨st (prog 7 (.wait 7 2 0 0xFFFF)), 7, 2, 0, 0xFFFF, ⟨rfl, rfl, rfl, rfl, rfl⟩, by unfold Dev.Issues; decide +kernel, by decide +kernel⟩,
   ⟨st (waits 7 (.waitEv 2 0xFFFF (some 0))), 7, 2, 0xFFFF, 0, ⟨rfl, rfl, rfl, rfl, rfl⟩, by decide +kernel⟩,
   ⟨st (prog 7 (.waitt 7 1 true)), 7, 1, true, ⟨rfl, rfl, rfl, rfl, rfl⟩, by unfold Dev.Issues; decide +kernel, by decide +kernel⟩,
   ⟨st (waits 7 (.waitTick 5)), 7, 5, ⟨rfl, rfl, rfl, rfl, rfl⟩, by decide +kernel⟩,
   ⟨st (prog 7 (.waitc 7 0x3FFFFF)), 7, 0x3FFFFF, ⟨rfl, rfl, rfl, rfl, rfl⟩, by unfold Dev.Issues; decide +kernel, by decide +kernel⟩,
   ⟨st (waits 7 (.waitCyc 0)), 7, 0, ⟨rfl, rfl, rfl, rfl, rfl⟩, by decide +kernel⟩,
   ⟨st (prog 7 (.wset 7 15 0xFFF)), 7, 15, 0xFFF, ⟨rfl, rfl, rfl, rfl, rfl⟩, by unfold Dev.Issues; decide +kernel, by decide +kernel⟩,
   ⟨st (prog 7 (.evr 7 4 3)), 7, 4, 3, ⟨rfl, rfl, rfl, rfl, rfl⟩, by unfold Dev.Issues; decide +kernel, by decide +kernel⟩,
   ⟨st (prog 7 (.tsr 7 4)), 7, 4, ⟨rfl, rfl, rfl, rfl, rfl⟩, by unfold Dev.Issues; decide +kernel, by decide +kernel⟩,
   ⟨st (prog 7 (.emit 7 4 255)), 7, 4, 255, ⟨rfl, rfl, rfl, rfl, rfl⟩, by unfold Dev.Issues; decide +kernel, by decide +kernel⟩⟩

theorem witness_AqsContextControl :
    (∃ (s : State) (n : Fin 8) (m : Fin 8) (a : Fin 16), s.dev.Up ∧ s.dev.Issues n (.start n m a) ∧ (s.dev.ctx n).pc ≠ lastPc ∧ m ≠ n ∧
        s.dev.sealedState = false ∧ ((s.dev.ctx n).reg a).toNat ≤ 524287) ∧
    (∃ (s : State) (n : Fin 8) (m : Fin 8), s.dev.Up ∧ s.dev.Issues n (.stop n m) ∧ (s.dev.ctx n).pc ≠ lastPc ∧ m ≠ n ∧
        (s.dev.ctx m).run = .waiting) ∧
    (∃ (s : State) (n : Fin 8), ∃ p, s.dev.Up ∧ (s.dev.ctx n).pc ≠ lastPc ∧ p ∈ [(Instr.halt n, RunState.halted, evCtxHalt),
        (Instr.stop n n, RunState.halted, evCtxHalt), (Instr.bkpt n, RunState.brk, evCtxBreak)] ∧ s.dev.Issues n p.1) ∧
    (∃ (s : State) (n : Fin 8), s.dev.Up ∧ s.dev.sealedState = false ∧
        ((s.dev.ctx n).run = .stopped ∨ (s.dev.ctx n).run = .halted ∨ (s.dev.ctx n).run = .brk ∨ (s.dev.ctx n).run = .faulted)) ∧
    (∃ (s : State) (n : Fin 8), s.dev.Up ∧ ((s.dev.ctx n).run = .running ∨ (s.dev.ctx n).run = .waiting)) ∧
    (∃ (s : State) (n : Fin 8), s.dev.Up ∧ (s.dev.ctx n).run = .running ∧ (s.dev.ctx n).busy = .idle ∧ (s.dev.ctx n).single = true ∧
        (s.dev.ctx n).pc ≠ lastPc ∧ aqsEncode (.nop n) = some (wordAt s.dev (s.dev.ctx n).pc)) ∧
    (∃ (s : State) (n : Fin 8), s.dev.Up ∧ (s.dev.ctx n).run = .running ∧ (s.dev.ctx n).late = none) ∧
    (∃ (s : State) (n : Fin 8), s.dev.Up ∧ ((s.dev.ctx n).run = .running ∨ (s.dev.ctx n).run = .waiting) ∧ (s.dev.ctx n).late = none ∧
        (∀ g a, (s.dev.ctx n).busy ≠ .cfgl g a)) ∧
    (∃ (s : State), s.dev.Up ∧ (∀ n g a, (s.dev.ctx n).busy ≠ .cfgl g a) ∧ (∀ n, withdraw n s.dev = s.dev)) :=
  ⟨⟨st ((prog 7 (.start 7 0 1)).withReg 7 1 524287), 7, 0, 1, ⟨rfl, rfl, rfl, rfl, rfl⟩,
      by unfold Dev.Issues; decide +kernel, by decide +kernel⟩,
   ⟨st ((prog 7 (.stop 7 0)).setCtx 0 { run := .waiting, busy := .waitCyc 8 }), 7, 0, ⟨rfl, rfl, rfl, rfl, rfl⟩,
       by unfold Dev.Issues; decide +kernel, by decide +kernel⟩,
   ⟨st (prog 7 (.halt 7)), 7, _, ⟨rfl, rfl, rfl, rfl, rfl⟩, by decide +kernel, List.mem_cons_self, by unfold Dev.Issues; decide +kernel⟩,
   ⟨st up, 7, ⟨rfl, rfl, rfl, rfl, rfl⟩, by decide +kernel⟩,
   ⟨st (run1 7), 7, ⟨rfl, rfl, rfl, rfl, rfl⟩, by decide +kernel⟩,
   ⟨st ((prog 7 (.nop 7)).setCtx 7 { (prog 7 (.nop 7)).ctx 7 with single := true }), 7, ⟨rfl, rfl, rfl, rfl, rfl⟩, by decide +kernel⟩,
   ⟨st (run1 7), 7, ⟨rfl, rfl, rfl, rfl, rfl⟩, by decide +kernel⟩,
   ⟨st (run1 7), 7, ⟨rfl, rfl, rfl, rfl, rfl⟩, .inl rfl, rfl, fun _ _ h => nomatch h⟩,
   ⟨st up, ⟨rfl, rfl, rfl, rfl, rfl⟩, fun n _ _ h => (nomatch (idle n).symm.trans h), by decide +kernel⟩⟩

theorem witness_LynxStamps :
    (∃ (s : State) (n : Fin 8), s.dev.Up ∧ s.dev.unitState (.lynx n) = stOff ∧ s.dev.cfgc.latched = [] ∧
        s.dev.cfgB (F.LYNX_n_CFG_EN n) = true ∧ masterOf s.dev n = none ∧ slaveOf s.dev n = none ∧
        lynxInternal (lynxSrc s.dev n) = false) ∧
    (∃ (s : State) (n : Fin 8), s.dev.Up ∧ s.dev.unitState (.lynx n) ≠ stOff) ∧
    (∃ (s : State) (n : Fin 8) (ip : Fin 2), s.dev.Up ∧ n.val % 2 = 0 ∧ s.dev.unitState (.lynx n) = stOn ∧
        lynxInternal (lynxSrc s.dev n) = false ∧ ((s.dev.lynx.get n).ip.get ip).ready = false ∧ (s.dev.lynx.get n).measuring = true) ∧
    (∃ (s : State) (n : Fin 8) (te : Nat), s.dev.Up ∧ masterOf s.dev n = none ∧ lynxMode s.dev n = 0 ∧
        (s.dev.lynx.get n).measuring = true ∧ s.dev.unitState (.lynx n) = stOn ∧ lynxInternal (lynxSrc s.dev n) = false ∧
        s.dev.cfg (F.LYNX_n_CFG_EDGE n) = 2 ∧ s.dev.cfg (F.LYNX_n_CFG_PRESCALE n) = 0 ∧ s.dev.cfg (F.LYNX_n_WM_LEVEL n) = 0 ∧
        ((s.dev.lynx.get n).ip.get (lynxActive s.dev n)).gain ≠ 0 ∧ (s.dev.lynx.get n).queue.length < 4096 ∧
        (s.dev.lynx.get n).start < te ∧ te ≤ (s.dev.lynx.get n).start + 2 ^ s.dev.cfg (F.LYNX_n_EPOCH_EPOCH_LOG n) ∧
        (s.dev.lynx.get n).lastStamp = none) ∧
    (∃ (s : State) (n : Fin 8) (te : Nat) (x : Int), ∃ t, s.dev.Up ∧ masterOf s.dev n = none ∧ lynxMode s.dev n = 0 ∧
        (s.dev.lynx.get n).measuring = true ∧ s.dev.unitState (.lynx n) = stOn ∧ lynxInternal (lynxSrc s.dev n) = false ∧
        s.dev.cfg (F.LYNX_n_CFG_EDGE n) = 2 ∧ s.dev.cfg (F.LYNX_n_CFG_PRESCALE n) = 0 ∧ s.dev.cfg (F.LYNX_n_WM_LEVEL n) = 0 ∧
        ((s.dev.lynx.get n).ip.get (lynxActive s.dev n)).gain ≠ 0 ∧ (s.dev.lynx.get n).queue.length < 4096 ∧
        (s.dev.lynx.get n).start < te ∧ te ≤ (s.dev.lynx.get n).start + 2 ^ s.dev.cfg (F.LYNX_n_EPOCH_EPOCH_LOG n) ∧
        (s.dev.lynx.get n).lastStamp = some t ∧
        ((stampOf ((s.dev.lynx.get n).ip.get (lynxActive s.dev n)).gain ((s.dev.lynx.get n).ip.get (lynxActive s.dev n)).zero te x (Config.lynxDelay (lynxSrc s.dev n)) (s.dev.ef (R.LYNX_n_OFFSET n)).toInt) : Int) < t + 3355443200) ∧
    (∃ (g : Int) (z : Int) (x : Int) (delay : Int) (offset : Int) (te : Nat), 0 < g ∧
        0 ≤ ((te : Int) * 2 ^ 32 - delay - offset * 2 ^ 16) * g - (x - z) * 2 ^ 32) ∧
    (∃ (s : State) (n : Fin 8), s.dev.Up ∧ lynxMode s.dev n = 0 ∧ (s.dev.lynx.get n).measuring = true ∧ masterOf s.dev n = none ∧
        lynxInternal (lynxSrc s.dev n) = false ∧ (s.dev.lynx.get n).start + 2 ^ s.dev.cfg (F.LYNX_n_EPOCH_EPOCH_LOG n) ≤ nowTick s.dev) ∧
    (∃ (s : State) (te : Nat), s.dev.Up ∧ srcEnabled s.dev 1 = true ∧ s.dev.cfg F.FOX_EXT_SLOPE = 2 ∧ s.dev.ext.measuring = true ∧
        s.dev.ext.start < te ∧ te ≤ s.dev.ext.start + 2 ^ 16 ∧ (s.dev.ext.ip.get s.dev.ext.active).gain ≠ 0 ∧ s.dev.ext.lastStamp = none ∧
        takesAtOnce s.dev = false) :=
  ⟨⟨st (up.given (F.LYNX_n_CFG_EN 7) 1 |>.given (F.LYNX_n_CFG_SRC 7) 1), 7, ⟨rfl, rfl, rfl, rfl, rfl⟩, by decide +kernel⟩,
   ⟨st (up.setUnit (.lynx 7) stDraining), 7, ⟨rfl, rfl, rfl, rfl, rfl⟩, by decide +kernel⟩,
   ⟨st ({ up with lynx := Vector.replicate 8 { measuring := true } }.setUnit (.lynx 6) stOn), 6, 1, ⟨rfl, rfl, rfl, rfl, rfl⟩,
       by decide +kernel⟩,
   ⟨st (measuring7 { measuring := true, ip := #v[⟨8000, 100, true⟩, ⟨8100, -90, true⟩] }), 7, 1000, ⟨rfl, rfl, rfl, rfl, rfl⟩,
       by decide +kernel⟩,
   ⟨st (measuring7 { measuring := true, ip := #v[⟨8000, 100, true⟩, ⟨8100, -90, true⟩], lastStamp := some (stampOf 8000 100 1000 5 (Config.lynxDelay (lynxSrc up 7)) 0) }),
       7, 1000, 5, stampOf 8000 100 1000 5 (Config.lynxDelay (lynxSrc up 7)) 0, ⟨rfl, rfl, rfl, rfl, rfl⟩, ⟨by decide +kernel,
       by refine ⟨?_, ?_, ?_, ?_, ?_, ?_, ?_, ?_, ?_, ?_, ?_, rfl, Int.lt_add_of_pos_right (stampOf 8000 100 1000 5 (Config.lynxDelay (lynxSrc up 7)) 0) (by decide)⟩ <;> decide +kernel⟩⟩,
   ⟨1, 0, 0, 0, 0, 0, by decide +kernel⟩,
   ⟨st { measuring7 { measuring := true } with stag := { now := mkTS (2 ^ 41) } }, 7, ⟨rfl, rfl, rfl, rfl, rfl⟩, by decide +kernel⟩,
   ⟨st ({ up with ext := { measuring := true, ip := Vector.replicate 2 ⟨8000, 100, true⟩ } }.put F.GLB_MODE_STATUS_CUR_MODE 1 |>.given F.FOX_EXT_SLOPE 2 |>.given F.FOX_CTRL_SRC_EN 2),
       5000, ⟨rfl, rfl, rfl, rfl, rfl⟩, by decide +kernel⟩⟩

theorem witness_LynxQueues :
    (∃ (s : State) (n : Fin 8) (a : LynxStamp) (b : LynxStamp), s.dev.Up ∧ lynxMode s.dev n = 2 ∧ (s.dev.lynx.get n).measuring = true ∧
        lynxInternal (lynxSrc s.dev n) = false ∧ (s.dev.lynx.get n).start + s.dev.cf64 (R.LYNX_n_GATE_LO n) % 2 ^ 48 ≤ nowTick s.dev ∧
        (s.dev.lynx.get n).first = some a ∧ (s.dev.lynx.get n).last = some b ∧ 2 ≤ (s.dev.lynx.get n).stamps ∧
        (s.dev.lynx.get n).queue.length + 2 ≤ 4096 ∧ s.dev.cfg (F.LYNX_n_WM_LEVEL n) = 0 ∧ s.dev.ef (R.LYNX_n_REPEAT n) = 0 ∧
        s.dev.unitState (.lynx n) = stOn) ∧
    (∃ (s : State) (n : Fin 8), s.dev.Up ∧ s.dev.unitState (.lynx n) = stOn) ∧
    (∃ (s : State) (n : Fin 8) (q : Requester) (w0 : Word64) (w1 : Word64) (rest : List (Word64 × Word64)),
        s.dev.Reaches q (R.LYNX_n_Q n 0) ∧ (s.dev.lynx.get n).queue = (w0, w1) :: rest ∧ rest.length < 4096) ∧
    (∃ (s : State) (n : Fin 8) (q : Requester), s.dev.Reaches q (R.LYNX_n_Q n 0) ∧ (s.dev.lynx.get n).queue = []) :=
  ⟨⟨st ({ up with lynx := Vector.replicate 8 { measuring := true, first := some ⟨5, 0, 0, 0, true⟩, last := some ⟨9, 0, 0, 0, true⟩, stamps := 2 }, stag := { now := mkTS 101 } }.given (F.LYNX_n_CFG_MODE 7) 2 |>.efw (R.LYNX_n_GATE_LO 7) 101 |>.setUnit (.lynx 7) stOn),
      7, ⟨5, 0, 0, 0, true⟩, ⟨9, 0, 0, 0, true⟩, ⟨rfl, rfl, rfl, rfl, rfl⟩, by decide +kernel⟩,
   ⟨st (up.setUnit (.lynx 0) stOn), 0, ⟨rfl, rfl, rfl, rfl, rfl⟩, by decide +kernel⟩,
   ⟨st { linked with lynx := Vector.replicate 8 { queue := [(1, 2)] } }, 7, .host, 1, 2, [], ⟨⟨rfl, rfl, rfl, rfl, rfl⟩,
       by decide +kernel⟩, by decide +kernel⟩,
   ⟨st linked, 7, .ctx 3, ⟨⟨rfl, rfl, rfl, rfl, rfl⟩, by decide +kernel⟩, by decide +kernel⟩⟩

theorem witness_WindowMonitors :
    (∃ (s : State) (n : Fin 8), s.dev.Up ∧ s.dev.unitState (.owl n) = stOn ∧ s.dev.cfg (F.OWL_n_CFG_SENSE n) = 2 ∧
        (s.dev.owl.get n).crossOnly = false ∧ s.dev.flag (F.OWL_n_STATUS_TRIP n) = false ∧
        s.dev.flag (F.OWL_n_STATUS_TRIP_STICKY n) = false ∧ (∀ u : Fin 4, s.dev.cfg (F.PULSE_u_CFG_TRIP_MASK u) = 0) ∧
        s.dev.armed = false ∧ takesAtOnce s.dev = false) ∧
    (∃ (s : State) (n : Fin 8), s.dev.Up ∧ s.dev.unitState (.owl n) = stOn ∧ (s.dev.owl.get n).crossOnly = false) ∧
    (∃ (s : State) (n : Fin 8), s.dev.Up ∧ s.dev.unitState (.owl n) = stOn ∧ s.dev.mode = mSingle ∧ owlUnconnected s.dev n = false ∧
        s.dev.get (F.ILV_b_SPARE_ACTIVE (owlBank n)) = 63 ∧ s.dev.owlSvc.get (owlBank n) = none ∧ (∀ m, m ≠ n →
        (s.dev.owl.get m).wantSeed = false)) ∧
    (∃ (s : State) (n : Fin 8), s.dev.Up ∧ s.dev.unitState (.owl n) = stOn ∧ s.dev.mode = mCount) ∧
    (∃ (s : State) (n : Fin 8) (reading : Int) (o : Fin 3), s.dev.Up ∧ s.dev.unitState (.owl n) = stOn ∧
        s.dev.owlSvc.get (owlBank n) = some ⟨n, true⟩ ∧ s.dev.cfg (F.OWL_n_CFG_SENSE n) = 2 ∧ (s.dev.owl.get n).upper = none ∧
        s.dev.flag (F.OWL_n_STATUS_TRIP n) = true ∧
        readingAbove (atConnector s.dev n reading) o (s.dev.cfgS (F.OWL_n_THRESH_UPPER n)) = true ∧ (∀ m, m ≠ n →
        (s.dev.owl.get m).wantSeed = false) ∧ (∀ m, (s.dev.owl.get m).wantRb = false)) ∧
    (∃ (s : State) (n : Fin 8), s.dev.Up ∧ s.dev.mode = mSingle ∧ s.dev.get (F.ILV_b_SPARE_ACTIVE (owlBank n)) = 63 ∧
        s.dev.owlSvc.get (owlBank n) = none ∧ (∀ m, (s.dev.owl.get m).wantSeed = false) ∧ (∀ m, m ≠ n →
        (s.dev.owl.get m).wantRb = false)) ∧
    (∃ (s : State) (n : Fin 8), s.dev.Up ∧ s.dev.owlSvc.get (owlBank n) = some ⟨n, false⟩ ∧ (∀ m, (s.dev.owl.get m).wantSeed = false) ∧
        (∀ m, m ≠ n → (s.dev.owl.get m).wantRb = false)) ∧
    (∃ (s : State) (n : Fin 8), s.dev.Up ∧ s.dev.unitState (.owl n) = stOn ∧ s.dev.owlSvc.get (owlBank n) = none ∧ (∀ m,
        (s.dev.owl.get m).wantSeed = false) ∧ (∀ m, (s.dev.owl.get m).wantRb = false)) :=
  ⟨⟨st (monitor7.put F.GLB_MODE_STATUS_CUR_MODE mSingle), 7, ⟨rfl, rfl, rfl, rfl, rfl⟩, by decide +kernel⟩,
   ⟨st monitor7, 7, ⟨rfl, rfl, rfl, rfl, rfl⟩, by decide +kernel⟩,
   ⟨st (monitor7.put F.GLB_MODE_STATUS_CUR_MODE mSingle |>.put (F.ILV_b_SPARE_ACTIVE (owlBank 7)) 63), 7, ⟨rfl, rfl, rfl, rfl, rfl⟩,
       by decide +kernel⟩,
   ⟨st (monitor7.put F.GLB_MODE_STATUS_CUR_MODE mCount), 7, ⟨rfl, rfl, rfl, rfl, rfl⟩, by decide +kernel⟩,
   ⟨st ({ monitor7 with owlSvc := Vector.replicate 4 (some ⟨7, true⟩) }.put (F.OWL_n_STATUS_TRIP 7) 1), 7, 1000000, 0, ⟨rfl, rfl, rfl,
       rfl, rfl⟩, by decide +kernel⟩,
   ⟨st (up.put F.GLB_MODE_STATUS_CUR_MODE mSingle |>.put (F.ILV_b_SPARE_ACTIVE (owlBank 0)) 63), 0, ⟨rfl, rfl, rfl, rfl, rfl⟩,
       by decide +kernel⟩,
   ⟨st { up with owlSvc := Vector.replicate 4 (some ⟨7, false⟩) }, 7, ⟨rfl, rfl, rfl, rfl, rfl⟩, by decide +kernel⟩,
   ⟨st monitor7, 7, ⟨rfl, rfl, rfl, rfl, rfl⟩, by decide +kernel⟩⟩

theorem witness_PulseUnits :
    (∃ (d : Dev) (u : Fin 4), d.unitState (.pulse u) = stOn ∧ (d.pulse.get u) = { fireDue := true } ∧
        d.flag (F.PULSE_u_STATUS_FIRED u) = false) ∧
    (∃ (s : State) (u : Fin 4), s.dev.Up ∧ s.dev.unitState (.pulse u) = stOn ∧ (s.dev.pulse.get u).active = true ∧
        s.dev.get (F.PULSE_u_STATUS_OUT u) = 1 ∧ (s.dev.pulse.get u).mode = 0) ∧
    (∃ (s : State) (u : Fin 4), s.dev.Up ∧ s.dev.unitState (.pulse u) = stOn ∧ (s.dev.pulse.get u).active = true ∧
        s.dev.get (F.PULSE_u_STATUS_OUT u) = 1 ∧ (s.dev.pulse.get u).mode = 2 ∧ (s.dev.pulse.get u).endless = false ∧
        2 ≤ (s.dev.pulse.get u).left) ∧
    (∃ (s : State) (u : Fin 4), s.dev.Up ∧ s.dev.unitState (.pulse u) = stOn ∧ (s.dev.pulse.get u).active = true ∧
        s.dev.get (F.PULSE_u_STATUS_OUT u) = 1 ∧ (s.dev.pulse.get u).mode = 2 ∧ (s.dev.pulse.get u).endless = false ∧
        (s.dev.pulse.get u).left = 1) ∧
    (∃ (s : State) (u : Fin 4), s.dev.Up ∧ (s.dev.pulse.get u).active = true ∧ (s.dev.pulse.get u).mode = 2 ∧
        s.dev.get (F.PULSE_u_STATUS_OUT u) = 0) :=
  ⟨⟨{ up with pulse := Vector.replicate 4 { fireDue := true } }.setUnit (.pulse 3) stOn, 3, by decide +kernel⟩,
   ⟨st (firing { active := true, mode := 0 }), 3, ⟨rfl, rfl, rfl, rfl, rfl⟩, by decide +kernel⟩,
   ⟨st (firing { active := true, mode := 2, left := 2 }), 3, ⟨rfl, rfl, rfl, rfl, rfl⟩, by decide +kernel⟩,
   ⟨st (firing { active := true, mode := 2, left := 1 }), 3, ⟨rfl, rfl, rfl, rfl, rfl⟩, by decide +kernel⟩,
   ⟨st { up with pulse := Vector.replicate 4 { active := true, mode := 2 } }, 3, ⟨rfl, rfl, rfl, rfl, rfl⟩, by decide +kernel⟩⟩

theorem witness_CalibrationProcedures :
    (∃ (s : State), s.dev.Up ∧ s.dev.cal.proc ≠ none) ∧
    (∃ (s : State), s.dev.Up ∧ calBusy s.dev = false ∧ s.dev.mode = mCount) ∧
    (∃ (s : State) (v : Word), s.dev.Up ∧ calBusy s.dev = false ∧ s.dev.mode = mSingle ∧ s.dev.phase = 0 ∧
        s.dev.get F.GLB_STATUS_READY = 1 ∧ 4 ≤ v.toNat % 8) ∧
    (∃ (s : State) (v : Word), s.dev.Up ∧ calBusy s.dev = false ∧ s.dev.mode = mCalibrate ∧ s.dev.phase = 0 ∧
        s.dev.get F.GLB_STATUS_READY = 1 ∧ v.toNat % 8 = 0 ∧ bitsOf v.toNat 5 4 ≠ 3 ∧ s.dev.cfgc.latched = [] ∧
        s.dev.get F.STAG_STATUS_SL_LOCK = 1) ∧
    (∃ (s : State) (v : Word), s.dev.Up ∧ calBusy s.dev = false ∧ s.dev.mode = mSingle ∧ s.dev.phase = 0 ∧
        s.dev.get F.GLB_STATUS_READY = 1 ∧ v.toNat % 8 = 0 ∧ bitsOf v.toNat 5 4 ≠ 3) ∧
    (∃ (s : State) (k : Nat) (mask : Nat) (p : TrimProp) (r : CalResult), s.dev.Up ∧ k < 3 ∧ s.dev.cal.proc = some (0, k, mask) ∧
        s.dev.cal.begun = true ∧ s.dev.cal.home = none ∧ s.dev.unitState .cal = stOn ∧ s.dev.sealedState = false ∧ clampProp p = (p,
        false) ∧ p.sub ≤ 32 ∧ r.trims = [p] ∧ r.chans = [] ∧ r.planes = [] ∧ r.failed = [] ∧ r.owls = []) ∧
    (∃ (s : State) (pr : Nat) (k : Nat) (mask : Nat), s.dev.Up ∧ s.dev.cal.proc = some (pr, k, mask) ∧ s.dev.cal.begun = true ∧
        s.dev.cal.home = none ∧ s.dev.unitState .cal = stOn ∧ s.dev.sealedState = true) ∧
    (∃ (s : State) (k : Nat) (mask : Nat), ∃ p, s.dev.Up ∧ s.dev.cal.proc = some (0, k, mask) ∧ s.dev.cal.begun = true ∧
        s.dev.cal.home = none ∧ s.dev.cal.startup = false ∧ s.dev.unitState .cal = stOn ∧ p ∈ [((none : Option Nat), 0x0E07,
        s.dev.get F.STAG_STATUS_SL_LOCK), (some 499999, 0x0E05, s.dev.cfg F.CAL_CTRL_REF_SRC)] ∧ p.2.2 = 0) ∧
    (∃ (s : State), s.dev.Up ∧ s.dev.cal.proc ≠ none ∧ s.dev.unitState .cal = stOn) ∧
    (∃ (s : State), s.dev.Up ∧ hasPart s.dev .calStale = false) ∧
    (∃ (d : Dev), d.arr < 3 ∧ d.cfg F.CAL_STALE_CFG_AGE = 0) ∧
    (∃ (d : Dev), d.arr < 3 ∧ d.cfg F.CAL_STALE_CFG_TEMP = 0) :=
  ⟨⟨st (calibrating (some (0, 1, 5))), ⟨rfl, rfl, rfl, rfl, rfl⟩, by decide +kernel⟩,
   ⟨st (up.put F.GLB_MODE_STATUS_CUR_MODE mCount), ⟨rfl, rfl, rfl, rfl, rfl⟩, by decide +kernel⟩,
   ⟨st ((calibrating none).put F.GLB_MODE_STATUS_CUR_MODE mSingle), 7, ⟨rfl, rfl, rfl, rfl, rfl⟩, by decide +kernel⟩,
   ⟨st (calibrating none), 0x20, ⟨rfl, rfl, rfl, rfl, rfl⟩, by decide +kernel⟩,
   ⟨st ((calibrating none).put F.GLB_MODE_STATUS_CUR_MODE mSingle), 0, ⟨rfl, rfl, rfl, rfl, rfl⟩, by decide +kernel⟩,
   ⟨st (calibrating (some (0, 2, 0xF0))), 2, 0xF0, ⟨3, 32, -512, 511, -32, 200⟩, { result with trims := [⟨3, 32, -512, 511, -32, 200⟩] },
       ⟨rfl, rfl, rfl, rfl, rfl⟩, by decide +kernel⟩,
   ⟨st ((calibrating (some (3, 2, 0xF0))).put F.HEDGE_STATUS_LC 3), 3, 2, 0xF0, ⟨rfl, rfl, rfl, rfl, rfl⟩, by decide +kernel⟩,
   ⟨st ((calibrating (some (0, 2, 0xF0))).given F.CAL_CTRL_REF_SRC 0), 2, 0xF0, (some 499999, 0x0E05, 0), ⟨rfl, rfl, rfl, rfl, rfl⟩,
       by decide +kernel⟩,
   ⟨st (calibrating (some (0, 2, 0xF0))), ⟨rfl, rfl, rfl, rfl, rfl⟩, by decide +kernel⟩,
   ⟨st up, ⟨rfl, rfl, rfl, rfl, rfl⟩, by decide +kernel⟩,
   ⟨(calibrating none).given F.CAL_STALE_CFG_AGE 0, by decide +kernel⟩,
   ⟨(calibrating none).given F.CAL_STALE_CFG_TEMP 0, by decide +kernel⟩⟩

theorem witness_TrimImages :
    (∃ (s : State), s.dev.Up ∧ calBusy s.dev = false) ∧
    (∃ (s : State), ∃ c, c ∈ [Instr.calSave, .calRestore, .calBundle] ∧ s.dev.Up ∧ s.dev.cal.proc ≠ none) ∧
    (∃ (s : State) (a : Nat), s.dev.Up ∧ s.dev.cal.bundle = some a) :=
  ⟨⟨st (calibrating none), ⟨rfl, rfl, rfl, rfl, rfl⟩, by decide +kernel⟩,
   ⟨st (calibrating (some (0, 1, 5))), .calRestore, by decide +kernel, ⟨rfl, rfl, rfl, rfl, rfl⟩, by decide +kernel⟩,
   ⟨st { up with cal := { bundle := some dataBase } }, dataBase, ⟨rfl, rfl, rfl, rfl, rfl⟩, by decide +kernel⟩⟩

theorem witness_BadgerTransformIsInvertible : ∃ (xf : Nat) (bs : List Byte), skipBytes xf ≤ bs.length :=
  ⟨7, List.replicate 40 3, by decide +kernel⟩

theorem witness_BadgerJobs :
    (∃ (s : State) (lane : Fin 8) (host : List Byte) (j : BadgerJob) (r : Fin 4) (i : Nat), s.dev.Up ∧
        s.dev.cfgB F.BADGER_CTRL_EN = true ∧ s.dev.badger.lanes.get lane = none ∧ s.dev.unitState .badger ≠ stAborting ∧ (∀ p,
        (s.dev.red.get p).ready = []) ∧ s.dev.badger.urgent = [] ∧ s.dev.badger.jobs = [j] ∧ j.src = .ring r i ∧
        bitsOf (s.dev.cfg (F.BADGER_r_CFG_LANES r)) lane.val lane.val = 1 ∧ spaceReadable s.dev j.from' j.len = true ∧
        (isHost j.from' = false ∨ j.len ≤ host.length ∧ mayIssue s.dev = true)) ∧
    (∃ (s : State) (lane : Fin 8) (j : BadgerJob) (r : Fin 4) (i : Nat) (x : List Byte), s.dev.Up ∧ s.dev.badger.lanes.get lane = some j ∧
        j.src = .ring r i ∧ i = ringNext s.dev r ∧ s.dev.badger.results = [] ∧ j.op = 1 ∧ decodeBlock j.bytes = .done x ∧
        x.length ≤ j.dstCap ∧ j.ev = false ∧ s.dev.cfg (F.BADGER_r_CFG_SIZE_LOG r) ≤ 12 ∧ ringDesc s.dev r i + 64 ≤ 2 ^ 63 ∧
        j.dst < 2 ^ 63 ∧ (j.dst + x.length ≤ ringDesc s.dev r i ∨ ringDesc s.dev r i + 64 ≤ j.dst) ∧
        spaceWritable s.dev j.dst x.length = true ∧ spaceWritable s.dev (ringDesc s.dev r i) 4 = true ∧
        spaceWritable s.dev (ringDesc s.dev r i + 0x20) 2 = true ∧ spaceWritable s.dev (ringDesc s.dev r i + 0x24) 12 = true) ∧
    (∃ (s : State) (lane : Fin 8) (j : BadgerJob) (p : Fin 4), s.dev.Up ∧ s.dev.badger.lanes.get lane = some j ∧
        j.src = .pipe p (s.dev.badger.handed.get p) ∧ s.dev.badger.results = [] ∧
        up64 j.bytes.length < (encodeBlock j).length + 64 * j.minSave) ∧
    (∃ (s : State) (r : Fin 4) (host : List Byte), s.dev.Up ∧ s.dev.get (F.BADGER_r_STATUS_STATE r) = stOn ∧
        s.dev.cfgB F.BADGER_CTRL_EN = true ∧ s.dev.get (F.BADGER_r_STATUS_IDLE r) = 0 ∧ ringBusy s.dev r = false ∧
        s.dev.unitState .badger ≠ stAborting ∧ spaceReadable s.dev (ringDesc s.dev r (s.dev.badger.fetch.get r)) 64 = true ∧
        (isHost (ringDesc s.dev r (s.dev.badger.fetch.get r)) = false ∨ 64 ≤ host.length ∧ mayIssue s.dev = true) ∧
        bitsOf (hdrField (spaceLoad s.dev (ringDesc s.dev r (s.dev.badger.fetch.get r)) 64 host) 0 4) 31 31 = 0) ∧
    (∃ (s : State) (r : Fin 4) (host : List Byte), s.dev.Up ∧ s.dev.get (F.BADGER_r_STATUS_STATE r) = stOn ∧
        s.dev.cfgB F.BADGER_CTRL_EN = true ∧ s.dev.get (F.BADGER_r_STATUS_IDLE r) = 0 ∧ ringBusy s.dev r = false ∧
        s.dev.unitState .badger ≠ stAborting ∧ spaceReadable s.dev (ringDesc s.dev r (s.dev.badger.fetch.get r)) 64 = true ∧
        (isHost (ringDesc s.dev r (s.dev.badger.fetch.get r)) = false ∨ 64 ≤ host.length ∧ mayIssue s.dev = true) ∧
        hdrField (spaceLoad s.dev (ringDesc s.dev r (s.dev.badger.fetch.get r)) 64 host) 0 4 = 2 ^ 31 + 4 ∧
        0 < hdrField (spaceLoad s.dev (ringDesc s.dev r (s.dev.badger.fetch.get r)) 64 host) 0x10 4 ∧
        hdrField (spaceLoad s.dev (ringDesc s.dev r (s.dev.badger.fetch.get r)) 64 host) 0x10 4 ≤ 4096 ∧
        hdrField (spaceLoad s.dev (ringDesc s.dev r (s.dev.badger.fetch.get r)) 64 host) 0x22 2 = 0 ∧
        ((spaceLoad s.dev (ringDesc s.dev r (s.dev.badger.fetch.get r)) 64 host).drop 0x30).all (fun y => y = 0) = true) ∧
    (∃ (s : State) (r : Fin 4), s.dev.Up ∧ s.dev.get (F.BADGER_r_STATUS_IDLE r) = 1 ∧ s.dev.cfgB (F.BADGER_r_CFG_EN r) = true) ∧
    (∃ (s : State) (lane : Fin 8) (j : BadgerJob) (r : Fin 4) (i : Nat), s.dev.Up ∧ s.dev.badger.lanes.get lane = some j ∧
        j.src = .ring r i ∧ i ≠ ringNext s.dev r ∧ s.dev.badger.results = []) ∧
    (∃ (s : State), s.dev.Up ∧ s.dev.unitState .badger ≠ stOff) :=
  ⟨⟨st ({ linked with badger := { jobs := [{ job (.ring 3 5) [] with len := 100, from' := dataBase }] } }.given F.BADGER_CTRL_EN 1 |>.given (F.BADGER_r_CFG_LANES 3) 0x80),
      7, [], { job (.ring 3 5) [] with len := 100, from' := dataBase }, 3, 5, ⟨rfl, rfl, rfl, rfl, rfl⟩, by decide +kernel⟩,
   ⟨st ((laned { job (.ring 3 5) (literalBlock [7, 8, 9]) with op := 1, level := 3 }).withSpan 4096), 7,
       { job (.ring 3 5) (literalBlock [7, 8, 9]) with op := 1, level := 3 }, 3, 5, [7, 8, 9], ⟨rfl, rfl, rfl, rfl, rfl⟩,
       by decide +kernel⟩,
   ⟨st (laned { job (.pipe 3 0) [] with minSave := 3 }), 7, { job (.pipe 3 0) [] with minSave := 3 }, 3, ⟨rfl, rfl, rfl, rfl, rfl⟩,
       by decide +kernel, by decide +kernel, by decide +kernel, Nat.lt_of_lt_of_le (by decide) (Nat.le_add_left _ _)⟩,
   ⟨st (ringFetch 0), 3, [], ⟨rfl, rfl, rfl, rfl, rfl⟩, by decide +kernel⟩,
   ⟨st (ringFetch (2 ^ 31 + 4)), 3, [], ⟨rfl, rfl, rfl, rfl, rfl⟩, by decide +kernel⟩,
   ⟨st (up.put (F.BADGER_r_STATUS_IDLE 3) 1 |>.given (F.BADGER_r_CFG_EN 3) 1), 3, ⟨rfl, rfl, rfl, rfl, rfl⟩, by decide +kernel⟩,
   ⟨st (laned (job (.ring 3 4) [1])), 7, job (.ring 3 4) [1], 3, 4, ⟨rfl, rfl, rfl, rfl, rfl⟩, by decide +kernel⟩,
   ⟨st (up.setUnit .badger stOn), ⟨rfl, rfl, rfl, rfl, rfl⟩, by decide +kernel⟩⟩

theorem witness_DramTrainingAndStripe :
    (∃ (s : State), s.dev.Up ∧ dramUsersOff s.dev = true ∧ s.dev.get F.CAP_STATUS_HOLDING = 0 ∧ fabricDram s.dev = false ∧
        s.dev.ddr.training = none ∧ hasPart s.dev .ddrSpeed = false) ∧
    (∃ (s : State), s.dev.Up ∧ s.dev.ddr.training ≠ none) ∧
    (∃ (s : State) (mask : BitVec 12) (ok : BitVec 12) (un : BitVec 12), s.dev.Up ∧ s.dev.get F.PWR_STATUS_PHASE = 8 ∧
        s.dev.get F.GLB_STATUS_READY = 1 ∧ s.dev.ddr.training = some mask ∧ s.dev.ddr.table ≠ none ∧ (∀ n : Fin 12,
        mask.getLsbD n.val = true → (ok &&& ~~~un).getLsbD n.val = false → bitsOf (s.dev.get F.DDR_STRIPE_CH_NAMED) n.val n.val = 0)) ∧
    (∃ (s : State) (n : Fin 12), s.dev.Up ∧ s.dev.unitState (.ddr n) = stOn ∧ (s.dev.ddr.chans.get n).queue = [] ∧
        bitsOf (s.dev.get F.DDR_STRIPE_CH_NAMED) n.val n.val = 1) ∧
    (∃ (s : State) (n : Fin 12), s.dev.Up ∧ s.dev.unitState (.ddr n) = stOn ∧ (s.dev.ddr.chans.get n).queue = [] ∧
        bitsOf (s.dev.get F.DDR_STRIPE_CH_NAMED) n.val n.val = 0) ∧
    (∃ (s : State) (v : Word) (seq : Nat), s.dev.Up ∧ s.dev.cfgc.parts = [⟨.ddrStripe, R.DDR_STRIPE, v⟩] ∧ s.dev.cfgc.waits = [⟨seq,
        [.ddrStripe], false⟩] ∧ v.getLsbD 31 = false ∧ dramUsersOff s.dev = true ∧ fabricDram s.dev = false ∧ (∀ n,
        (s.dev.ddr.chans.get n).queue = [])) :=
  ⟨⟨st up, ⟨rfl, rfl, rfl, rfl, rfl⟩, by decide +kernel⟩,
   ⟨st { up with ddr := { training := some 5 } }, ⟨rfl, rfl, rfl, rfl, rfl⟩, by decide +kernel⟩,
   ⟨st ({ up with ddr := { training := some 0x801, table := some 64 } }.put F.PWR_STATUS_PHASE 8 |>.put F.GLB_STATUS_READY 1 |>.put F.DDR_STRIPE_CH_NAMED 0x7FF),
       0x801, 0x001, 0, ⟨rfl, rfl, rfl, rfl, rfl⟩, by decide +kernel⟩,
   ⟨st (dram {}), 7, ⟨rfl, rfl, rfl, rfl, rfl⟩, by decide +kernel⟩,
   ⟨st ((dram {}).put F.DDR_STRIPE_CH_NAMED 0), 7, ⟨rfl, rfl, rfl, rfl, rfl⟩, by decide +kernel⟩,
   ⟨st { up with cfgc := { up.cfgc with parts := [⟨.ddrStripe, R.DDR_STRIPE, 0x123456⟩], waits := [⟨9, [.ddrStripe], false⟩] } },
       0x123456, 9, ⟨rfl, rfl, rfl, rfl, rfl⟩, by decide +kernel⟩⟩

theorem witness_DramUpkeep :
    (∃ (s : State) (n : Fin 12) (rank : Fin 2), s.dev.Up ∧ selfRefresh s.dev n = false ∧ rank.val < (ddrOrgOf s.dev).ranks) ∧
    (∃ (s : State) (rank : Fin 2), s.dev.Up ∧ rank.val < (ddrOrgOf s.dev).ranks ∧ s.dev.cfgB F.DDR_CTRL_NR_EN = true) ∧
    (∃ (s : State) (n : Fin 12), s.dev.Up ∧ selfRefresh s.dev n = false) ∧
    (∃ (s : State) (n : Fin 12) (rank : Fin 2), s.dev.Up ∧ (s.dev.ddr.chans.get n).queue = [] ∧ s.dev.cfg F.DDR_PD_PD_IDLE ≠ 0 ∧
        rank.val < (ddrOrgOf s.dev).ranks) ∧
    (∃ (s : State) (n : Fin 12), s.dev.Up ∧ (s.dev.ddr.chans.get n).queue = [] ∧ s.dev.cfg F.DDR_PD_SR_IDLE ≠ 0 ∧
        bitsOf (s.dev.get F.DDR_READY_READY) n.val n.val = 1) :=
  ⟨⟨st (dram { postponed := #v[8, 3] }), 7, 0, ⟨rfl, rfl, rfl, rfl, rfl⟩, by decide +kernel, one_rank _⟩,
   ⟨st ((dram {}).given F.DDR_CTRL_NR_EN 1), 0, ⟨rfl, rfl, rfl, rfl, rfl⟩, one_rank _, by decide +kernel⟩,
   ⟨st (dram {}), 7, ⟨rfl, rfl, rfl, rfl, rfl⟩, by decide +kernel⟩,
   ⟨st ((dram {}).given F.DDR_PD_PD_IDLE 5), 7, 0, ⟨rfl, rfl, rfl, rfl, rfl⟩, by decide +kernel, by decide +kernel, one_rank _⟩,
   ⟨st ((dram {}).given F.DDR_PD_SR_IDLE 5 |>.put F.DDR_READY_READY 0x80), 7, ⟨rfl, rfl, rfl, rfl, rfl⟩, by decide +kernel⟩⟩

theorem witness_DramBursts :
    (∃ (s : State) (r : DdrReq), s.dev.Up ∧ r.ctx = none ∧ r.addr % 64 = 0 ∧ r.addr + 64 ≤ s.dev.ddr.span ∧
        (s.dev.ddr.chans.get (dramMap s.dev r.addr).1).queue.length < 64) ∧
    (∃ (s : State) (r : DdrReq) (n : Fin 8) (op : MemOp) (g : Fin 16) (a : Nat), s.dev.Up ∧ r.ctx = some n ∧
        (s.dev.ctx n).busy = .fabric op g a ∧ waitsAtDdr s.dev n = false ∧ a / 64 * 64 + 64 ≤ s.dev.ddr.span ∧
        (s.dev.ddr.chans.get (dramMap s.dev (a / 64 * 64)).1).queue.length < 64) ∧
    (∃ (s : State) (n : Fin 12) (r : DdrReq), s.dev.Up ∧ (s.dev.ddr.chans.get n).queue = [r] ∧ (s.dev.ddr.chans.get n).poison = [] ∧
        s.dev.unitState (.ddr n) = stOn ∧ r.write = true ∧ r.be = BitVec.allOnes 64 ∧ r.data.length = 64) ∧
    (∃ (s : State) (n : Fin 12) (r : DdrReq), s.dev.Up ∧ (s.dev.ddr.chans.get n).queue = [r] ∧ (s.dev.ddr.chans.get n).poison = [] ∧
        s.dev.unitState (.ddr n) = stOn ∧ r.write = true ∧ r.be ≠ BitVec.allOnes 64 ∧ r.data.length = 64) ∧
    (∃ (s : State) (n : Fin 12) (r : DdrReq), s.dev.Up ∧ (s.dev.ddr.chans.get n).queue = [r] ∧ (s.dev.ddr.chans.get n).poison = [] ∧
        s.dev.unitState (.ddr n) = stOn ∧ r.write = false) :=
  ⟨⟨st (dram {}), ddrReq true 0, ⟨rfl, rfl, rfl, rfl, rfl⟩, by decide +kernel⟩,
   ⟨st ((dram {}).setCtx 7 { run := .running, busy := .fabric .ld 2 4097 }), { ddrReq false 0 with ctx := some 7 }, 7, .ld, 2, 4097, ⟨rfl,
       rfl, rfl, rfl, rfl⟩, by decide +kernel⟩,
   ⟨st (dram { queue := [ddrReq true (2 ^ 64 - 1)] }), 7, ddrReq true (2 ^ 64 - 1), ⟨rfl, rfl, rfl, rfl, rfl⟩, by decide +kernel⟩,
   ⟨st (dram { queue := [ddrReq true 5] }), 7, ddrReq true 5, ⟨rfl, rfl, rfl, rfl, rfl⟩, by decide +kernel⟩,
   ⟨st (dram { queue := [ddrReq false 5] }), 7, ddrReq false 5, ⟨rfl, rfl, rfl, rfl, rfl⟩, by decide +kernel⟩⟩

theorem witness_DmaChains :
    (∃ (s : State) (n : Fin 32) (head : Word64), s.dev.Up ∧ handoverCode n head.toNat s.dev = 0) ∧
    (∃ (s : State) (n : Fin 32), s.dev.Up ∧ chanEnabled s.dev n = false) ∧
    (∃ (s : State) (n : Fin 32), s.dev.Up ∧ chanRun s.dev n = runRunning) ∧
    (∃ (s : State) (n : Fin 32), s.dev.Up ∧ chanRun s.dev n = runIdle ∧ chanEnabled s.dev n = true) ∧
    (∃ (s : State) (n : Fin 32), s.dev.Up ∧ chanRun s.dev n = runHalted ∧ schedNames s.dev n = false) ∧
    (∃ (s : State) (n : Fin 32), ∃ p, s.dev.Up ∧ s.dev.unitState (.beaver n) = stOn ∧ (s.dev.beaver.chans.get n).desc = none ∧
        chanClassD s.dev n = false ∧ p ∈ [(Instr.beaverChAbort n, 0x110A), (Instr.beaverAbort, 0x110A),
        (Instr.dmaTimeout n 0 (2 ^ s.dev.cfg (F.BEAVER_CH_n_CFG_TO_LOG n)) false, 0x1106)] ∧ (p.1 = .beaverAbort → ∀ m, m ≠ n →
        s.dev.unitState (.beaver m) = stOff)) ∧
    (∃ (s : State) (n : Fin 32) (w : Nat), s.dev.Up ∧ s.dev.unitState (.beaver n) = stOn ∧
        2 ^ s.dev.cfg (F.BEAVER_CH_n_CFG_TO_LOG n) ≤ w ∧ chanClassD s.dev n = false ∧
        ((s.dev.beaver.chans.get n).desc = none ∨ (s.dev.beaver.chans.get n).wb ≠ none)) ∧
    (∃ (s : State) (n : Fin 32) (w : Nat), s.dev.Up ∧ s.dev.unitState (.beaver n) = stOn ∧
        2 ^ s.dev.cfg (F.BEAVER_CH_n_CFG_TO_LOG n) ≤ w ∧ chanClassD s.dev n = false ∧ chanMoving s.dev n = true) ∧
    (∃ (s : State) (n : Fin 32) (host : List Byte), s.dev.Up ∧ s.dev.unitState (.beaver n) = stOn ∧ s.dev.beaver.chans.get n = {} ∧
        chanClassD s.dev n = false ∧ hasPart s.dev (.beaverCh n) = false ∧ s.dev.cfg (F.BEAVER_CH_n_CFG_HOP_LIMIT n) = 0 ∧
        schedNames s.dev n = false ∧ spaceReadable s.dev (chanCur s.dev n) 64 = true ∧ hostBlocked s.dev (chanCur s.dev n) = false ∧
        (isHost (chanCur s.dev n) = false ∨ 64 ≤ host.length) ∧ (parseDesc (spaceLoad s.dev (chanCur s.dev n) 64 host)).own = false ∧
        s.dev.get (F.BEAVER_CH_n_STATUS_DB_PENDING n) = 1) ∧
    (∃ (s : State) (n : Fin 32) (host : List Byte), s.dev.Up ∧ s.dev.unitState (.beaver n) = stOn ∧ s.dev.beaver.chans.get n = {} ∧
        chanClassD s.dev n = false ∧ hasPart s.dev (.beaverCh n) = false ∧ s.dev.cfg (F.BEAVER_CH_n_CFG_HOP_LIMIT n) = 0 ∧
        schedNames s.dev n = false ∧ spaceReadable s.dev (chanCur s.dev n) 64 = true ∧ hostBlocked s.dev (chanCur s.dev n) = false ∧
        (isHost (chanCur s.dev n) = false ∨ 64 ≤ host.length) ∧ (parseDesc (spaceLoad s.dev (chanCur s.dev n) 64 host)).own = false ∧
        s.dev.get (F.BEAVER_CH_n_STATUS_DB_PENDING n) = 0) ∧
    (∃ (s : State) (n : Fin 32) (host : List Byte), s.dev.Up ∧ s.dev.unitState (.beaver n) = stOn ∧ s.dev.beaver.chans.get n = {} ∧
        chanClassD s.dev n = false ∧ hasPart s.dev (.beaverCh n) = false ∧ s.dev.cfg (F.BEAVER_CH_n_CFG_HOP_LIMIT n) = 0 ∧
        schedNames s.dev n = false ∧ spaceReadable s.dev (chanCur s.dev n) 64 = true ∧ hostBlocked s.dev (chanCur s.dev n) = false ∧
        (isHost (chanCur s.dev n) = false ∨ 64 ≤ host.length) ∧ (parseDesc (spaceLoad s.dev (chanCur s.dev n) 64 host)).own = true ∧
        descCode (parseDesc (spaceLoad s.dev (chanCur s.dev n) 64 host)) (reservedZero (spaceLoad s.dev (chanCur s.dev n) 64 host)) false =
        0 ∧ extentCode s.dev (parseDesc (spaceLoad s.dev (chanCur s.dev n) 64 host)) = 0) ∧
    (∃ (s : State) (n : Fin 32) (ready : BitVec 32) (x : DmaDesc), s.dev.Up ∧ dmaWinner s.dev ready = some n ∧
        (s.dev.beaver.chans.get n).desc = some x ∧ (s.dev.beaver.chans.get n).block = none ∧ (s.dev.beaver.chans.get n).aborting = false ∧
        x.xform = 0 ∧ x.srcCount = 1 ∧ x.dstCount = 1 ∧ x.srcLine = x.dstLine ∧ x.dst < x.src ∧ x.src + x.dstLine ≤ 2 ^ 48 ∧
        (s.dev.beaver.chans.get n).done < x.dstLine ∧ chanClassD s.dev n = false ∧ (∀ m, (s.dev.ddr.chans.get m).poison = []) ∧
        spaceWritable s.dev (x.dst + ((s.dev.beaver.chans.get n).done)) (min (64 - (x.dst + ((s.dev.beaver.chans.get n).done)) % 64) (x.dstLine - ((s.dev.beaver.chans.get n).done))) =
        true ∧ spaceReadable s.dev (x.src + ((s.dev.beaver.chans.get n).done)) 1 = true) ∧
    (∃ (d : Dev) (ready : BitVec 32) (n : Fin 32) (m : Fin 32), dmaWinner d ready = some n ∧ d.beaver.urgent = [] ∧
        ready.getLsbD m.val = true ∧ chanMoving d m = true ∧ waitsForHost d m = false ∧ (chanClassD d m = false →
        (readsCapture d m && captureBusy d) = false) ∧ chanClassD d m = true) ∧
    (∃ (d : Dev) (ready : BitVec 32) (n : Fin 32) (m : Fin 32), dmaWinner d ready = some n ∧ d.beaver.urgent = [] ∧
        ready.getLsbD m.val = true ∧ chanMoving d m = true ∧ waitsForHost d m = false ∧ (chanClassD d m = false →
        (readsCapture d m && captureBusy d) = false) ∧ chanClassD d m = chanClassD d n) ∧
    (∃ (s : State) (n : Fin 32) (x : DmaDesc), s.dev.Up ∧ (s.dev.beaver.chans.get n).desc = some x ∧
        (s.dev.beaver.chans.get n).wb = some 0 ∧ (s.dev.beaver.chans.get n).blockPipe = none ∧ x.ctrl < 2 ^ 32 ∧ x.last = true ∧
        x.ev = true ∧ schedNames s.dev n = false ∧ s.dev.unitState (.beaver n) ≠ stAborting ∧ chanCur s.dev n + 64 ≤ 2 ^ 63 ∧
        spaceWritable s.dev (chanCur s.dev n) 64 = true ∧ spaceWritable s.dev (chanCur s.dev n) 4 = true ∧
        spaceWritable s.dev (chanCur s.dev n + 0x38) 8 = true) :=
  ⟨⟨st ((channel {}).put (F.BEAVER_CH_n_STATUS_RUN 31) 0), 31, 0xF00030200400, ⟨rfl, rfl, rfl, rfl, rfl⟩, by decide +kernel⟩,
   ⟨st (up.given (F.BEAVER_CH_n_CFG_EN 31) 0), 31, ⟨rfl, rfl, rfl, rfl, rfl⟩, by decide +kernel⟩,
   ⟨st (channel {}), 31, ⟨rfl, rfl, rfl, rfl, rfl⟩, by decide +kernel⟩,
   ⟨st ((channel {}).put (F.BEAVER_CH_n_STATUS_RUN 31) 0), 31, ⟨rfl, rfl, rfl, rfl, rfl⟩, by decide +kernel⟩,
   ⟨st ((channel {}).put (F.BEAVER_CH_n_STATUS_RUN 31) 2), 31, ⟨rfl, rfl, rfl, rfl, rfl⟩, by decide +kernel⟩,
   ⟨st (channel {}), 31, (.beaverAbort, 0x110A), ⟨rfl, rfl, rfl, rfl, rfl⟩, by decide +kernel⟩,
   ⟨st (channel {}), 31, 2 ^ 40, ⟨rfl, rfl, rfl, rfl, rfl⟩, by decide +kernel⟩,
   ⟨st (channel { desc := some desc }), 31, 2 ^ 40, ⟨rfl, rfl, rfl, rfl, rfl⟩, by decide +kernel⟩,
   ⟨st (described 0 1), 31, [], ⟨rfl, rfl, rfl, rfl, rfl⟩, by decide +kernel⟩,
   ⟨st (described 0 0), 31, [], ⟨rfl, rfl, rfl, rfl, rfl⟩, by decide +kernel⟩,
   ⟨st (described (2 ^ 31) 0), 31, [], ⟨rfl, rfl, rfl, rfl, rfl⟩, by decide +kernel⟩,
   ⟨st (channel { desc := some desc }), 31, BitVec.allOnes 32, desc, ⟨rfl, rfl, rfl, rfl, rfl⟩, by decide +kernel⟩,
   ⟨(channel { desc := some desc }).put (F.BEAVER_CH_n_STATUS_CLASS_D 31) 1, BitVec.allOnes 32, 31, 31, by decide +kernel⟩,
   ⟨channel { desc := some desc }, BitVec.allOnes 32, 31, 31, by decide +kernel⟩,
   ⟨st (channel { desc := some { desc with ctrl := 2 ^ 31 + 2 ^ 30 + 2 ^ 29 }, wb := some 0, done := 100 }), 31,
       { desc with ctrl := 2 ^ 31 + 2 ^ 30 + 2 ^ 29 }, ⟨rfl, rfl, rfl, rfl, rfl⟩, by decide +kernel⟩⟩

theorem witness_DmaSchedules :
    (∃ (s : State) (n : Fin 32) (x : DmaDesc) (o : BadgerOut), s.dev.Up ∧ (s.dev.beaver.chans.get n).desc = some x ∧ x.xform = 4 ∧
        (s.dev.beaver.chans.get n).wb = none ∧ (s.dev.beaver.chans.get n).block = none ∧ s.dev.badger.outQ = [o] ∧ o.chan = n.val ∧
        o.bytes.length ≤ x.dstLen) ∧
    (∃ (s : State) (n : Fin 32) (x : DmaDesc) (o : BadgerOut), s.dev.Up ∧ (s.dev.beaver.chans.get n).desc = some x ∧ x.xform = 4 ∧
        (s.dev.beaver.chans.get n).wb = none ∧ (s.dev.beaver.chans.get n).block = none ∧ s.dev.badger.outQ = [o] ∧ o.chan = n.val ∧
        x.dstLen < o.bytes.length ∧ chanClassD s.dev n = false) ∧
    (∃ (s : State) (num : BitVec 12) (n : Fin 32), s.dev.Up ∧ s.dev.beaver.sched.on = true ∧ s.dev.beaver.sched.done = false ∧
        schedEvent s.dev s.dev.beaver.sched.off s.dev.beaver.sched.step = num.toNat ∧ num ≠ 0 ∧
        schedChannel s.dev s.dev.beaver.sched.off s.dev.beaver.sched.step = n.val ∧ s.dev.beaver.sched.running = true ∧
        s.dev.beaver.sched.waiting < 65535) ∧
    (∃ (s : State) (num : BitVec 12) (n : Fin 32), s.dev.Up ∧ s.dev.beaver.sched.on = true ∧ s.dev.beaver.sched.done = false ∧
        schedEvent s.dev s.dev.beaver.sched.off s.dev.beaver.sched.step = num.toNat ∧ num ≠ 0 ∧
        schedChannel s.dev s.dev.beaver.sched.off s.dev.beaver.sched.step = n.val ∧ s.dev.beaver.sched.running = false ∧
        s.dev.beaver.sched.waiting = 0 ∧ chanRun s.dev n = runSched ∧ s.dev.unitState (.beaver n) = stOff) ∧
    (∃ (s : State) (n : Fin 32), s.dev.Up ∧ (s.dev.beaver.chans.get n).runDone = true ∧ s.dev.beaver.sched.on = true ∧
        s.dev.beaver.sched.running = true ∧ s.dev.beaver.sched.rearm = false ∧ hasPart s.dev (.beaverCh n) = false ∧
        schedRepeat s.dev s.dev.beaver.sched.off s.dev.beaver.sched.step = s.dev.beaver.sched.run + 1 ∧
        bitsOf (schedFlags s.dev s.dev.beaver.sched.off s.dev.beaver.sched.step) 0 0 = 1) :=
  ⟨⟨st { channel { desc := some { desc with ctrl := 2 ^ 31 + 4 * 2 ^ 24 } } with badger := { outQ := [⟨2, 31, List.replicate 100 7⟩] } },
      31, { desc with ctrl := 2 ^ 31 + 4 * 2 ^ 24 }, ⟨2, 31, List.replicate 100 7⟩, ⟨rfl, rfl, rfl, rfl, rfl⟩, by decide +kernel⟩,
   ⟨st { channel { desc := some { desc with ctrl := 2 ^ 31 + 4 * 2 ^ 24 } } with badger := { outQ := [⟨2, 31, List.replicate 101 7⟩] } },
       31, { desc with ctrl := 2 ^ 31 + 4 * 2 ^ 24 }, ⟨2, 31, List.replicate 101 7⟩, ⟨rfl, rfl, rfl, rfl, rfl⟩, by decide +kernel⟩,
   ⟨st (scheduled { running := true }), 0x123, 31, ⟨rfl, rfl, rfl, rfl, rfl⟩, by decide +kernel⟩,
   ⟨st ((scheduled {}).put (F.BEAVER_CH_n_STATUS_RUN 31) 3 |>.setUnit (.beaver 31) stOff), 0x123, 31, ⟨rfl, rfl, rfl, rfl, rfl⟩,
       by decide +kernel⟩,
   ⟨st ((scheduled { running := true, run := 1 }).setChan 31 { runDone := true }), 31, ⟨rfl, rfl, rfl, rfl, rfl⟩, by decide +kernel⟩⟩

theorem witness_RingPorts :
    (∃ (s : State) (p : Port), s.dev.Up ∧ joined s.dev p.pair = true ∧ portUp s.dev p = false ∧ quarantined s.dev p = false ∧
        (s.dev.port p).level ≠ none ∧ neighbourFault s.dev p = 0 ∧ pairRing s.dev p.pair ≠ rFolded ∧
        s.dev.cfgB (F.IFL_x_CFG_ASYM_SRC p.pair) = true) ∧
    (∃ (s : State) (p : Port) (q : Port), s.dev.Up ∧ portUp s.dev p = true ∧ timePort s.dev = some q ∧ q ≠ p) ∧
    (∃ (s : State) (p : Port) (f : LinkFlit) (bad : Nat), s.dev.Up ∧ (s.dev.port p).badAt = [] ∧ bad < 1024 ∧ joined s.dev p.pair = true ∧
        portUp s.dev p = false ∧ quarantined s.dev p = false ∧ f.valid = true ∧ f.addr < 2 ^ 18 ∧
        ringUpper p.pair f.addr = ringUpper p.pair (ownAddr s.dev) ∧ ringIndex p.pair f.addr ≠ ringIndex p.pair (ownAddr s.dev)) ∧
    (∃ (s : State) (p : Port), s.dev.Up ∧ joined s.dev p.pair = true ∧ (s.dev.port p).foldDue = true) ∧
    (∃ (s : State) (p : Port), s.dev.Up ∧ joined s.dev p.pair = true ∧ portUp s.dev p = true ∧ (s.dev.port p).hold = true) ∧
    (∃ (s : State) (x : Fin 3), ∃ c, s.dev.Up ∧ joined s.dev x = true ∧ c ∈ [(Instr.quarW x, Port.of x false), (Instr.quarE x,
        Port.of x true)] ∧ quarantined s.dev c.2 = false ∧ portUp s.dev c.2 = false) ∧
    (∃ (s : State) (x : Fin 3), ∃ c, s.dev.Up ∧ c ∈ [(Instr.releaseW x, Port.of x false), (Instr.releaseE x, Port.of x true)] ∧
        quarantined s.dev c.2 = true) :=
  ⟨⟨st ((port 2 false { level := some 1 }).given (F.IFL_x_CFG_ASYM_SRC 1) 1 |>.wr (Port.nbr 2) 0x80000201), 2, ⟨rfl, rfl, rfl, rfl, rfl⟩,
      by decide +kernel⟩,
   ⟨st ((port 3 true { hold := true }).put F.IFL_STATUS_TIME_PORT 5), 3, 5, ⟨rfl, rfl, rfl, rfl, rfl⟩, by decide +kernel⟩,
   ⟨st (port 2 false {}), 2, ⟨1, 513, true, true, 77, 5, 6, -3⟩, 1023, ⟨rfl, rfl, rfl, rfl, rfl⟩, by decide +kernel⟩,
   ⟨st (port 2 false { foldDue := true }), 2, ⟨rfl, rfl, rfl, rfl, rfl⟩, by decide +kernel⟩,
   ⟨st (port 2 true { hold := true }), 2, ⟨rfl, rfl, rfl, rfl, rfl⟩, by decide +kernel⟩,
   ⟨st (port 2 false {}), 1, (.quarE 1, Port.of 1 true), ⟨rfl, rfl, rfl, rfl, rfl⟩, by decide +kernel⟩,
   ⟨st ((port 2 true {}).put (Port.reason 2) 4), 1, (.releaseW 1, Port.of 1 false), ⟨rfl, rfl, rfl, rfl, rfl⟩, by decide +kernel⟩⟩

theorem witness_RingTime :
    (∃ (s : State) (p : Port) (idx : Fin 256), s.dev.Up ∧ carries s.dev p = true ∧ carries s.dev p.other = true ∧
        idx.val < ringIndex p.pair (ownAddr s.dev) ∧ lowestHeard s.dev p.pair = none ∧ timePort s.dev ≠ some p) ∧
    (∃ (s : State) (p : Port), s.dev.Up ∧ timePort s.dev = some p ∧ carries s.dev p = true ∧ (s.dev.port p).annAge = some 0 ∧ (∀ x,
        joined s.dev x = true ↔ x = p.pair) ∧ s.dev.ifl.heard.get p.pair = true ∧ s.dev.ifl.since.get p.pair ≤ 1 ∧ s.dev.ifl.better = 0 ∧
        s.dev.ifl.req = none ∧ s.dev.ifl.accepted = false) ∧
    (∃ (s : State) (p : Port), s.dev.Up ∧ carries s.dev p = true) ∧
    (∃ (s : State) (p : Port) (t1 : TS) (t2 : TS) (t3 : TS) (t4 : TS), s.dev.Up ∧ carries s.dev p = true ∧ timePort s.dev = some p ∧
        s.dev.ifl.req = some t1 ∧ s.dev.ifl.offsets = [] ∧ s.dev.ifl.present = false ∧ s.dev.ifl.run = 0 ∧
        (t4.toNat : Int) - t1.toNat ≤ 256 * 2 ^ 32 ∧ 0 ≤ ((((t2.toNat : Int) - t1.toNat) + ((t4.toNat : Int) - t3.toNat)) / 2) ∧
        ((((t2.toNat : Int) - t1.toNat) + ((t4.toNat : Int) - t3.toNat)) / 2) ≤ 2 ^ 48) ∧
    (∃ (s : State) (p : Port) (seq : BitVec 16) (t1 : TS), s.dev.Up ∧ carries s.dev p = true ∧ timePort s.dev = some p ∧
        s.dev.ifl.req = some t1 ∧ seq ≠ s.dev.ifl.reqSeq ∧ s.dev.ifl.rejects < 15 ∧ s.dev.ifl.missed < 3) ∧
    (∃ (s : State) (x : Fin 3), ∃ c, s.dev.Up ∧ joined s.dev x = true ∧ s.dev.cfgB (F.IFL_x_CFG_ASYM_SRC x) = false ∧
        c ∈ [(Instr.asymCalW x, Port.of x false), (Instr.asymCalE x, Port.of x true)] ∧ portUp s.dev c.2 = true ∧
        (s.dev.port c.2).measuring = false) ∧
    (∃ (s : State) (p : Port), s.dev.Up ∧ joined s.dev p.pair = true ∧ quarantined s.dev p = false ∧ (s.dev.port p).honoured = none) ∧
    (∃ (s : State) (p : Port) (tx : Int), s.dev.Up ∧ (s.dev.port p).measuring = true ∧ (s.dev.port p).acked = true ∧
        (s.dev.port p).prevA = none ∧ (tx - (s.dev.port p).nbrTxDly).natAbs * 25 ≤ 65536 ∧
        s.dev.cfgB (F.IFL_x_CFG_ASYM_SRC p.pair) = false) ∧
    (∃ (s : State) (p : Port) (tx : Int), s.dev.Up ∧ (s.dev.port p).measuring = true ∧ (s.dev.port p).acked = true ∧
        (s.dev.port p).prevA = none ∧ 65536 < (tx - (s.dev.port p).nbrTxDly).natAbs * 25) ∧
    (∃ (s : State) (p : Port), s.dev.Up ∧ (s.dev.port p).measuring = true ∧ (s.dev.port p).acked = false) :=
  ⟨⟨st (ring1 {}), 2, 6, ⟨rfl, rfl, rfl, rfl, rfl⟩, by decide +kernel⟩,
   ⟨st { (ring1 { annAge := some 0 }).put F.IFL_STATUS_TIME_PORT 2 with ifl := { (ring1 { annAge := some 0 }).ifl with heard := Vector.replicate 3 true } },
       2, ⟨rfl, rfl, rfl, rfl, rfl⟩, by decide +kernel⟩,
   ⟨st (ring1 {}), 2, ⟨rfl, rfl, rfl, rfl, rfl⟩, by decide +kernel⟩,
   ⟨st { (ring1 {}).put F.IFL_STATUS_TIME_PORT 2 |>.efw (Port.asym 2) 0 with ifl := { (ring1 {}).ifl with req := some 1000 } }, 2, 1000,
       1100, 1200, 1290, ⟨rfl, rfl, rfl, rfl, rfl⟩, by decide +kernel⟩,
   ⟨st { (ring1 {}).put F.IFL_STATUS_TIME_PORT 2 with ifl := { (ring1 {}).ifl with req := some 1000, reqSeq := 6 } }, 2, 7, 1000, ⟨rfl,
       rfl, rfl, rfl, rfl⟩, by decide +kernel⟩,
   ⟨st ((ring1 {}).given (F.IFL_x_CFG_ASYM_SRC 1) 0), 1, (.asymCalE 1, Port.of 1 true), ⟨rfl, rfl, rfl, rfl, rfl⟩, by decide +kernel⟩,
   ⟨st (ring1 {}), 2, ⟨rfl, rfl, rfl, rfl, rfl⟩, by decide +kernel⟩,
   ⟨st ((ring1 { measuring := true, acked := true, nbrTxDly := -622 }).given (F.IFL_x_CFG_ASYM_SRC 1) 0), 2, 1999, ⟨rfl, rfl, rfl, rfl,
       rfl⟩, by decide +kernel⟩,
   ⟨st (ring1 { measuring := true, acked := true, nbrTxDly := -622 }), 2, 2000, ⟨rfl, rfl, rfl, rfl, rfl⟩, by decide +kernel⟩,
   ⟨st (ring1 { measuring := true }), 2, ⟨rfl, rfl, rfl, rfl, rfl⟩, by decide +kernel⟩⟩

theorem witness_RingMessages :
    (∃ (s : State), s.dev.Up ∧
        TS.ticks (BitVec.ofNat 96 ((s.dev.rd (R.IFL_SCHED_TS 0)).toNat + 2 ^ 32 * (s.dev.rd (R.IFL_SCHED_TS 1)).toNat + 2 ^ 64 * (s.dev.rd (R.IFL_SCHED_TS 2)).toNat)) < nowTick s.dev + s.dev.cfg F.IFL_SCHED_LEAD_MIN_LEAD) ∧
    (∃ (s : State), s.dev.Up ∧
        nowTick s.dev + s.dev.cfg F.IFL_SCHED_LEAD_MIN_LEAD ≤ TS.ticks (BitVec.ofNat 96 ((s.dev.rd (R.IFL_SCHED_TS 0)).toNat + 2 ^ 32 * (s.dev.rd (R.IFL_SCHED_TS 1)).toNat + 2 ^ 64 * (s.dev.rd (R.IFL_SCHED_TS 2)).toNat)) ∧
        TS.ticks (BitVec.ofNat 96 ((s.dev.rd (R.IFL_SCHED_TS 0)).toNat + 2 ^ 32 * (s.dev.rd (R.IFL_SCHED_TS 1)).toNat + 2 ^ 64 * (s.dev.rd (R.IFL_SCHED_TS 2)).toNat)) ≤ nowTick s.dev + 2 ^ 32 ∧
        s.dev.ifl.sched = none ∧ joined s.dev 0 = true ∧
        inScope (ownAddr s.dev) (s.dev.get F.IFL_SCHED_DEST_VALUE) (s.dev.get F.IFL_SCHED_MASK_VALUE) = false) ∧
    (∃ (s : State) (p : Port) (h : RouteHead) (ts : TS), s.dev.Up ∧ carries s.dev p = true ∧ 0 < (s.dev.port p).tokens ∧ (∀ x,
        joined s.dev x = true ↔ x = p.pair) ∧ carries s.dev p.other = true ∧ h.looped = true ∧ singleScope h.mask = true ∧
        inScope (ownAddr s.dev) h.dest h.mask = false ∧ nowTick s.dev ≤ TS.ticks ts ∧ TS.ticks ts ≤ nowTick s.dev + 2 ^ 32) ∧
    (∃ (s : State) (p : Port), s.dev.Up ∧ (s.dev.port p).rated = false ∧ (s.dev.port p).ratedAt = []) ∧
    (∃ (s : State), s.dev.Up ∧ joined s.dev 0 = false) ∧
    (∃ (s : State) (k : Nat), s.dev.Up ∧ joined s.dev 0 = true ∧ joined s.dev 1 = false ∧ s.dev.ifl.sends = [] ∧
        (s.dev.rd64 R.IFL_TX_ADDR_LO / 64 * 64) < 2 ^ 63 ∧ noHole s.dev (s.dev.rd64 R.IFL_TX_ADDR_LO / 64 * 64) 64 = true ∧
        frameFormOk (s.dev.loadBytes (s.dev.rd64 R.IFL_TX_ADDR_LO / 64 * 64) 64) = true ∧
        frameType (s.dev.loadBytes (s.dev.rd64 R.IFL_TX_ADDR_LO / 64 * 64) 64) = 1 ∧
        noHole s.dev (s.dev.rd64 R.IFL_TX_ADDR_LO / 64 * 64) (64 + frameLen (s.dev.loadBytes (s.dev.rd64 R.IFL_TX_ADDR_LO / 64 * 64) 64)) =
        true ∧ frameField (s.dev.loadBytes (s.dev.rd64 R.IFL_TX_ADDR_LO / 64 * 64) 64) 8 4 = 0x3FFFF ∧ pairRing s.dev 0 ≠ rFolded ∧
        carries s.dev (Port.of 0 true) = true ∧ hopMeasured s.dev (Port.of 0 false) = false ∧ 1 ≤ k ∧ k ≤ 31 ∧
        ringUpper 0 (frameField (s.dev.loadBytes (s.dev.rd64 R.IFL_TX_ADDR_LO / 64 * 64) 64) 4 4) = ringUpper 0 (ownAddr s.dev) ∧
        ringIndex 0 (frameField (s.dev.loadBytes (s.dev.rd64 R.IFL_TX_ADDR_LO / 64 * 64) 64) 4 4) =
        (ringIndex 0 (ownAddr s.dev) + k) % 64) ∧
    (∃ (s : State) (p : Port) (f : IflFrame), s.dev.Up ∧ carries s.dev p = true ∧ (s.dev.port p).queue = [f] ∧ f.own = none ∧
        (s.dev.port p).sent = (s.dev.port p).returned ∧ frameFlits f.bytes ≤ 256) ∧
    (∃ (s : State) (p : Port) (bytes : List Byte), s.dev.Up ∧ carries s.dev p = true ∧ bytes.length ≠ 68 + frameLen bytes) ∧
    (∃ (s : State) (p : Port) (bytes : List Byte), s.dev.Up ∧ carries s.dev p = true ∧ bytes.length = 68 + frameLen bytes ∧
        leNat (bytes.drop (64 + frameLen bytes)) = (crc32 (bytes.take (64 + frameLen bytes))).toNat ∧
        frameFormOk (bytes.take (64 + frameLen bytes)) = true ∧ frameType (bytes.take (64 + frameLen bytes)) = 1 ∧
        frameField (bytes.take (64 + frameLen bytes)) 1 1 = 1 ∧ frameField (bytes.take (64 + frameLen bytes)) 0x0C 4 < 2 ^ 18 ∧
        frameField (bytes.take (64 + frameLen bytes)) 0x18 1 = 0 ∧ frameField (bytes.take (64 + frameLen bytes)) 0x20 16 = 0 ∧
        frameField (bytes.take (64 + frameLen bytes)) 8 4 = 0x3FFFF ∧ frameField (bytes.take (64 + frameLen bytes)) 4 4 = ownAddr s.dev ∧
        s.dev.rd R.IFL_RX_RD = s.dev.rd R.IFL_RX_WR ∧
        inDramOrData s.dev (s.dev.cf64 R.IFL_RX_BASE_LO + 2048 * ((s.dev.rd R.IFL_RX_WR).toNat % 2 ^ s.dev.cfg F.IFL_RX_CFG_SIZE_LOG)) 2048 =
        true ∧ s.dev.ddr.span ≤ dramEnd) ∧
    (∃ (s : State) (p : Port) (k : Nat) (f : IflFrame), s.dev.Up ∧ (s.dev.port p).queue[k]? = some f ∧ f.own = none ∧
        carries s.dev p = false) :=
  ⟨⟨st (up.given F.IFL_SCHED_LEAD_MIN_LEAD 200 |>.wr (R.IFL_SCHED_TS 1) 199), ⟨rfl, rfl, rfl, rfl, rfl⟩, by decide +kernel⟩,
   ⟨st (up.given F.IFL_SCHED_LEAD_MIN_LEAD 200 |>.wr (R.IFL_SCHED_TS 1) 200 |>.put (F.IFL_x_STATUS_BYPASS 0) 0 |>.given F.IFL_ADDR_ADDR 449 |>.put F.IFL_SCHED_DEST_VALUE 9 |>.put F.IFL_SCHED_MASK_VALUE 0x3FFFF),
       ⟨rfl, rfl, rfl, rfl, rfl⟩, by decide +kernel⟩,
   ⟨st (ring1 { tokens := 1 }), 2, route, mkTS (2 ^ 32), ⟨rfl, rfl, rfl, rfl, rfl⟩, by decide +kernel⟩,
   ⟨st (ring1 {}), 2, ⟨rfl, rfl, rfl, rfl, rfl⟩, by decide +kernel⟩,
   ⟨st up, ⟨rfl, rfl, rfl, rfl, rfl⟩, by decide +kernel⟩,
   ⟨st ({ (((up.put (F.IFL_x_STATUS_BYPASS 0) 0).given F.IFL_ADDR_ADDR 449).put (Port.up 1) 1).storeBytes 4096 (message 1 480) with ddr := { up.ddr with span := 2 ^ 30 } }.wr R.IFL_TX_ADDR_LO 4100),
       31, ⟨rfl, rfl, rfl, rfl, rfl⟩, by decide +kernel⟩,
   ⟨st (ring1 { queue := [⟨message 1 5, none, true, false⟩], sent := 65535, returned := 65535 }), 2, ⟨message 1 5, none, true, false⟩,
       ⟨rfl, rfl, rfl, rfl, rfl⟩, by decide +kernel⟩,
   ⟨st (ring1 {}), 2, message 1 449, ⟨rfl, rfl, rfl, rfl, rfl⟩, by decide +kernel⟩,
   ⟨st ({ ring1 {} with ddr := { up.ddr with span := 2 ^ 30 } }.given F.IFL_RX_CFG_SIZE_LOG 4 |>.efw R.IFL_RX_BASE_LO 1048576), 2,
       message 1 449 ++ leBytes 4 (crc32 (message 1 449)).toNat, ⟨rfl, rfl, rfl, rfl, rfl⟩, by decide +kernel⟩,
   ⟨st (port 2 false { queue := [⟨message 1 5, none, true, false⟩] }), 2, 0, ⟨message 1 5, none, true, false⟩, ⟨rfl, rfl, rfl, rfl, rfl⟩,
       by decide +kernel⟩⟩

theorem witness_SecurityCommandStarts :
    (∃ (s : State), ∃ c, s.dev.Up ∧ c ∈ [(Instr.getCert, 1), (.attest, 2), (.prgVerify, 3), (.prgUnlock, 4), (.prgCommitSvn, 5),
        (.fwUpdate, 6), (.fwCommit, 7), (.enroll, 8), (.revoke, 9), (.lcAdvance, 10), (.debugLock, 11), (.ringKey, 12), (.calEpoch, 13),
        (.sealFlush, 14)] ∧ s.dev.get F.HEDGE_STATUS_BUSY = 1) ∧
    (∃ (s : State), ∃ c, s.dev.Up ∧ c ∈ [(Instr.getCert, 1), (.attest, 2), (.prgVerify, 3), (.prgUnlock, 4), (.prgCommitSvn, 5),
        (.fwUpdate, 6), (.fwCommit, 7), (.enroll, 8), (.revoke, 9), (.lcAdvance, 10), (.debugLock, 11), (.ringKey, 12), (.calEpoch, 13),
        (.sealFlush, 14)] ∧ s.dev.get F.HEDGE_STATUS_BUSY = 0) :=
  ⟨⟨st (up.put F.HEDGE_STATUS_BUSY 1), (.sealFlush, 14), ⟨rfl, rfl, rfl, rfl, rfl⟩, by decide +kernel⟩,
   ⟨st up, (.ringKey, 12), ⟨rfl, rfl, rfl, rfl, rfl⟩, by decide +kernel⟩⟩

theorem witness_SecurityMemoryCommands :
    (∃ (s : State) (c : HedgeCmd), s.dev.Up ∧ s.dev.hedge.cmd = some c ∧ s.dev.get F.HEDGE_STATUS_RECOVERY = 0 ∧ c.addr % 64 = 0 ∧
        s.dev.ddr.span ≤ dramEnd ∧ c.op ∈ [1, 2, 6, 8, 12]) ∧
    (∃ (s : State) (c : HedgeCmd), s.dev.Up ∧ s.dev.hedge.cmd = some c ∧ s.dev.get F.HEDGE_STATUS_RECOVERY = 0 ∧ c.addr % 64 = 0 ∧
        s.dev.ddr.span ≤ dramEnd ∧ c.op = 3) ∧
    (∃ (s : State) (c : HedgeCmd), s.dev.Up ∧ s.dev.hedge.cmd = some c ∧ s.dev.get F.HEDGE_STATUS_RECOVERY = 0 ∧ c.addr % 64 = 0 ∧
        s.dev.ddr.span ≤ dramEnd ∧ c.op = 1 ∧ c.arg = 1 ∧ canWrite s.dev c.addr 5472 = true) ∧
    (∃ (s : State) (c : HedgeCmd), s.dev.Up ∧ s.dev.hedge.cmd = some c ∧ s.dev.get F.HEDGE_STATUS_RECOVERY = 0 ∧ c.addr % 64 = 0 ∧
        s.dev.ddr.span ≤ dramEnd ∧ c.op = 2 ∧ noHole s.dev c.addr 64 = true ∧ canWrite s.dev (c.addr + 64) 3712 = true) ∧
    (∃ (s : State) (c : HedgeCmd), s.dev.Up ∧ s.dev.hedge.cmd = some c ∧ s.dev.get F.HEDGE_STATUS_RECOVERY = 0 ∧ c.addr % 64 = 0 ∧
        s.dev.ddr.span ≤ dramEnd ∧ c.op = 6 ∧ noHole s.dev c.addr 64 = true) ∧
    (∃ (s : State) (c : HedgeCmd), s.dev.Up ∧ s.dev.hedge.cmd = some c ∧ s.dev.get F.HEDGE_STATUS_RECOVERY = 0 ∧ c.addr % 64 = 0 ∧
        s.dev.ddr.span ≤ dramEnd ∧ c.op = 12 ∧ c.arg < 2 ∧ canWrite s.dev c.addr 32 = true ∧ regionOf s.dev c.addr ≠ some .program) :=
  ⟨⟨st (commanded 12 1 64), ⟨12, 1, 64, []⟩, ⟨rfl, rfl, rfl, rfl, rfl⟩, by decide +kernel⟩,
   ⟨st (commanded 3 1 64), ⟨3, 1, 64, []⟩, ⟨rfl, rfl, rfl, rfl, rfl⟩, by decide +kernel⟩,
   ⟨st (commanded 1 1 64), ⟨1, 1, 64, []⟩, ⟨rfl, rfl, rfl, rfl, rfl⟩, by decide +kernel⟩,
   ⟨st (commanded 2 1 64), ⟨2, 1, 64, []⟩, ⟨rfl, rfl, rfl, rfl, rfl⟩, by decide +kernel⟩,
   ⟨st (commanded 6 1 64), ⟨6, 1, 64, []⟩, ⟨rfl, rfl, rfl, rfl, rfl⟩, by decide +kernel⟩,
   ⟨st (commanded 12 1 64), ⟨12, 1, 64, []⟩, ⟨rfl, rfl, rfl, rfl, rfl⟩, by decide +kernel⟩⟩

theorem witness_SecurityFuseCommands :
    (∃ (s : State) (c : HedgeCmd), s.dev.Up ∧ s.dev.hedge.cmd = some c ∧ s.dev.get F.HEDGE_STATUS_RECOVERY = 0 ∧ c.addr % 64 = 0 ∧
        s.dev.hedge.fwCtr ≤ 64 ∧ s.dev.hedge.prgCtr ≤ 64 ∧ s.dev.hedge.calCtr ≤ 64 ∧ c.op = 4) ∧
    (∃ (s : State) (c : HedgeCmd), ∃ n, ∃ f, s.dev.Up ∧ s.dev.hedge.cmd = some c ∧ s.dev.get F.HEDGE_STATUS_RECOVERY = 0 ∧
        c.addr % 64 = 0 ∧ s.dev.hedge.fwCtr ≤ 64 ∧ s.dev.hedge.prgCtr ≤ 64 ∧ s.dev.hedge.calCtr ≤ 64 ∧ c.op = 7 ∧
        s.dev.hedge.running = some n ∧ s.dev.hedge.slots.get n = some f ∧ f.trial = true ∧ f.svn ≤ 64) ∧
    (∃ (s : State) (c : HedgeCmd) (n : Fin 4), s.dev.Up ∧ s.dev.hedge.cmd = some c ∧ s.dev.get F.HEDGE_STATUS_RECOVERY = 0 ∧
        c.addr % 64 = 0 ∧ s.dev.hedge.fwCtr ≤ 64 ∧ s.dev.hedge.prgCtr ≤ 64 ∧ s.dev.hedge.calCtr ≤ 64 ∧ c.op = 8 ∧ c.arg % 8 = n.val + 1 ∧
        lifecycle s.dev ≠ 3 ∧ (s.dev.hedge.owners.get n).fused = none ∧ noHole s.dev c.addr 1984 = true ∧ s.dev.hedge.lc = 1) ∧
    (∃ (s : State) (c : HedgeCmd) (n : Fin 4), s.dev.Up ∧ s.dev.hedge.cmd = some c ∧ s.dev.get F.HEDGE_STATUS_RECOVERY = 0 ∧
        c.addr % 64 = 0 ∧ s.dev.hedge.fwCtr ≤ 64 ∧ s.dev.hedge.prgCtr ≤ 64 ∧ s.dev.hedge.calCtr ≤ 64 ∧ c.op = 8 ∧ c.arg % 8 = n.val + 1 ∧
        lifecycle s.dev ≠ 3 ∧ (s.dev.hedge.owners.get n).fused.isSome = true) ∧
    (∃ (s : State) (c : HedgeCmd) (n : Fin 4), s.dev.Up ∧ s.dev.hedge.cmd = some c ∧ s.dev.get F.HEDGE_STATUS_RECOVERY = 0 ∧
        c.addr % 64 = 0 ∧ s.dev.hedge.fwCtr ≤ 64 ∧ s.dev.hedge.prgCtr ≤ 64 ∧ s.dev.hedge.calCtr ≤ 64 ∧ c.op = 9 ∧ c.arg % 8 = n.val + 1 ∧
        (lifecycle s.dev ≠ 3 ∨ usable s.dev (some n) true = true)) ∧
    (∃ (s : State) (c : HedgeCmd) (n : Fin 4), s.dev.Up ∧ s.dev.hedge.cmd = some c ∧ s.dev.get F.HEDGE_STATUS_RECOVERY = 0 ∧
        c.addr % 64 = 0 ∧ s.dev.hedge.fwCtr ≤ 64 ∧ s.dev.hedge.prgCtr ≤ 64 ∧ s.dev.hedge.calCtr ≤ 64 ∧ c.op = 9 ∧ c.arg % 8 = n.val + 1 ∧
        lifecycle s.dev = 3 ∧ usable s.dev (some n) true = false) ∧
    (∃ (s : State) (c : HedgeCmd), s.dev.Up ∧ s.dev.hedge.cmd = some c ∧ s.dev.get F.HEDGE_STATUS_RECOVERY = 0 ∧ c.addr % 64 = 0 ∧
        s.dev.hedge.fwCtr ≤ 64 ∧ s.dev.hedge.prgCtr ≤ 64 ∧ s.dev.hedge.calCtr ≤ 64 ∧ (c.op = 10 ∨ c.op = 11) ∧ confirmed c = false) ∧
    (∃ (s : State) (c : HedgeCmd), s.dev.Up ∧ s.dev.hedge.cmd = some c ∧ s.dev.get F.HEDGE_STATUS_RECOVERY = 0 ∧ c.addr % 64 = 0 ∧
        s.dev.hedge.fwCtr ≤ 64 ∧ s.dev.hedge.prgCtr ≤ 64 ∧ s.dev.hedge.calCtr ≤ 64 ∧ c.op = 10 ∧ confirmed c = true ∧ c.arg % 4 = 2 ∧
        s.dev.hedge.lc = 1 ∧ usable s.dev none false = true) ∧
    (∃ (s : State) (c : HedgeCmd), ∃ n, ∃ f, s.dev.Up ∧ s.dev.hedge.cmd = some c ∧ s.dev.get F.HEDGE_STATUS_RECOVERY = 0 ∧
        c.addr % 64 = 0 ∧ s.dev.hedge.fwCtr ≤ 64 ∧ s.dev.hedge.prgCtr ≤ 64 ∧ s.dev.hedge.calCtr ≤ 64 ∧ c.op = 7 ∧
        s.dev.hedge.running = some n ∧ s.dev.hedge.slots.get n = some f ∧ f.trial = true ∧ s.dev.hedge.fwCtr < min f.svn 64) ∧
    (∃ (s : State) (c : HedgeCmd), s.dev.Up ∧ s.dev.hedge.cmd = some c ∧ s.dev.get F.HEDGE_STATUS_RECOVERY = 0 ∧ c.addr % 64 = 0 ∧
        s.dev.hedge.fwCtr ≤ 64 ∧ s.dev.hedge.prgCtr ≤ 64 ∧ s.dev.hedge.calCtr ≤ 64 ∧ ((c.op = 13 ∧
        s.dev.hedge.calCtr < c.arg % 64) ∨ (c.op = 11 ∧ confirmed c = true ∧ s.dev.hedge.debugLock = false))) ∧
    (∃ (s : State) (c : HedgeCmd), s.dev.Up ∧ s.dev.hedge.cmd = some c ∧ s.dev.get F.HEDGE_STATUS_RECOVERY = 0 ∧ c.addr % 64 = 0 ∧
        s.dev.hedge.fwCtr ≤ 64 ∧ s.dev.hedge.prgCtr ≤ 64 ∧ s.dev.hedge.calCtr ≤ 64 ∧ c.op = 14) :=
  ⟨⟨st (commanded 4 1), ⟨4, 1, 0, []⟩, ⟨rfl, rfl, rfl, rfl, rfl⟩, by decide +kernel⟩,
   ⟨st (commanded 7 1 0 { running := some 1, slots := #v[none, some ⟨[1], 9, 0, true⟩] }), ⟨7, 1, 0, []⟩, 1, ⟨[1], 9, 0, true⟩, ⟨rfl, rfl,
       rfl, rfl, rfl⟩, by decide +kernel⟩,
   ⟨st (commanded 8 4), ⟨8, 4, 0, []⟩, 3, ⟨rfl, rfl, rfl, rfl, rfl⟩, by decide +kernel⟩,
   ⟨st (commanded 8 4 0 { owners := Vector.replicate 4 { fused := some [3] } }), ⟨8, 4, 0, []⟩, 3, ⟨rfl, rfl, rfl, rfl, rfl⟩,
       by decide +kernel⟩,
   ⟨st (commanded 9 4), ⟨9, 4, 0, []⟩, 3, ⟨rfl, rfl, rfl, rfl, rfl⟩, by decide +kernel⟩,
   ⟨st ((commanded 9 4).put F.HEDGE_STATUS_LC 3), ⟨9, 4, 0, []⟩, 3, ⟨rfl, rfl, rfl, rfl, rfl⟩, by decide +kernel⟩,
   ⟨st (commanded 10 ((Config.deviceId.toNat % 65536 + 1) * 65536)), _, ⟨rfl, rfl, rfl, rfl, rfl⟩, rfl, rfl, rfl,
       by decide, by decide, by decide, .inl rfl, no_confirmation 10 _ (another _)⟩,
   ⟨st (commanded 10 (Config.deviceId.toNat % 65536 * 65536 + 2) 0 { owners := Vector.replicate 4 { blob := some [3] } }), _, ⟨rfl, rfl,
       rfl, rfl, rfl⟩, rfl, rfl, rfl, by decide, by decide, by decide, rfl, confirmation 10, by dsimp only; exact asks_sealed _, rfl, rfl⟩,
   ⟨st (commanded 7 1 0 { running := some 1, slots := #v[none, some ⟨[1], 9, 0, true⟩] }), ⟨7, 1, 0, []⟩, 1, ⟨[1], 9, 0, true⟩, ⟨rfl, rfl,
       rfl, rfl, rfl⟩, by decide +kernel⟩,
   ⟨st (commanded 11 (Config.deviceId.toNat % 65536 * 65536 + 2)), _, ⟨rfl, rfl, rfl, rfl, rfl⟩, rfl, rfl, rfl,
       by decide, by decide, by decide, .inr ⟨rfl, confirmation 11, rfl⟩⟩,
   ⟨st (commanded 14 0), ⟨14, 0, 0, []⟩, ⟨rfl, rfl, rfl, rfl, rfl⟩, by decide +kernel⟩⟩

theorem witness_SecurityCountersRise :
    (∃ (s : State) (c : HedgeCmd), ∃ p, s.dev.Up ∧ s.dev.hedge.cmd = some c ∧ s.dev.get F.HEDGE_STATUS_RECOVERY = 0 ∧
        s.dev.hedge.fwCtr ≤ 64 ∧ s.dev.hedge.prgCtr ≤ 64 ∧ s.dev.hedge.calCtr ≤ 64 ∧ c.op = 5 ∧ s.dev.hedge.prg = some p) ∧
    (∃ (s : State) (c : HedgeCmd), s.dev.Up ∧ s.dev.hedge.cmd = some c ∧ s.dev.get F.HEDGE_STATUS_RECOVERY = 0 ∧ s.dev.hedge.fwCtr ≤ 64 ∧
        s.dev.hedge.prgCtr ≤ 64 ∧ s.dev.hedge.calCtr ≤ 64 ∧ c.op = 13) :=
  ⟨⟨st (commanded 5 0 0 { prg := some ⟨77, 0, []⟩, prgCtr := 64 }), ⟨5, 0, 0, []⟩, ⟨77, 0, []⟩, ⟨rfl, rfl, rfl, rfl, rfl⟩,
      by decide +kernel⟩,
   ⟨st (commanded 13 0), ⟨13, 0, 0, []⟩, ⟨rfl, rfl, rfl, rfl, rfl⟩, by decide +kernel⟩⟩

theorem witness_DebugLock :
    (∃ (s : State) (c : HedgeCmd), s.dev.Up ∧ s.dev.hedge.cmd = some c ∧ s.dev.get F.HEDGE_STATUS_RECOVERY = 0 ∧ c.op = 11 ∧
        c.arg / 65536 = Config.deviceId.toNat % 65536) ∧
    (∃ (s : State) (c : HedgeCmd), s.dev.Up ∧ s.dev.hedge.cmd = some c ∧ s.dev.get F.HEDGE_STATUS_RECOVERY = 0 ∧ c.op = 11 ∧
        c.arg / 65536 ≠ Config.deviceId.toNat % 65536) ∧
    (∃ t, t ∈ [TapInstr.bypass, .sample, .extest, .idcode]) :=
  ⟨⟨st (commanded 11 (Config.deviceId.toNat % 65536 * 65536 + 2)), _, ⟨rfl, rfl, rfl, rfl, rfl⟩, rfl, rfl, rfl,
      by dsimp only; exact right_half _⟩,
   ⟨st (commanded 11 ((Config.deviceId.toNat % 65536 + 1) * 65536)), _, ⟨rfl, rfl, rfl, rfl, rfl⟩, rfl, rfl, rfl,
       by dsimp only; exact wrong_half _⟩,
   ⟨.extest, by decide +kernel⟩⟩

theorem witness_ModuleBoots :
    (∃ (s : State) (x : Option FwSlot), s.dev.pwr.kUp = false ∧ s.dev.pwr.modRst = false ∧ s.dev.get F.PWR_RAIL_OK = 511 ∧
        s.dev.get F.HEDGE_STATUS_BOOT_DONE = 0 ∧ s.dev.get F.HEDGE_STATUS_RECOVERY = 0 ∧ s.dev.hedge.lc < 4 ∧ s.dev.hedge.after = none ∧
        s.dev.hedge.slots.get 0 = x ∧ s.dev.hedge.slots.get 1 = none ∧ s.dev.hedge.tried = none) ∧
    (∃ (s : State) (a : Bool) (b : Bool) (k : Fin 2) (f : FwSlot), s.dev.pwr.kUp = false ∧ s.dev.pwr.modRst = false ∧
        s.dev.get F.PWR_RAIL_OK = 511 ∧ fwChoice s.dev a b = some k ∧ s.dev.hedge.slots.get k = some f) ∧
    (∃ (s : State) (f : Fuses) (n : Nat), s.dev.pwr.kUp = false ∧ s.dev.pwr.modRst = false ∧ s.dev.get F.PWR_RAIL_OK = 511 ∧
        s.dev.get F.HEDGE_STATUS_BOOT_DONE = 0 ∧ s.dev.get F.HEDGE_STATUS_RECOVERY = 0 ∧ s.dev.hedge.after = some f ∧ 0 < n) ∧
    (∃ (s : State), s.dev.get F.PWR_RAIL_OK ≠ 511) :=
  ⟨⟨st (held { slots := #v[some ⟨[1], 9, 0, true⟩, none] }), some ⟨[1], 9, 0, true⟩, by decide +kernel⟩,
   ⟨st (held { slots := #v[some ⟨[1], 9, 0, true⟩, some ⟨[2], 9, 0, true⟩] }), true, true, 0, ⟨[1], 9, 0, true⟩, by decide +kernel⟩,
   ⟨st (held { after := some ⟨3, true, 5, 6, 7, Vector.replicate 4 {}⟩ }), ⟨3, true, 5, 6, 7, Vector.replicate 4 {}⟩, 2, by decide +kernel⟩,
   ⟨st up, by decide +kernel⟩⟩

theorem witness_SealedRecords :
    (∃ (s : State) (l : Leaf), s.dev.Up ∧ s.dev.sealing.waiting = [l] ∧ l.code = 0 ∧ l.value = [] ∧ l.written = true ∧
        s.dev.ddr.span ≤ dramEnd ∧
        inDramOrData s.dev (s.dev.rd64 R.HEDGE_LEAF_BASE_LO / 64 * 64 + 64 * (l.num % 2 ^ s.dev.sealing.leafLog)) 64 = true ∧
        noHole s.dev l.hdrAddr l.hdrLen = true ∧ (l.ty = 2 ∨ ∀ i < l.inputs,
        l.hold = true ∨ noHole s.dev (l.bodyAddr + i * l.inStride) (divUp l.samples 3 * 4) = true) ∧ leafHeaderHolds s.dev l = true) ∧
    (∃ (s : State), s.dev.Up ∧ s.dev.sealing.waiting = [] ∧ s.dev.sealing.decided = none ∧ s.dev.hedge.running.isSome = true ∧
        0 < (sealed s.dev.sealing).length ∧ s.dev.rd R.HEDGE_SEAL_WR = s.dev.rd R.HEDGE_SEAL_RD ∧
        s.dev.sealing.batch ≤ s.dev.sealing.ready.length) ∧
    (∃ (s : State), s.dev.Up ∧ s.dev.sealing.waiting = [] ∧ s.dev.sealing.decided = none ∧ s.dev.hedge.running.isSome = true ∧
        0 < (sealed s.dev.sealing).length ∧ s.dev.rd R.HEDGE_SEAL_WR = s.dev.rd R.HEDGE_SEAL_RD ∧
        s.dev.sealing.ready.length < s.dev.sealing.batch ∧ s.dev.sealing.mark = 0 ∧ s.dev.sealing.flush = false) ∧
    (∃ (s : State) (n : Nat) (cal : Nat) (last : Bool) (ts : TS) (l : LeafValue) (ls : List LeafValue), s.dev.Up ∧
        s.dev.sealing.decided = some (n, last, ts, cal) ∧ s.dev.sealing.ready.take n = l :: ls ∧ s.dev.ddr.span ≤ dramEnd ∧
        inDramOrData s.dev (s.dev.rd64 R.HEDGE_SEAL_BASE_LO / 4096 * 4096 + 4096 * ((s.dev.rd R.HEDGE_SEAL_WR).toNat % 2 ^ s.dev.sealing.ringLog)) 4096 =
        true) :=
  ⟨⟨st ((sealing { waiting := [leaf] }).store 4096 4 0x52434147 |>.store (4096 + 0x9C) 4 (2 ^ 31 + 5)), leaf, ⟨rfl, rfl, rfl, rfl, rfl⟩,
      by decide +kernel⟩,
   ⟨st (sealing { ready := [⟨0, 5, List.replicate 64 1, true, false⟩], batch := 1 }), ⟨rfl, rfl, rfl, rfl, rfl⟩, by decide +kernel⟩,
   ⟨st (sealing { ready := [⟨0, 5, List.replicate 64 1, true, false⟩], batch := 2 }), ⟨rfl, rfl, rfl, rfl, rfl⟩, by decide +kernel⟩,
   ⟨st (sealing { ready := [⟨0, 5, List.replicate 64 1, true, false⟩, ⟨0, 6, List.replicate 64 2, true, true⟩], decided := some (2, true, 99, 7) }),
       2, 7, true, 99, ⟨0, 5, List.replicate 64 1, true, false⟩, [⟨0, 6, List.replicate 64 2, true, true⟩], ⟨rfl, rfl, rfl, rfl, rfl⟩,
       by decide +kernel⟩⟩

theorem witness_ModuleResets :
    (∃ (s : State) (r : Fin 9), r ≠ 0 ∧ s.dev.pwr.kUp = true ∧ bitsOf (s.dev.get F.PWR_RAIL_OK) r.val r.val = 0) ∧
    (∃ (s : State) (r : Fin 9), (r = 0 ∨ bitsOf (s.dev.get F.PWR_RAIL_OK) r.val r.val = 1)) :=
  ⟨⟨st up, 8, by decide +kernel⟩,
   ⟨st (up.put F.PWR_RAIL_OK 511), 8, by decide +kernel⟩⟩

theorem witness_ModuleStartsUp :
    (∃ (s : State) (r : Fin 9) (ok : Bool), (ok = true → ∀ q : Fin 9, bitsOf (stageBefore r) q.val q.val = 1 →
        bitsOf (s.dev.get F.PWR_RAIL_OK) q.val q.val = 1) ∧ (r ≠ 3 ∨ ok = true ∨ s.dev.pwr.kUp = true) ∧ ((r ≠ 1 ∧
        r ≠ 6) ∨ s.dev.pwr.up = false)) ∧
    (∃ (s : State) (r : Fin 9) (q : Fin 9), bitsOf (stageBefore r) q.val q.val = 1 ∧ bitsOf (s.dev.get F.PWR_RAIL_OK) q.val q.val = 0 ∧
        s.dev.pwr.up = false ∧ s.dev.pwr.qUp = false) ∧
    (∃ (s : State) (r : Fin 9), r ≠ 0 ∧ s.dev.pwr.kUp = true ∧ s.dev.pwr.up = true) ∧
    (∃ (s : State) (x : Fin 3) (r : Fin 9), (r = 1 ∨ r = 6) ∧ s.dev.pwr.up = true ∧ joined s.dev x = true) ∧
    (∃ (s : State), s.dev.pwr.kUp = true ∧ s.dev.pwr.up = false ∧ s.dev.get F.PWR_STATUS_HELD = 0 ∧ s.dev.get F.PWR_RAIL_OK = 511 ∧
        s.dev.get F.HEDGE_STATUS_BOOT_DONE = 1) ∧
    (∃ (s : State), s.dev.pwr.kUp = true ∧ s.dev.pwr.up = false ∧ s.dev.get F.PWR_STATUS_HELD = 0 ∧ s.dev.get F.PWR_RAIL_OK = 511 ∧
        s.dev.get F.HEDGE_STATUS_BOOT_DONE = 0 ∧ s.dev.get F.HEDGE_STATUS_RECOVERY = 1) ∧
    (∃ (s : State), s.dev.pwr.refWait = true ∧ s.dev.get F.STAG_STATUS_REF_OK = 0 ∧ s.dev.get F.PWR_STATUS_PHASE = 3 ∧
        s.dev.get F.STAG_STATUS_SL_LOCK = 0) :=
  ⟨⟨st (({} : Dev).put F.PWR_RAIL_OK 511), 8, true, by decide +kernel⟩,
   ⟨st {}, 5, 3, by decide +kernel⟩,
   ⟨st up, 8, by decide +kernel⟩,
   ⟨st (up.put (F.IFL_x_STATUS_BYPASS 1) 0), 1, 6, by decide +kernel⟩,
   ⟨st ({ pwr := { kUp := true } : Dev }.put F.PWR_RAIL_OK 511 |>.put F.HEDGE_STATUS_BOOT_DONE 1), by decide +kernel⟩,
   ⟨st ({ pwr := { kUp := true } : Dev }.put F.PWR_RAIL_OK 511 |>.put F.HEDGE_STATUS_RECOVERY 1), by decide +kernel⟩,
   ⟨st ({ pwr := { kUp := true, refWait := true } : Dev }.put F.PWR_STATUS_PHASE 3), by decide +kernel⟩⟩

theorem witness_SoftResets :
    (∃ (s : State) (k : Fin 22), s.dev.Up ∧ hasSreset k.val = false) ∧
    (∃ (s : State) (k : Fin 22), s.dev.Up ∧ hasSreset k.val = true) ∧
    (∃ (s : State) (k : Fin 22), inSreset s.dev k.val = true ∧ (k ≠ 11 ∨ s.dev.sealing.waiting = [])) ∧
    (∃ (s : State) (k : Fin 22), inSreset s.dev k.val = false) :=
  ⟨⟨st up, 0, ⟨rfl, rfl, rfl, rfl, rfl⟩, by decide +kernel⟩,
   ⟨st up, 13, ⟨rfl, rfl, rfl, rfl, rfl⟩, by decide +kernel⟩,
   ⟨st { up with pwr := { up.pwr with sreset := BitVec.allOnes 22 } }, 13, by decide +kernel⟩,
   ⟨st up, 13, by decide +kernel⟩⟩

theorem witness_TemperatureLevels :
    (∃ (s : State) (t : Vector (BitVec 16) 8), s.dev.pwr.kUp = true ∧ s.dev.cfgc.parts = [] ∧ s.dev.cfgc.waits = [] ∧
        s.dev.cfgc.commits = [] ∧ s.dev.get F.PWR_STATUS_LEVEL = 0 ∧ dramHot s.dev = false ∧ levelAt s.dev 1 ≤ levelAt s.dev 2 ∧
        levelAt s.dev 2 ≤ 16 * 114 ∧ (∀ k, (t.get k).toInt < levelAt s.dev 2)) ∧
    (∃ (s : State), s.dev.pwr.kUp = true) ∧
    (∃ (s : State), s.dev.pwr.up = true ∧ s.dev.get F.PWR_STATUS_LEVEL = 3 ∧ s.dev.get F.PWR_STATUS_HELD = 0 ∧ s.dev.pwr.kUp = true ∧
        s.dev.sealing.waiting = []) ∧
    (∃ (s : State), s.dev.pwr.up = true ∧ s.dev.get F.PWR_STATUS_LEVEL ≠ 3) ∧
    (∃ (s : State), s.dev.pwr.kUp = true ∧ s.dev.pwr.sreset = 0 ∧ s.dev.get F.PWR_STATUS_HELD = 0) ∧
    (∃ (s : State), s.dev.pwr.kUp = true ∧ s.dev.pwr.sreset = 0 ∧ s.dev.get F.PWR_STATUS_HELD = 1 ∧
        anySensor s.dev (levelAt s.dev 1) = true) ∧
    (∃ (s : State), s.dev.pwr.kUp = true ∧ s.dev.pwr.sreset = 0 ∧ s.dev.get F.PWR_STATUS_HELD = 1 ∧
        anySensor s.dev (levelAt s.dev 1) = false ∧ s.dev.get F.HEDGE_STATUS_BOOT_DONE = 0) ∧
    (∃ (s : State), s.dev.pwr.kUp = true ∧ s.dev.pwr.sreset = 0 ∧ s.dev.get F.PWR_STATUS_HELD = 1 ∧
        anySensor s.dev (levelAt s.dev 1) = false ∧ s.dev.get F.HEDGE_STATUS_BOOT_DONE = 1) :=
  ⟨⟨st up, Vector.replicate 8 400, by decide +kernel⟩,
   ⟨st up, by decide +kernel⟩,
   ⟨st (up.put F.PWR_STATUS_LEVEL 3), by decide +kernel⟩,
   ⟨st up, by decide +kernel⟩,
   ⟨st { pwr := { kUp := true } : Dev }, by decide +kernel⟩,
   ⟨st ({ pwr := { kUp := true } : Dev }.put F.PWR_STATUS_HELD 1 |>.put (F.PWR_TEMP_TEMP 3) 1600), by decide +kernel⟩,
   ⟨st ({ pwr := { kUp := true } : Dev }.put F.PWR_STATUS_HELD 1), by decide +kernel⟩,
   ⟨st ({ pwr := { kUp := true } : Dev }.put F.PWR_STATUS_HELD 1 |>.put F.HEDGE_STATUS_BOOT_DONE 1), by decide +kernel⟩⟩


end Sys2Proof.Tests
end

section
/-! SUPPORT. O1: what every command's meaning has in common, and one step of the queue. -/
namespace Sys2Proof.Machine

/-- Every command acts on the hardware alone: its effect neither reads nor changes the queue of waiting commands. -/
theorem exec_acts (c : Instr) : ∃ f : Dev → Dev, ∀ s, exec c s = s.act f := by
  cases c <;> exact ⟨_, fun _ => rfl⟩

/-- Settles O1: a step is `exec` of the front command by definition, and every arm of `exec` is an action on the hardware. -/
theorem stepRunsFront : Obligations.StepRunsFront := by
  refine ⟨fun c s => rfl, fun s idle => ?_, fun c s => ?_⟩
  · simp only [step, idle]
  · obtain ⟨f, hf⟩ := exec_acts c
    exact ⟨f s.dev, hf s⟩

end Sys2Proof.Machine
end

section
/-! SUPPORT. O15: which accesses reach a register, what reads and writes of one do, and reports of accesses of a wrong size. -/
namespace Sys2Proof.Machine

/-! ### Bits and bytes -/

theorem testBit_bitsOf (v hi lo i : Nat) : (bitsOf v hi lo).testBit i = (decide (i < hi + 1 - lo) && v.testBit (lo + i)) := by
  rw [bitsOf, Nat.testBit_mod_two_pow, Nat.testBit_div_two_pow, Nat.add_comm i lo]

theorem leNat_append (xs ys : List Byte) : leNat (xs ++ ys) = leNat xs + 256 ^ xs.length * leNat ys := by
  induction xs with
  | nil => simp [leNat]
  | cons b bs ih => simp only [List.cons_append, leNat, ih, List.length_cons, Nat.pow_succ]; ring

theorem leNat_lt (xs : List Byte) : leNat xs < 256 ^ xs.length := by
  induction xs with
  | nil => simp [leNat]
  | cons b bs ih =>
    have hb := b.isLt
    simp only [leNat, List.length_cons, Nat.pow_succ]
    omega

/-! ### Read shadows -/

theorem shadowOf_dropShadow_same (q : Requester) (a : Nat) (d : Dev) : shadowOf (dropShadow q a d) q a = none := by
  simp only [shadowOf, dropShadow, List.find?_filter, Option.map_eq_none_iff, List.find?_eq_none]
  intro s _
  cases s.1 == q && s.2.1 == a <;> decide

theorem shadowOf_dropShadow_ne (q p : Requester) (a b : Nat) (d : Dev) (h : (p, b) ≠ (q, a)) :
    shadowOf (dropShadow q a d) p b = shadowOf d p b := by
  have key (s : Requester × Nat × Word) (hs : s.1 = p ∧ s.2.1 = b) : ¬ (s.1 = q ∧ s.2.1 = a) := by
    obtain ⟨rfl, rfl⟩ := hs
    exact fun hq => h (Prod.ext hq.1 hq.2)
  simp only [shadowOf, dropShadow, List.find?_filter]
  congr 2
  funext s
  have := key s
  rw [Bool.eq_iff_iff]
  simp only [decide_eq_true_eq, Bool.not_eq_true', Bool.and_eq_true, Bool.and_eq_false_iff, beq_iff_eq, beq_eq_false_iff_ne]
  tauto

@[simp] theorem shadowOf_setShadow_same (q : Requester) (a : Nat) (v : Word) (d : Dev) : shadowOf (setShadow q a v d) q a = some v := by
  simp [shadowOf, setShadow]

theorem shadowOf_setShadow_ne (q p : Requester) (a b : Nat) (v : Word) (d : Dev) (h : (p, b) ≠ (q, a)) :
    shadowOf (setShadow q a v d) p b = shadowOf d p b := by
  rw [← shadowOf_dropShadow_ne q p a b d h]
  have : ((q, a).1 == p && (q, a).2 == b) = false := by
    simp only [ne_eq, Prod.mk.injEq, not_and] at h
    simpa using fun hq hb => h hq.symm hb.symm
  simp only [shadowOf, setShadow, List.find?_cons] at this ⊢
  rw [this]

/-! ### Accesses that reach a register -/

theorem findReg_mem {a : Nat} {r : RegRow} {ix : List Nat} (h : findReg a = some (r, ix)) : r ∈ RegTable.ofBlock (a / 0x100000) := by
  obtain ⟨x, hx, hr⟩ := List.exists_of_findSome?_eq_some h
  split at hr
  · cases hr
  · obtain ⟨l, -, hl⟩ := Option.map_eq_some_iff.mp hr
    cases hl
    exact hx

section
variable {d : Dev} {q : Requester} {a : Nat} {r : RegRow} {ix : List Nat}

theorem Dev.Reaches.toNat_ofNat (hr : d.Reaches q a) : (BitVec.ofNat 26 a).toNat = a := by
  obtain ⟨-, -, -, hend, -, -⟩ := hr
  simp only [csrEnd] at hend
  rw [BitVec.toNat_ofNat, Nat.mod_eq_of_lt (by omega)]

theorem isRegister_of_findReg (ha : a % 4 = 0) (hf : findReg a = some (r, ix)) : isRegister a = true := by simp [isRegister, ha, hf]

/-- What a read by a requester leaves: the host receives the word, a program's read completes in its context. -/
def answer (q : Requester) (x : Dev × Word) : Dev := if q = .host then complete (leBytes 4 x.2.toNat) x.1 else x.1

@[simp] theorem answer_regs (q : Requester) (x : Dev × Word) : (answer q x).regs = x.1.regs := by unfold answer; split <;> rfl
@[simp] theorem answer_eff (q : Requester) (x : Dev × Word) : (answer q x).eff = x.1.eff := by unfold answer; split <;> rfl
@[simp] theorem answer_mem (q : Requester) (x : Dev × Word) : (answer q x).mem = x.1.mem := by unfold answer; split <;> rfl
@[simp] theorem answer_crossings (q : Requester) (x : Dev × Word) : (answer q x).crossings = x.1.crossings := by
  unfold answer; split <;> rfl
@[simp] theorem answer_faultNotified (q : Requester) (x : Dev × Word) : (answer q x).host.faultNotified = x.1.host.faultNotified := by
  unfold answer; split <;> rfl
@[simp] theorem shadowOf_answer (q : Requester) (x : Dev × Word) (p : Requester) (b : Nat) :
    shadowOf (answer q x) p b = shadowOf x.1 p b := by unfold answer; split <;> rfl
@[simp] theorem rd_answer (q : Requester) (x : Dev × Word) (b : Nat) : (answer q x).rd b = x.1.rd b := by unfold answer; split <;> rfl

theorem read_answer {w : Word} {e : Dev} (h : e.host.completion = d.host.completion) : Read q w d (answer q (e, w)) := by
  unfold Read answer
  split
  · rfl
  · exact h

/-- A read of one word that reaches a register is that requester's read of it on the register bus, answered. -/
theorem registerRead_eq (hr : d.Reaches q a) (hf : findReg a = some (r, ix)) : registerRead q a 4 d = answer q (regRead q a d) := by
  obtain ⟨-, hhost, h4, hend, -, -⟩ := hr
  have hreg := isRegister_of_findReg h4 hf
  cases q with
  | host =>
    have hfits : ¬ csrEnd < a + 4 := by omega
    simp [registerRead, hhost rfl, hostRegRead, hfits, h4, hostWord, hreg, answer]
  | ctx n => simp [registerRead, hreg, answer]
  | cal => simp [registerRead, hreg, answer]
  | hedge => simp [registerRead, hreg, answer]

/-- A read of one word runs, with what the read on the register bus leaves. -/
theorem runs_rcRead {s : State} {p : Dev → Prop} (hr : s.dev.Reaches q a) (hf : findReg a = some (r, ix))
    (hp : p (answer q (regRead q a s.dev))) : Runs (.rcRead q (BitVec.ofNat 26 a) 4) s p :=
  runs_of_act (registerRead q (BitVec.ofNat 26 a).toNat 4) rfl (by rwa [hr.toNat_ofNat, registerRead_eq hr hf])

theorem runs_pairLoRead {s : State} {p : Dev → Prop} (hr : s.dev.Reaches q a) (hf : findReg a = some (r, ix))
    (hp : p (answer q (regRead q a s.dev))) : Runs (.pairLoRead q (BitVec.ofNat 26 a) 4) s p :=
  runs_of_act (registerRead q (BitVec.ofNat 26 a).toNat 4) rfl (by rwa [hr.toNat_ofNat, registerRead_eq hr hf])

theorem runs_badAddrRead {s : State} {p : Dev → Prop} (hr : s.dev.Reaches q R.GLB_BAD_ADDR_LO)
    (hf : findReg R.GLB_BAD_ADDR_LO = some (r, ix)) (hp : p (answer q (regRead q R.GLB_BAD_ADDR_LO s.dev))) : Runs (.badAddrRead q) s p :=
  runs_of_act (registerRead q R.GLB_BAD_ADDR_LO 4) rfl (by rwa [registerRead_eq hr hf])

/-! ### Reads on the register bus -/

/-- The word that a read of the register at `a` answers when no shadow holds it. -/
def readView (d : Dev) (r : RegRow) (a : Nat) : Word := busView d a &&& readMask r

theorem regRead_single (hr : d.Reaches q a) (hf : findReg a = some (r, ix)) (hp : r.part = .single) :
    regRead q a d = (clearOnRead r a (readView d r a) d, readView d r a) := by
  obtain ⟨hu, -, -, -, hm, -⟩ := hr
  simp [regRead, hu.block, hm, hf, hp, readView]

theorem regRead_lo {h : RegRow} {iy : List Nat} (hr : d.Reaches q a) (hf : findReg a = some (r, ix)) (hp : r.part = .lo)
    (hf' : findReg (a + 4) = some (h, iy)) :
    regRead q a d = (clearOnRead r a (readView d r a) (setShadow q (a + 4) (readView d h (a + 4)) d), readView d r a) := by
  obtain ⟨hu, -, -, -, hm, -⟩ := hr
  simp [regRead, hu.block, hm, hf, hp, hf', readView]

theorem regRead_hi (hr : d.Reaches q a) (hf : findReg a = some (r, ix)) (hp : r.part = .hi) :
    regRead q a d = ((shadowOf d q a).elim d fun _ => dropShadow q a d, (shadowOf d q a).getD (readView d r a)) := by
  obtain ⟨hu, -, -, -, hm, -⟩ := hr
  cases hs : shadowOf d q a <;> simp [regRead, hu.block, hm, hf, hp, hs, readView]

/-- The words after word 0 of a multi-word register at `a`, as they are in `d`, kept for the requester. -/
def keepWords (q : Requester) (r : RegRow) (a words : Nat) (d : Dev) : Dev :=
  (List.range (words - 1)).foldl (fun e i => setShadow q (a + 4 * (i + 1)) (readView d r (a + 4 * (i + 1))) e) d

theorem regRead_word0 {words : Nat} (hr : d.Reaches q a) (hf : findReg a = some (r, ix)) (hp : r.part = .word0 words)
    (hix : ix.getLastD 0 = 0) (hq : r.off ≠ R.LYNX_n_Q 0 0) : regRead q a d = (keepWords q r a words d, readView d r a) := by
  obtain ⟨hu, -, -, -, hm, -⟩ := hr
  simp only [regRead, hu.block, hm, hf, hp, hix, hq, Bool.not_true, Bool.false_eq_true, if_false, if_true]
  rfl

theorem keepWords_succ (q : Requester) (r : RegRow) (a n : Nat) (d : Dev) :
    keepWords q r a (n + 2) d = setShadow q (a + 4 * (n + 1)) (readView d r (a + 4 * (n + 1))) (keepWords q r a (n + 1) d) := by
  simp only [keepWords, List.range_succ, List.foldl_append, List.foldl_cons, List.foldl_nil, Nat.add_one_sub_one]

/-- Only read shadows differ. -/
def ShadowsOnly (d e : Dev) : Prop := e = { d with shadows := e.shadows }

theorem keepWords_shadowsOnly (q : Requester) (r : RegRow) (a words : Nat) (d : Dev) : ShadowsOnly d (keepWords q r a words d) :=
  List.foldlRecOn _ _ (motive := ShadowsOnly d) rfl fun e he i _ => by unfold ShadowsOnly at he ⊢; rw [he]; rfl

/-- Each word after word 0 is kept as it was at the read. -/
theorem shadowOf_keepWords (q : Requester) (r : RegRow) (a words i : Nat) (d : Dev) (h0 : 0 < i) (hi : i < words) :
    shadowOf (keepWords q r a words d) q (a + 4 * i) = some (readView d r (a + 4 * i)) := by
  induction words with
  | zero => omega
  | succ n ih =>
    cases n with
    | zero => omega
    | succ n =>
      rw [keepWords_succ]
      by_cases hn : i = n + 1
      · subst hn
        simp
      · rw [shadowOf_setShadow_ne _ _ _ _ _ _ (by simp; omega)]
        exact ih (by omega)

/-! ### What a read clears (R7) -/

/-- A read clears the RC bits that it answered as 1 and lets a loss be reported again: it touches no other register and no memory. -/
theorem clearOnRead_frame (r : RegRow) (a : Nat) (seen : Word) (d : Dev) :
    (clearOnRead r a seen d).regs = (if r.rc = 0 then d else d.wr a (d.rd a &&& ~~~(seen &&& BitVec.ofNat 32 r.rc))).regs ∧
    (clearOnRead r a seen d).eff = d.eff ∧ (clearOnRead r a seen d).mem = d.mem ∧ (clearOnRead r a seen d).crossings = d.crossings ∧
    (clearOnRead r a seen d).shadows = d.shadows ∧ (clearOnRead r a seen d).host.completion = d.host.completion := by
  have hd : ∀ e, e = (if r.rc = 0 then d else d.wr a (d.rd a &&& ~~~(seen &&& BitVec.ofNat 32 r.rc))) →
      e.eff = d.eff ∧ e.mem = d.mem ∧ e.crossings = d.crossings ∧ e.shadows = d.shadows ∧ e.host.completion = d.host.completion := by
    rintro e rfl
    split <;> exact ⟨rfl, rfl, rfl, rfl, rfl⟩
  unfold clearOnRead
  dsimp only
  generalize (if r.rc = 0 then d else d.wr a (d.rd a &&& ~~~(seen &&& BitVec.ofNat 32 r.rc))) = e at hd ⊢
  have he := hd e rfl
  repeat' split
  all_goals exact ⟨rfl, he⟩

theorem rd_clearOnRead_same (r : RegRow) (a : Nat) (seen : Word) (d : Dev) :
    (clearOnRead r a seen d).rd a = d.rd a &&& ~~~(seen &&& BitVec.ofNat 32 r.rc) := by
  rw [Dev.rd, (clearOnRead_frame r a seen d).1]
  split
  · next h =>
    have none_cleared : ~~~(seen &&& BitVec.ofNat 32 r.rc) = BitVec.allOnes 32 := by rw [h]; simp
    rw [none_cleared, BitVec.and_allOnes]
    rfl
  · exact Dev.rd_wr_same _ _ _

theorem rd_clearOnRead_ne (r : RegRow) (a b : Nat) (seen : Word) (d : Dev) (h : b ≠ a) : (clearOnRead r a seen d).rd b = d.rd b := by
  rw [Dev.rd, (clearOnRead_frame r a seen d).1]
  split
  · rfl
  · exact Dev.rd_wr_ne _ _ _ _ h

end

/-! ### Writes of one word (R7) -/

/-- A register's content after a write of `new` over `old`, by its access masks. -/
def RegRow.stored (r : RegRow) (old new : Word) : Word :=
  ((old &&& ~~~(BitVec.ofNat 32 r.rw)) ||| (new &&& BitVec.ofNat 32 r.rw)) &&& ~~~(new &&& BitVec.ofNat 32 r.w1c) |||
    (new &&& BitVec.ofNat 32 r.w1s)

/-- Bit by bit it is what R7 says. -/
theorem RegRow.getLsbD_stored (r : RegRow) (old new : Word) (i : Fin 32) :
    (r.stored old new).getLsbD i.val = r.written old new i.val := by
  simp only [RegRow.stored, RegRow.written, BitVec.getLsbD_or, BitVec.getLsbD_and, BitVec.getLsbD_not, BitVec.getLsbD_ofNat, i.isLt,
    decide_true, Bool.true_and]
  split
  · next set => simp_all
  · next notSet =>
    split
    · next cleared => simp_all
    · next notCleared =>
      split
      · next taken => cases bit : new.getLsbD i.val <;> simp_all
      · next kept => cases bit : new.getLsbD i.val <;> simp_all

/-- The registers with command bits whose write `wordWrite` answers with the commands, by the offset of their first copy. -/
def commandRegs : List Nat :=
  [R.CFGC_CMD, R.OWL_n_CMD 0, R.PULSE_u_CMD 0, R.FOX_ARM, R.LYNX_n_CMD 0, R.AQS_CTRL, R.AQS_CTX_n_CTRL 0, R.RED_p_CMD 0, R.STK_CMD,
    R.CAL_START, R.CAL_CMD, R.BADGER_CMD, R.BADGER_r_DOORBELL 0, R.DDR_CMD, R.DDR_CH_n_CMD 0, R.BEAVER_CMD, R.BEAVER_CH_n_CMD 0,
    R.IFL_TX_CMD, R.IFL_SCHED_CMD, R.IFL_x_CMD 0, R.HEDGE_CMD, R.PWR_SRESET, R.PWR_CMD]

/-- A row of the register map without write-only bits is no command register. -/
theorem not_command_of_wo {k : Nat} {r : RegRow} (hr : r ∈ RegTable.ofBlock k) (hw : r.wo = 0) : r.off ∉ commandRegs := by
  have rows : ∀ k < 22, (RegTable.ofBlock k).all (fun r => r.wo != 0 || !commandRegs.contains r.off) = true := by decide +kernel
  by_cases hk : k < 22
  · have := List.all_eq_true.mp (rows k hk) r hr
    simpa [hw] using this
  · obtain ⟨j, rfl⟩ := Nat.exists_eq_add_of_le' (Nat.le_of_not_lt hk)
    cases hr

/-- A register without command bits and without a rule of its own is written by its access masks. -/
theorem wordWrite_stored (q : Requester) (r : RegRow) (ix : List Nat) (a v : Nat) (d : Dev) (hw : r.wo = 0) (ho : r.off ∉ ownWrite)
    (hc : r.off ∉ commandRegs) : wordWrite q r ix a v d = d.wr a (r.stored (d.rd a) (BitVec.ofNat 32 v)) := by
  simp only [ownWrite, commandRegs, List.mem_cons, List.not_mem_nil, or_false, not_or] at ho hc
  simp only [wordWrite, hw, ho, hc, if_false, ne_eq, not_true_eq_false, decide_false, Bool.and_false,
    Bool.false_and, Bool.false_eq_true]
  rfl

section
variable {d : Dev} {q : Requester} {a : Nat} {r : RegRow} {ix : List Nat}

/-- A write of one word that reaches a register is that requester's write of it on the register bus. -/
theorem registerWrite_word (hr : d.Reaches q a) (hf : findReg a = some (r, ix)) {bytes : List Byte} (hl : bytes.length = 4) :
    registerWrite q (.bar0 (BitVec.ofNat 26 a) bytes) d = regWrite q a (leNat bytes) d := by
  have ha := hr.toNat_ofNat
  obtain ⟨hu, hhost, h4, hend, -, -⟩ := hr
  have hreg := isRegister_of_findReg h4 hf
  cases q with
  | host =>
    have hfits : ¬ csrEnd < a + 4 := by omega
    simp [registerWrite, hhost rfl, ha, hostRegWrite, hl, hfits, h4, hostWordWrite, hu.block, hreg]
  | ctx n => simp [registerWrite, ha, hl, hreg]
  | cal => simp [registerWrite, ha, hl, hreg]
  | hedge => simp [registerWrite, ha, hl, hreg]

theorem regWrite_single (hr : d.Reaches q a) (hf : findReg a = some (r, ix)) (hc : r.cfg = false) (hp : r.part = .single) (v : Nat) :
    regWrite q a v d = wordWrite q r ix a v d := by
  obtain ⟨hu, -, -, -, hm, -⟩ := hr
  simp [regWrite, hu.block, hm, hf, hc, hp]

/-- A plain register takes what its access masks give. -/
theorem regWrite_plain (hr : d.Reaches q a) (hf : findReg a = some (r, ix)) (hp : r.plain = true) (v : Nat) :
    regWrite q a v d = d.wr a (r.stored (d.rd a) (BitVec.ofNat 32 v)) := by
  simp only [RegRow.plain, Bool.and_eq_true, beq_iff_eq, Bool.not_eq_true', List.contains_eq_mem, decide_eq_false_iff_not] at hp
  obtain ⟨⟨⟨hs, hc⟩, hw⟩, ho⟩ := hp
  rw [regWrite_single hr hf hc hs, wordWrite_stored q r ix a v d hw ho (not_command_of_wo (findReg_mem hf) hw)]

/-- A write with no program's write in flight runs, with what the write leaves. -/
theorem runs_registerWrite {s : State} {p : Dev → Prop} (t : RegTarget) (hp : p (registerWrite q t s.dev)) :
    Runs (.registerWrite ⟨q, none⟩ t) s p := by
  refine runs_of_act (registerWrite q t ∘ programFirst q none) rfl ?_
  cases q <;> exact hp

theorem runs_plainWrite {s : State} {p : Dev → Prop} (hr : s.dev.Reaches q a) (hf : findReg a = some (r, ix)) (hp : r.plain = true)
    {bytes : List Byte} (hl : bytes.length = 4)
    (h : p (s.dev.wr a (r.stored (s.dev.rd a) (BitVec.ofNat 32 (leNat bytes))))) :
    Runs (.registerWrite ⟨q, none⟩ (.bar0 (BitVec.ofNat 26 a) bytes)) s p :=
  runs_registerWrite _ (by rwa [registerWrite_word hr hf hl, regWrite_plain hr hf hp])

end

/-! ### Writes of a pair (R10) -/

@[simp] theorem Dev.rd64_wr64 (d : Dev) (a v : Nat) : (d.wr64 a v).rd64 a = v % 2 ^ 64 := by
  rw [Dev.rd64, Dev.wr64, Dev.rd_wr_same, Dev.rd_wr_ne _ _ _ _ (by omega), Dev.rd_wr_same]
  simp only [BitVec.toNat_ofNat]
  omega

theorem Dev.rd_wr64_ne (d : Dev) (a b v : Nat) (h : b ∉ [a, a + 4]) : (d.wr64 a v).rd b = d.rd b := by
  simp only [List.mem_cons, List.not_mem_nil, or_false, not_or] at h
  rw [Dev.wr64, Dev.rd_wr_ne _ _ _ _ h.2, Dev.rd_wr_ne _ _ _ _ h.1]

/-- The _LO half at `a` written by a requester, held for its _HI half. -/
def holdHalf (q : Requester) (a v : Nat) (d : Dev) : Dev :=
  { d with halves := d.halves.filter (fun h => !(h.req == q && h.addr == a)) ++ [⟨q, a, BitVec.ofNat 32 v, 0⟩] }

theorem find?_holdHalf (q : Requester) (a v : Nat) (d : Dev) :
    (holdHalf q a v d).halves.find? (fun h => h.req == q && h.addr == a) = some ⟨q, a, BitVec.ofNat 32 v, 0⟩ := by
  have others : (d.halves.filter fun h => !(h.req == q && h.addr == a)).find? (fun h => h.req == q && h.addr == a) = none := by
    simp only [List.find?_eq_none, List.mem_filter]
    rintro x ⟨-, hx⟩ hx'
    simp [hx'] at hx
  rw [holdHalf, List.find?_append, others]
  simp

section
variable {d : Dev} {q : Requester} {a : Nat} {r h : RegRow} {ix iy : List Nat}

theorem regWrite_lo (hu : d.Up) (hm : isMsix a = false) (hf : findReg a = some (r, ix)) (hc : r.cfg = false) (hp : r.part = .lo)
    (hw : r.rw ≠ 0) (v : Nat) : regWrite q a v d = holdHalf q a v d := by
  simp [regWrite, hu.block, hm, hf, hc, hp, hw, holdHalf]

/-- A pair without a row of its own is taken, and both of its halves take effect together. -/
theorem pairTaken_of_not_own (hf : findReg a = some (r, ix)) (ho : r.off ∉ ownPair) (d : Dev) : pairTaken a d = true := by
  simp only [ownPair, List.mem_cons, List.not_mem_nil, or_false, not_or] at ho
  simp [pairTaken, hf, ho]

theorem pairWrite_of_not_own (hf : findReg a = some (r, ix)) (ho : r.off ∉ ownPair) (v : Nat) {rw' : Nat} (hrw : rw' ≠ 0) (d : Dev) :
    pairWrite q a v rw' d = d.wr64 a v := by
  simp only [ownPair, List.mem_cons, List.not_mem_nil, or_false, not_or] at ho
  simp [pairWrite, hf, ho, hrw]

/-- The _HI half takes the _LO half that was held for it: both halves change together, what is in effect and memory do not. -/
theorem regWrite_hi_held (hu : d.Up) (hm : isMsix (a + 4) = false) (hf : findReg a = some (r, ix)) (hf' : findReg (a + 4) = some (h, iy))
    (hc : h.cfg = false) (hp : h.part = .hi) (hw : h.rw ≠ 0) (ho : r.off ∉ ownPair) (lo v : Nat) (hlo : lo < 2 ^ 32) :
    (regWrite q (a + 4) v (holdHalf q a lo d)).regs = (d.wr64 a (lo + 2 ^ 32 * v)).regs ∧
    (regWrite q (a + 4) v (holdHalf q a lo d)).eff = d.eff ∧ (regWrite q (a + 4) v (holdHalf q a lo d)).mem = d.mem := by
  have hu' : (holdHalf q a lo d).Up := hu
  have hrw : h.rw + h.wo ≠ 0 := by omega
  simp only [regWrite, hu'.block, hm, hf', hc, hp, Nat.add_sub_cancel, find?_holdHalf, BitVec.toNat_ofNat, Nat.mod_eq_of_lt hlo,
    pairWrite_of_not_own hf ho _ hrw, pairTaken_of_not_own hf ho, hrw, ne_eq, not_false_eq_true, decide_true, Bool.and_true,
    Bool.not_true, Bool.false_eq_true, if_false, if_true]
  exact ⟨rfl, rfl, rfl⟩

/-- A write of 8 bytes by the host is a write of its two words, the lower first. -/
theorem registerWrite_pair (hr : d.Reaches .host a) (hf : findReg a = some (r, ix)) (hf' : findReg (a + 4) = some (h, iy))
    (hc : r.cfg = false) (hp : r.part = .lo) (hw : r.rw ≠ 0) {bytes : List Byte} (hl : bytes.length = 8) :
    registerWrite .host (.bar0 (BitVec.ofNat 26 a) bytes) d =
      regWrite .host (a + 4) (leNat (bytes.drop 4)) (holdHalf .host a (leNat (bytes.take 4)) d) := by
  have ha := hr.toNat_ofNat
  obtain ⟨hu, hhost, h4, hend, hm, -⟩ := hr
  have hu' : (holdHalf .host a (leNat (bytes.take 4)) d).Up := hu
  have lower := isRegister_of_findReg h4 hf
  have upper := isRegister_of_findReg (by omega) hf'
  have hfits : ¬ csrEnd < a + 8 := by omega
  simp [registerWrite, hhost rfl, ha, hostRegWrite, hl, hfits, h4, hostWordWrite, hu.block, lower, regWrite_lo hu hm hf hc hp hw,
    hu'.block, upper]

theorem leNat_take_drop (bytes : List Byte) (hl : bytes.length = 8) :
    leNat (bytes.take 4) + 2 ^ 32 * leNat (bytes.drop 4) = leNat bytes ∧ leNat (bytes.take 4) < 2 ^ 32 ∧ leNat bytes < 2 ^ 64 := by
  have four : (bytes.take 4).length = 4 := by simp [hl]
  have split := leNat_append (bytes.take 4) (bytes.drop 4)
  have low := leNat_lt (bytes.take 4)
  have all := leNat_lt bytes
  rw [List.take_append_drop, four] at split
  rw [four] at low
  rw [hl] at all
  exact ⟨by rw [split]; norm_num, by simpa using low, by simpa using all⟩

end

/-! ### A program's write of the same Q cycle (R20) -/

/-- With no instruction of the program in progress, what goes before the host's access is its posted write. -/
theorem programFirst_idle (n : Fin 8) (b : Fin 22) (d : Dev) (hi : (d.ctx n).busy = .idle) :
    programFirst .host (some (n, b)) d = postedWriteDone n b d := by
  simp only [programFirst, hi]

theorem exec_postedWriteDone (n : Fin 8) (b : Fin 22) (s : State) (hu : s.dev.Up) :
    exec (.postedWriteDone n b) s = s.act (postedWriteDone n b) := by
  change s.act (live 10 (unheld 10 (postedWriteDone n b))) = _
  rw [State.act, live_up hu, unheld_up hu]
  rfl

/-! ### Reports of host accesses (R410, R411) -/

/-- What a host access that went wrong writes into GLB: its flag, its code and its address. -/
def faultRegs (code : Nat) (f : Field) (addr : Nat) (d : Dev) : Dev := (glbCode code (d.putB f true)).wr64 R.GLB_BAD_ADDR_LO addr

/-- A report through BAR0 writes those registers, and posts its event unless one was posted since the address was read. -/
theorem hostFault_bar0 (code : Nat) (f : Field) (off : Nat) (d : Dev) : hostFault code f false off d =
    if d.host.faultNotified then faultRegs code f (off % 2 ^ 40) d
    else ((faultRegs code f (off % 2 ^ 40) d).setHost { d.host with faultNotified := true }).post .q evHostFault (code % 256)
      (off % 2 ^ 40) := by
  simp only [hostFault, Bool.false_eq_true, if_false, Nat.zero_add]
  rfl

theorem hostFault_bar0_frame (code : Nat) (f : Field) (off : Nat) (d : Dev) :
    (hostFault code f false off d).regs = (faultRegs code f (off % 2 ^ 40) d).regs ∧ (hostFault code f false off d).eff = d.eff ∧
    (hostFault code f false off d).mem = d.mem ∧ (hostFault code f false off d).host.faultNotified = true ∧
    (hostFault code f false off d).crossings =
      if d.host.faultNotified then d.crossings else (d.post .q evHostFault (code % 256) (off % 2 ^ 40)).crossings := by
  rw [hostFault_bar0]
  split
  · next said => exact ⟨rfl, rfl, rfl, said, rfl⟩
  · exact ⟨rfl, rfl, rfl, rfl, rfl⟩

theorem faultRegs_outside (code : Nat) (f : Field) (addr : Nat) (d : Dev) (hf : f.reg = R.GLB_STATUS) :
    RegsOutside [R.GLB_STATUS, R.GLB_BAD_ADDR_LO, R.GLB_BAD_ADDR_LO + 4] d (faultRegs code f addr d) := by
  intro a ha
  obtain ⟨hstatus, haddr⟩ : a ≠ R.GLB_STATUS ∧ a ∉ [R.GLB_BAD_ADDR_LO, R.GLB_BAD_ADDR_LO + 4] := by simpa using ha
  rw [faultRegs, Dev.rd_wr64_ne _ _ _ _ haddr, glbCode, Dev.rd_put_ne _ _ _ _ hstatus, Dev.putB, Dev.rd_put_ne _ _ _ _ (hf ▸ hstatus)]

theorem Dev.get_wr64_ne (d : Dev) (f : Field) (a v : Nat) (h : f.reg ∉ [a, a + 4]) : (d.wr64 a v).get f = d.get f := by
  rw [Dev.get, Dev.get, Dev.rd_wr64_ne _ _ _ _ h]

/-- The flag is set and the code stands in GLB_STATUS, for a flag below the code. -/
theorem faultRegs_get (code addr : Nat) (f : Field) (d : Dev) (hf : f.ok) (hreg : f.reg = R.GLB_STATUS)
    (hlow : f.hi < F.GLB_STATUS_LAST_CODE.lo) :
    (faultRegs code f addr d).get f = 1 ∧ (faultRegs code f addr d).get F.GLB_STATUS_LAST_CODE = code % 2 ^ 16 := by
  have status : R.GLB_STATUS ∉ [R.GLB_BAD_ADDR_LO, R.GLB_BAD_ADDR_LO + 4] := by decide
  have codeOk : F.GLB_STATUS_LAST_CODE.ok := by decide
  constructor
  · rw [faultRegs, Dev.get_wr64_ne _ _ _ _ (hreg ▸ status), glbCode, Dev.get_put_other _ _ _ _ codeOk hreg (.inl hlow), Dev.putB,
      Dev.get_put_same _ _ _ hf]
    exact Nat.mod_eq_of_lt (Nat.one_lt_two_pow (by have := hf.1; omega))
  · rw [faultRegs, Dev.get_wr64_ne _ _ _ _ status, glbCode, Dev.get_put_same _ _ _ codeOk]
    rfl

/-- A write by the host that is neither 4 nor 8 aligned bytes is reported and changes nothing else. -/
theorem hostRegWrite_size (off : Nat) (bytes : List Byte) (d : Dev) (hfits : off + bytes.length ≤ csrEnd)
    (hsize : ¬ (off % 4 = 0 ∧ (bytes.length = 4 ∨ bytes.length = 8))) :
    hostRegWrite off bytes d = hostFault 0x0020 F.GLB_STATUS_SIZE_ERR false off d := by
  have inside : ¬ csrEnd < off + bytes.length := by omega
  have four : ¬ (bytes.length = 4 ∧ off % 4 = 0) := fun h => hsize ⟨h.2, .inl h.1⟩
  have eight : ¬ (bytes.length = 8 ∧ off % 4 = 0) := fun h => hsize ⟨h.2, .inr h.1⟩
  simp only [hostRegWrite, inside, four, eight, Bool.and_eq_true, decide_eq_true_eq, if_false]

/-! ### Rows of the register map that O15 names -/

def evqMaskRow : RegRow := ⟨0x2C, [], 0x3FFFFF, 0, 0x3FFFFF, 0, 0, 0, 0, 0, false, .single⟩
def badAddrLoRow : RegRow := ⟨0x30, [], 0, 0, 0, 0xFFFFFFFF, 0, 0, 0, 0, false, .lo⟩
def badAddrHiRow : RegRow := ⟨0x34, [], 0, 0, 0, 0x800000FF, 0, 0, 0, 0, false, .hi⟩

theorem findReg_evqMask : findReg R.GLB_EVQ_MASK = some (evqMaskRow, []) := by decide
theorem findReg_badAddrLo : findReg R.GLB_BAD_ADDR_LO = some (badAddrLoRow, []) := by decide
theorem findReg_badAddrHi : findReg (R.GLB_BAD_ADDR_LO + 4) = some (badAddrHiRow, []) := by decide

/-! ### The clauses of O15 -/

section
variable {s : State} {q : Requester} {a : Nat} {r h : RegRow} {ix iy : List Nat} {bytes : List Byte}

theorem runs_write_by_access_type (hr : s.dev.Reaches q a) (hf : findReg a = some (r, ix)) (hp : r.plain = true) (hl : bytes.length = 4) :
    Runs (.registerWrite ⟨q, none⟩ (.bar0 (BitVec.ofNat 26 a) bytes)) s fun e => e = s.dev.wr a (e.rd a) ∧
      ∀ i : Fin 32, (e.rd a).getLsbD i.val = r.written (s.dev.rd a) (BitVec.ofNat 32 (leNat bytes)) i.val :=
  runs_plainWrite hr hf hp hl ⟨by rw [Dev.rd_wr_same], fun i => by rw [Dev.rd_wr_same, r.getLsbD_stored]⟩

theorem runs_write_of_pair (hr : s.dev.Reaches .host a) (hf : findReg a = some (r, ix)) (hf' : findReg (a + 4) = some (h, iy))
    (hp : r.part = .lo) (hp' : h.part = .hi) (hc : r.cfg = false) (hc' : h.cfg = false) (hw : r.rw ≠ 0) (hw' : h.rw ≠ 0)
    (ho : r.off ∉ ownPair) (hl : bytes.length = 8) :
    Runs (.registerWrite ⟨.host, none⟩ (.bar0 (BitVec.ofNat 26 a) bytes)) s fun e => e.rd64 a = leNat bytes ∧
      RegsOutside [a, a + 4] s.dev e ∧ e.mem = s.dev.mem ∧ e.eff = s.dev.eff := by
  obtain ⟨value, low, all⟩ := leNat_take_drop bytes hl
  have hm := hr.2.2.2.2.2
  obtain ⟨regs, eff, mem⟩ := regWrite_hi_held (q := .host) hr.1 hm hf hf' hc' hp' hw' ho _ (leNat (bytes.drop 4)) low
  rw [value] at regs
  refine runs_registerWrite _ ?_
  rw [registerWrite_pair hr hf hf' hc hp hw hl]
  have rd (b : Nat) : (regWrite .host (a + 4) (leNat (bytes.drop 4)) (holdHalf .host a (leNat (bytes.take 4)) s.dev)).rd b =
      (s.dev.wr64 a (leNat bytes)).rd b := by rw [Dev.rd, regs, Dev.rd]
  refine ⟨?_, fun b hb => (rd b).trans (Dev.rd_wr64_ne _ _ _ _ hb), mem, eff⟩
  calc _ = (s.dev.wr64 a (leNat bytes)).rd64 a := by rw [Dev.rd64, rd, rd, Dev.rd64]
    _ = leNat bytes := by rw [Dev.rd64_wr64, Nat.mod_eq_of_lt all]

theorem exec_registerWrite_after_program (n : Fin 8) (b : Fin 22) (t : RegTarget) {u : State} (hu : s.dev.Up)
    (hi : (s.dev.ctx n).busy = .idle) (hx : exec (.postedWriteDone n b) s = .next u) :
    exec (.registerWrite ⟨.host, some (n, b)⟩ t) s = exec (.registerWrite ⟨.host, none⟩ t) u := by
  rw [exec_postedWriteDone n b s hu] at hx
  cases hx
  change s.act (registerWrite .host t ∘ programFirst .host (some (n, b))) = _
  rw [State.act, Function.comp_apply, programFirst_idle n b _ hi]
  rfl

/-- The mask's 22 RW bits are the low bits of what is written, and its other bits are kept. -/
theorem evqMask_stored {r : RegRow} (hrw : r.rw = 2 ^ 22 - 1) (hc : r.w1c = 0) (hs : r.w1s = 0) (old : Word) (v : Nat) :
    bitsOf (r.stored old (BitVec.ofNat 32 v)).toNat 21 0 = v % 2 ^ 22 ∧
    bitsOf (r.stored old (BitVec.ofNat 32 v)).toNat 31 22 = bitsOf old.toNat 31 22 := by
  have bit (i : Nat) (hi : i < 32) : (r.stored old (BitVec.ofNat 32 v)).toNat.testBit i =
      if i < 22 then v.testBit i else old.toNat.testBit i := by
    have := r.getLsbD_stored old (BitVec.ofNat 32 v) ⟨i, hi⟩
    simp only [RegRow.written, hrw, hc, hs, Nat.zero_testBit, Bool.false_and, Bool.false_eq_true, if_false, Nat.testBit_two_pow_sub_one,
      decide_eq_true_eq, BitVec.getLsbD_ofNat, hi, decide_true, Bool.true_and] at this
    exact this
  constructor <;> refine Nat.eq_of_testBit_eq fun i => ?_
  · rw [testBit_bitsOf, Nat.testBit_mod_two_pow]
    by_cases hi : i < 22
    · simp [hi, bit i (by omega)]
    · simp [hi]
  · rw [testBit_bitsOf, testBit_bitsOf]
    by_cases hi : i < 10
    · simp [hi, bit (22 + i) (by omega)]
    · simp [hi]

theorem runs_write_evqMask (hu : s.dev.Up) (hh : hostReaches s.dev = true) (hl : bytes.length = 4) :
    Runs (.registerWrite ⟨.host, none⟩ (.bar0 (BitVec.ofNat 26 R.GLB_EVQ_MASK) bytes)) s fun e =>
      e.get F.GLB_EVQ_MASK_BLOCKS = leNat bytes % 2 ^ 22 ∧
      bitsOf (e.rd R.GLB_EVQ_MASK).toNat 31 22 = bitsOf (s.dev.rd R.GLB_EVQ_MASK).toNat 31 22 ∧
      RegsOutside [R.GLB_EVQ_MASK] s.dev e ∧ e = { s.dev with regs := e.regs } := by
  have hr : s.dev.Reaches .host R.GLB_EVQ_MASK := ⟨hu, fun _ => hh, by decide, by decide, by decide, by decide⟩
  obtain ⟨low, high⟩ := evqMask_stored (r := evqMaskRow) rfl rfl rfl
    (s.dev.rd R.GLB_EVQ_MASK) (leNat bytes)
  refine runs_plainWrite hr findReg_evqMask (by decide) hl ⟨?_, ?_, fun b hb => Dev.rd_wr_ne _ _ _ _ (by simpa using hb), rfl⟩
  · rw [Dev.get]
    exact (congrArg (fun w : Word => bitsOf w.toNat 21 0) (Dev.rd_wr_same _ _ _)).trans low
  · rw [Dev.rd_wr_same, high]

theorem runs_read_single (hr : s.dev.Reaches q a) (hf : findReg a = some (r, ix)) (hp : r.part = .single) :
    Runs (.rcRead q (BitVec.ofNat 26 a) 4) s fun e => Read q (busView s.dev a &&& readMask r) s.dev e ∧
      e.rd a = s.dev.rd a &&& ~~~(busView s.dev a &&& readMask r &&& BitVec.ofNat 32 r.rc) ∧ RegsOutside [a] s.dev e ∧
      e.eff = s.dev.eff ∧ e.mem = s.dev.mem ∧ e.crossings = s.dev.crossings := by
  refine runs_rcRead hr hf ?_
  rw [regRead_single hr hf hp]
  obtain ⟨-, eff, mem, crossings, -, completion⟩ := clearOnRead_frame r a (readView s.dev r a) s.dev
  refine ⟨read_answer completion, ?_, fun b hb => ?_, by simpa using eff, by simpa using mem, by simpa using crossings⟩
  · rw [rd_answer, rd_clearOnRead_same, readView]
  · rw [rd_answer, rd_clearOnRead_ne _ _ _ _ _ (by simpa using hb)]

theorem runs_write_size (off : BitVec 26) (hh : hostReaches s.dev = true) (hfits : off.toNat + bytes.length ≤ 0x1600000)
    (hsize : ¬ (off.toNat % 4 = 0 ∧ (bytes.length = 4 ∨ bytes.length = 8))) :
    Runs (.registerWrite ⟨.host, none⟩ (.bar0 off bytes)) s fun e =>
      e.get F.GLB_STATUS_SIZE_ERR = 1 ∧ e.get F.GLB_STATUS_LAST_CODE = 0x20 ∧ e.rd64 R.GLB_BAD_ADDR_LO = off.toNat ∧
      e.host.faultNotified = true ∧ e.mem = s.dev.mem ∧ e.eff = s.dev.eff ∧
      RegsOutside [R.GLB_STATUS, R.GLB_BAD_ADDR_LO, R.GLB_BAD_ADDR_LO + 4] s.dev e ∧
      (if s.dev.host.faultNotified then e.crossings = s.dev.crossings else Says .q evHostFault 0x20 off.toNat none s.dev e) := by
  have small := off.isLt
  have addr : off.toNat % 2 ^ 40 = off.toNat := Nat.mod_eq_of_lt (by omega)
  obtain ⟨regs, eff, mem, notified, crossings⟩ := hostFault_bar0_frame 0x20 F.GLB_STATUS_SIZE_ERR off.toNat s.dev
  obtain ⟨flag, code⟩ := faultRegs_get 0x20 off.toNat F.GLB_STATUS_SIZE_ERR s.dev (by decide) rfl (by decide)
  have outside := faultRegs_outside 0x20 F.GLB_STATUS_SIZE_ERR off.toNat s.dev rfl
  rw [addr] at regs crossings
  have rd (b : Nat) : (hostFault 0x20 F.GLB_STATUS_SIZE_ERR false off.toNat s.dev).rd b =
      (faultRegs 0x20 F.GLB_STATUS_SIZE_ERR off.toNat s.dev).rd b := by rw [Dev.rd, regs, Dev.rd]
  refine runs_registerWrite _ ?_
  simp only [registerWrite, hh, if_true, hostRegWrite_size _ _ _ hfits hsize]
  refine ⟨?_, ?_, ?_, notified, mem, eff, fun b hb => (rd b).trans (outside b hb), ?_⟩
  · rw [Dev.get, rd, ← Dev.get, flag]
  · rw [Dev.get, rd]
    exact code
  · rw [Dev.rd64, rd, rd, ← Dev.rd64, faultRegs, Dev.rd64_wr64, Nat.mod_eq_of_lt (by omega)]
  · split
    · next said => rw [crossings, if_pos said]
    · next silent => rw [Says, crossings, if_neg silent]

theorem runs_read_badAddr (hr : s.dev.Reaches q R.GLB_BAD_ADDR_LO) :
    Runs (.badAddrRead q) s fun e => e.host.faultNotified = false ∧ Read q (s.dev.rd R.GLB_BAD_ADDR_LO) s.dev e ∧
      shadowOf e q (R.GLB_BAD_ADDR_LO + 4) = some (s.dev.rd (R.GLB_BAD_ADDR_LO + 4) &&& 0x800000FF#32) ∧
      e.regs = s.dev.regs ∧ e.mem = s.dev.mem ∧ e.crossings = s.dev.crossings := by
  refine runs_badAddrRead hr findReg_badAddrLo ?_
  rw [regRead_lo hr findReg_badAddrLo rfl findReg_badAddrHi]
  have low : readView s.dev badAddrLoRow R.GLB_BAD_ADDR_LO = s.dev.rd R.GLB_BAD_ADDR_LO := BitVec.and_allOnes
  rw [low]
  exact ⟨by rw [answer_faultNotified]; rfl, read_answer rfl, by rw [shadowOf_answer]; exact shadowOf_setShadow_same _ _ _ _,
    by rw [answer_regs]; rfl, by rw [answer_mem]; rfl, by rw [answer_crossings]; rfl⟩

theorem runs_read_lo (hr : s.dev.Reaches q a) (hf : findReg a = some (r, ix)) (hp : r.part = .lo) (hf' : findReg (a + 4) = some (h, iy))
    (hrc : r.rc = 0) :
    Runs (.pairLoRead q (BitVec.ofNat 26 a) 4) s fun e => Read q (busView s.dev a &&& readMask r) s.dev e ∧
      shadowOf e q (a + 4) = some (busView s.dev (a + 4) &&& readMask h) ∧
      (∀ p b, (p, b) ≠ (q, a + 4) → shadowOf e p b = shadowOf s.dev p b) ∧ e.regs = s.dev.regs ∧ e.mem = s.dev.mem := by
  refine runs_pairLoRead hr hf ?_
  rw [regRead_lo hr hf hp hf']
  obtain ⟨regs, -, mem, -, shadows, completion⟩ := clearOnRead_frame r a (readView s.dev r a)
    (setShadow q (a + 4) (readView s.dev h (a + 4)) s.dev)
  have shadow (p : Requester) (b : Nat) : shadowOf (clearOnRead r a (readView s.dev r a)
      (setShadow q (a + 4) (readView s.dev h (a + 4)) s.dev)) p b =
      shadowOf (setShadow q (a + 4) (readView s.dev h (a + 4)) s.dev) p b := by rw [shadowOf, shadows, shadowOf]
  refine ⟨read_answer completion, ?_, fun p b hne => ?_, ?_, ?_⟩
  · rw [shadowOf_answer, shadow, shadowOf_setShadow_same, readView]
  · rw [shadowOf_answer, shadow, shadowOf_setShadow_ne _ _ _ _ _ _ hne]
  · rw [answer_regs, regs, if_pos hrc]
    rfl
  · rw [answer_mem, mem]
    rfl

theorem runs_read_hi (hr : s.dev.Reaches q a) (hf : findReg a = some (r, ix)) (hp : r.part = .hi) :
    Runs (.rcRead q (BitVec.ofNat 26 a) 4) s fun e =>
      Read q ((shadowOf s.dev q a).getD (busView s.dev a &&& readMask r)) s.dev e ∧ shadowOf e q a = none ∧ e.regs = s.dev.regs ∧
      e.mem = s.dev.mem := by
  refine runs_rcRead hr hf ?_
  rw [regRead_hi hr hf hp]
  cases kept : shadowOf s.dev q a with
  | none => exact ⟨read_answer rfl, by rw [shadowOf_answer]; exact kept, answer_regs _ _, answer_mem _ _⟩
  | some v =>
    exact ⟨read_answer rfl, by rw [shadowOf_answer]; exact shadowOf_dropShadow_same _ _ _, answer_regs _ _, answer_mem _ _⟩

theorem runs_read_word0 {k : Nat} (hr : s.dev.Reaches q a) (hf : findReg a = some (r, ix)) (hp : r.part = .word0 k)
    (hix : ix.getLastD 0 = 0) (hq : r.off ≠ R.LYNX_n_Q 0 0) :
    Runs (.pairLoRead q (BitVec.ofNat 26 a) 4) s fun e => Read q (busView s.dev a &&& readMask r) s.dev e ∧
      (∀ i, 0 < i → i < k → shadowOf e q (a + 4 * i) = some (busView s.dev (a + 4 * i) &&& readMask r)) ∧ e.regs = s.dev.regs ∧
      e.mem = s.dev.mem := by
  refine runs_pairLoRead hr hf ?_
  rw [regRead_word0 hr hf hp hix hq]
  have only := keepWords_shadowsOnly q r a k s.dev
  refine ⟨read_answer (by rw [only]), fun i h0 hi => ?_, ?_, ?_⟩
  · rw [shadowOf_answer, shadowOf_keepWords q r a k i s.dev h0 hi, readView]
  · rw [answer_regs, only]
  · rw [answer_mem, only]

end

/-- Settles O15, clause by clause: writes by access type, of pairs and behind a program's write; the event mask and reads that clear;
reports; and reads of halves and of word 0, with their shadows. -/
theorem registerAccess : Obligations.RegisterAccess :=
  ⟨⟨fun _ _ _ _ _ _ => runs_write_by_access_type,
    fun _ _ _ _ _ _ _ hr hf hf' hp hp' hc hc' hw hw' ho hl => runs_write_of_pair hr hf hf' hp hp' hc hc' hw hw' ho hl,
    fun _ _ n b t hu hi hx => exec_registerWrite_after_program n b t hu hi hx⟩,
   ⟨fun _ _ => runs_write_evqMask, fun _ _ _ _ _ => runs_read_single⟩,
   ⟨fun _ off _ _ => runs_write_size off, fun _ _ => runs_read_badAddr⟩,
   ⟨fun _ _ _ _ _ _ _ hr hf hp hf' hrc _ => runs_read_lo hr hf hp hf' hrc, fun _ _ _ _ _ => runs_read_hi,
    fun _ _ _ _ _ _ => runs_read_word0⟩⟩

end Sys2Proof.Machine
end

section
/-! SUPPORT. O16: events on their way from an island's crossing into the watch slots and the queue of the host. -/
namespace Sys2Proof.Machine

/-! ### A module that is released -/

theorem Dev.Released.runs_glb {d : Dev} (h : d.Released) : blockRuns d 0 = true := by
  obtain ⟨-, hq, hu, hs⟩ := h
  simp [blockRuns, blockUp, inSreset, hq, hu, hs]

/-- On a released module a meaning behind the guard of GLB runs, with what it does. -/
theorem runs_of_glb {c : Instr} {s : State} {p : Dev → Prop} (f : Dev → Dev) (hr : s.dev.Released) (h : exec c s = s.act (live 0 f))
    (hp : p (f s.dev)) : Runs c s p :=
  runs_of_act (live 0 f) h (by rwa [live, if_pos hr.runs_glb])

/-! ### Crossings -/

/-- The module with `c` as the crossing of island i. -/
def Dev.setCrossing (d : Dev) (i : Island) (c : Crossing) : Dev := { d with crossings := d.crossings.set i.val c }

@[simp] theorem Dev.crossing_setCrossing_same (d : Dev) (i : Island) (c : Crossing) : (d.setCrossing i c).crossings.get i = c :=
  Vector.getElem_set_self _

theorem Dev.crossing_setCrossing_ne (d : Dev) (i j : Island) (c : Crossing) (h : j ≠ i) :
    (d.setCrossing i c).crossings.get j = d.crossings.get j :=
  Vector.getElem_set_ne i.isLt j.isLt fun e => h (Fin.ext e.symm)

/-- A post on a crossing that holds nothing and has room is appended to its FIFO. -/
theorem Dev.post_room (d : Dev) (i : Island) (num sub arg : Nat) (ts : Option TS) (hh : (d.crossings.get i).held = [])
    (hf : (d.crossings.get i).fifo.length < 32) : d.post i num sub arg ts =
      d.setCrossing i { d.crossings.get i with fifo := (d.crossings.get i).fifo ++ [⟨num, sub % 256, BitVec.ofNat 64 arg, ts⟩] } := by
  simp only [Dev.post, hh, hf, List.isEmpty_nil, decide_true, Bool.and_self, if_true]
  rfl

/-! ### The watch slots (R249) -/

@[simp] theorem watch_watchAll (x : Event) (ts : TS) (d : Dev) (n : Fin 8) (w : Fin 16) :
    (((watchAll x ts d).aqs.ctxs.get n).watch.get w) = countWatch x ts ((d.aqs.ctxs.get n).watch.get w) := by
  simp only [watchAll, Vector.get_map]

theorem countWatch_num (x : Event) (ts : TS) (w : Watch) : (countWatch x ts w).num = w.num := by
  unfold countWatch
  split
  · rfl
  · split <;> rfl

/-- A slot of another number stays as it is. -/
theorem countWatch_other (x : Event) (ts : TS) (w : Watch) (h : w.num.toNat ≠ x.num) : countWatch x ts w = w := by
  simp [countWatch, h]

/-- A slot of the event's number that can count takes the occurrence. -/
theorem countWatch_same (x : Event) (ts : TS) (w : Watch) (hx : x.num ≠ 0) (h : w.num.toNat = x.num) (hc : w.cnt ≠ 255) :
    countWatch x ts w = { w with cnt := w.cnt + 1, sub := BitVec.ofNat 8 x.sub, arg := x.arg, ts } := by
  have used : w.num ≠ 0 := fun h0 => hx (by rw [← h, h0]; rfl)
  simp only [countWatch, used, h, hc, ne_eq, not_true_eq_false, decide_false, Bool.or_self, Bool.false_eq_true, if_false]

/-! ### The event queue (R415, R416) -/

@[simp] theorem length_leBytes (n v : Nat) : (leBytes n v).length = n := by
  induction n generalizing v with
  | zero => rfl
  | succ n ih => rw [leBytes, List.length_cons, ih]

theorem length_evqEntry (x : Event) (ts : TS) (gap : Bool) (seq : Word) : (evqEntry x ts gap seq).length = 32 := by
  simp [evqEntry]

theorem get_storeEvq_below (i k : Nat) (bs : List Byte) (m : Store Byte) (h : k < i) :
    Store.get zeroByte (storeEvq i bs m) k = Store.get zeroByte m k := by
  induction bs generalizing i m with
  | nil => rfl
  | cons b bs ih => rw [storeEvq, ih (i + 1) _ (by omega), Store.get_set_ne _ _ _ _ _ (by omega)]

/-- Bytes put into the queue read back. -/
theorem get_storeEvq (i k : Nat) (bs : List Byte) (m : Store Byte) (h : k < bs.length) :
    Store.get zeroByte (storeEvq i bs m) (i + k) = bs.getD k 0 := by
  induction bs generalizing i k m with
  | nil => simp at h
  | cons b bs ih =>
    cases k with
    | zero =>
      rw [storeEvq, get_storeEvq_below _ _ _ _ (by omega)]
      exact Store.get_set_same _ _ _ _
    | succ k =>
      have next := ih (i + 1) k (Store.set zeroByte m i b) (by simpa using h)
      rwa [Nat.add_right_comm] at next

section
variable {d : Dev} {x : Event} {ts : TS}

/-- An admitted event whose block has no vector is written at the write pointer of a queue with room. -/
theorem appendEvent_room (hx : x.num ≠ 0) (hm : bitsOf (d.get F.GLB_EVQ_MASK_BLOCKS) (x.num / 64) (x.num / 64) = 1)
    (hv : d.get (F.GLB_IRQ_ROUTE_EN (x.num / 64)) = 0) (hr : d.rd R.GLB_EVQ_RD = 0) (hw : (d.rd R.GLB_EVQ_WR).toNat < 8192) :
    appendEvent x ts d =
      (d.setHost { d.host with evq := storeEvq (32 * (d.rd R.GLB_EVQ_WR).toNat) (evqEntry x ts d.host.gap d.host.seq) d.host.evq
                               gap := false, seq := d.host.seq + 1 }).wr R.GLB_EVQ_WR
        (BitVec.ofNat 32 ((d.rd R.GLB_EVQ_WR).toNat + 1)) := by
  have room : ¬ 8192 ≤ ((d.rd R.GLB_EVQ_WR).toNat + 2 ^ 32 - (d.rd R.GLB_EVQ_RD).toNat) % 2 ^ 32 := by
    have rd0 : (d.rd R.GLB_EVQ_RD).toNat = 0 := congrArg BitVec.toNat hr
    omega
  have slot : (d.rd R.GLB_EVQ_WR).toNat % 8192 = (d.rd R.GLB_EVQ_WR).toNat := Nat.mod_eq_of_lt hw
  have unrouted (h : HostIf) (v : Word) : ((d.setHost h).wr R.GLB_EVQ_WR v).flag (F.GLB_IRQ_ROUTE_EN (x.num / 64)) = false := by
    rw [Dev.flag, Dev.get_wr_ne _ _ _ _ (by simp only [F.GLB_IRQ_ROUTE_EN, R.GLB_IRQ_ROUTE, R.GLB_EVQ_WR]; omega)]
    exact bne_eq_false_iff_eq.mpr hv
  simp only [appendEvent, hx, hm, room, slot, unrouted, one_ne_zero, decide_false, Bool.or_self, Bool.false_eq_true, if_false]

/-- An admitted event that finds the queue full is lost: the next entry will say so, and the loss is counted. -/
theorem appendEvent_full (hx : x.num ≠ 0) (hm : bitsOf (d.get F.GLB_EVQ_MASK_BLOCKS) (x.num / 64) (x.num / 64) = 1)
    (hr : d.rd R.GLB_EVQ_RD = 0) (hw : (d.rd R.GLB_EVQ_WR).toNat = 8192) :
    appendEvent x ts d =
      ((d.setHost { d.host with gap := true, seq := d.host.seq + 1 }).count R.GLB_EVQ_LOST).putB F.GLB_STATUS_EVQ_OVF true := by
  have full : 8192 ≤ ((d.rd R.GLB_EVQ_WR).toNat + 2 ^ 32 - (d.rd R.GLB_EVQ_RD).toNat) % 2 ^ 32 := by
    rw [hr, hw]; decide
  simp only [appendEvent, hx, hm, full, one_ne_zero, decide_false, Bool.or_self, Bool.false_eq_true, if_false, if_true]

end

theorem Dev.rd_count_same (d : Dev) (a n : Nat) : ((d.count a n).rd a).toNat = min ((d.rd a).toNat + n) 0xFFFFFFFF := by
  rw [Dev.count, Dev.rd_wr_same, BitVec.toNat_ofNat, Nat.mod_eq_of_lt (by omega)]

theorem Dev.rd_count_ne (d : Dev) (a b n : Nat) (h : b ≠ a) : (d.count a n).rd b = d.rd b := Dev.rd_wr_ne _ _ _ _ h

/-! ### What arrives in Q -/

section
variable {s : State} {i : Island} {x : Event} {rest held : List Event} {lost : Nat}

/-- The module once the oldest event has left its crossing, with a held one in its place, and the watch slots have seen it. -/
def Dev.taken (d : Dev) (i : Island) (x : Event) (rest held : List Event) (lost : Nat) : Dev :=
  watchAll x (x.ts.getD (mkTS d.aqs.tick.toNat)) (d.setCrossing i ⟨rest ++ held.take 1, held.drop 1, lost⟩)

/-- What arrives is taken from the crossing, shown to the watch slots and appended to the queue. -/
theorem eventArrival_front {d : Dev} (h : d.crossings.get i = ⟨x :: rest, held, lost⟩) :
    eventArrival i none d = appendEvent x (x.ts.getD (mkTS d.aqs.tick.toNat)) (d.taken i x rest held lost) := by
  simp only [eventArrival, h]
  rfl

theorem runs_eventArrival_room (hr : s.dev.Released) (hc : s.dev.crossings.get i = ⟨x :: rest, held, lost⟩) (hx : x.num ≠ 0)
    (hm : bitsOf (s.dev.get F.GLB_EVQ_MASK_BLOCKS) (x.num / 64) (x.num / 64) = 1)
    (hv : s.dev.get (F.GLB_IRQ_ROUTE_EN (x.num / 64)) = 0) (hrd : s.dev.rd R.GLB_EVQ_RD = 0)
    (hwr : (s.dev.rd R.GLB_EVQ_WR).toNat < 8192) :
    Runs (.eventArrival ⟨i, none⟩) s fun e =>
      e.crossings.get i = ⟨rest ++ held.take 1, held.drop 1, lost⟩ ∧ (∀ j, j ≠ i → e.crossings.get j = s.dev.crossings.get j) ∧
      (e.rd R.GLB_EVQ_WR).toNat = (s.dev.rd R.GLB_EVQ_WR).toNat + 1 ∧
      (∀ k : Fin 32, Store.get zeroByte e.host.evq (32 * (s.dev.rd R.GLB_EVQ_WR).toNat + k.val) =
        (evqEntry x (x.ts.getD (mkTS s.dev.aqs.tick.toNat)) s.dev.host.gap s.dev.host.seq).getD k.val 0) ∧
      (∀ (n : Fin 8) (w : Fin 16), (((e.aqs.ctxs.get n).watch.get w).num = ((s.dev.aqs.ctxs.get n).watch.get w).num) ∧
        (((s.dev.aqs.ctxs.get n).watch.get w).num.toNat = x.num → ((s.dev.aqs.ctxs.get n).watch.get w).cnt ≠ 255 →
          ((e.aqs.ctxs.get n).watch.get w).cnt = ((s.dev.aqs.ctxs.get n).watch.get w).cnt + 1 ∧
          ((e.aqs.ctxs.get n).watch.get w).arg = x.arg) ∧
        (((s.dev.aqs.ctxs.get n).watch.get w).num.toNat ≠ x.num → (e.aqs.ctxs.get n).watch.get w = (s.dev.aqs.ctxs.get n).watch.get w)) ∧
      e.mem = s.dev.mem ∧ RegsOutside [R.GLB_EVQ_WR] s.dev e := by
  refine runs_of_glb (eventArrival i none) hr rfl ?_
  rw [eventArrival_front hc, appendEvent_room (d := s.dev.taken i x rest held lost) hx hm hv hrd hwr]
  refine ⟨Dev.crossing_setCrossing_same _ _ _, fun j hj => Dev.crossing_setCrossing_ne _ _ _ _ hj, ?_, fun k => ?_, fun n w => ?_, rfl,
    fun a ha => Dev.rd_wr_ne _ _ _ _ (by simpa using ha)⟩
  · rw [Dev.rd_wr_same, BitVec.toNat_ofNat]
    exact Nat.mod_eq_of_lt (Nat.lt_trans (Nat.succ_lt_succ hwr) (by decide))
  · exact get_storeEvq _ _ _ _ (by rw [length_evqEntry]; exact k.isLt)
  · have seen : (((s.dev.taken i x rest held lost).aqs.ctxs.get n).watch.get w) =
        countWatch x (x.ts.getD (mkTS s.dev.aqs.tick.toNat)) ((s.dev.aqs.ctxs.get n).watch.get w) := watch_watchAll _ _ _ _ _
    simp only [Dev.wr_aqs, Dev.setHost, seen]
    refine ⟨countWatch_num _ _ _, fun same free => ?_, countWatch_other _ _ _⟩
    rw [countWatch_same _ _ _ hx same free]
    exact ⟨rfl, rfl⟩

theorem runs_eventArrival_full (hr : s.dev.Released) (hc : s.dev.crossings.get i = ⟨x :: rest, held, lost⟩) (hx : x.num ≠ 0)
    (hm : bitsOf (s.dev.get F.GLB_EVQ_MASK_BLOCKS) (x.num / 64) (x.num / 64) = 1) (hrd : s.dev.rd R.GLB_EVQ_RD = 0)
    (hwr : (s.dev.rd R.GLB_EVQ_WR).toNat = 8192) :
    Runs (.eventArrival ⟨i, none⟩) s fun e => e.crossings.get i = ⟨rest ++ held.take 1, held.drop 1, lost⟩ ∧ e.host.evq = s.dev.host.evq ∧
      e.host.gap = true ∧ e.get F.GLB_STATUS_EVQ_OVF = 1 ∧
      (e.rd R.GLB_EVQ_LOST).toNat = min ((s.dev.rd R.GLB_EVQ_LOST).toNat + 1) 0xFFFFFFFF ∧
      RegsOutside [R.GLB_STATUS, R.GLB_EVQ_LOST] s.dev e ∧ e.mem = s.dev.mem := by
  refine runs_of_glb (eventArrival i none) hr rfl ?_
  rw [eventArrival_front hc, appendEvent_full (d := s.dev.taken i x rest held lost) hx hm hrd hwr]
  refine ⟨Dev.crossing_setCrossing_same _ _ _, rfl, rfl, Dev.get_put_same _ _ _ (by decide), ?_, fun a ha => ?_, rfl⟩
  · rw [Dev.putB, Dev.rd_put_ne _ _ _ _ (by decide), Dev.rd_count_same]
    rfl
  · obtain ⟨hstatus, hlost⟩ : a ≠ R.GLB_STATUS ∧ a ≠ R.GLB_EVQ_LOST := by simpa using ha
    rw [Dev.putB, Dev.rd_put_ne _ _ _ _ hstatus, Dev.rd_count_ne _ _ _ _ hlost]
    rfl

/-! ### A rearm of the same Q cycle (R418) -/

theorem issueMessage_pwr (v : Fin 64) (d : Dev) : (issueMessage v d).pwr = d.pwr := by
  unfold issueMessage
  split <;> rfl

theorem rearmVector_pwr (d : Dev) (v : Fin 64) : (rearmVector d v).pwr = d.pwr := by
  unfold rearmVector
  split
  · rw [issueMessage_pwr]; rfl
  · rfl

theorem irqRearm_pwr (k : Fin 2) (bits : Word) (d : Dev) : (irqRearm k bits d).pwr = d.pwr :=
  List.foldlRecOn _ rearmVector (motive := fun e => e.pwr = d.pwr) rfl fun e he v _ => (rearmVector_pwr e v).trans he

theorem exec_eventArrival_after_rearm {u : State} (k : Fin 2) (bits : Word) (hr : s.dev.Released) (hh : hostReaches s.dev = true)
    (hx : exec (.irqRearm k bits) s = .next u) :
    exec (.eventArrival ⟨i, some (k, bits)⟩) s = exec (.eventArrival ⟨i, none⟩) u := by
  have rearmed : exec (.irqRearm k bits) s = .next { s with dev := irqRearm k bits s.dev } := by
    change s.act (live 0 (irqRearm k bits)) = _
    rw [State.act, live, if_pos hr.runs_glb]
  rw [rearmed] at hx
  cases hx
  have released : (irqRearm k bits s.dev).Released := by rwa [Dev.Released, irqRearm_pwr]
  change s.act (live 0 (eventArrival i (some (k, bits)))) = State.act (live 0 (eventArrival i none)) _
  simp only [State.act, live, hr.runs_glb, released.runs_glb, if_true, eventArrival, hh]

/-! ### What is lost on the way (R35) -/

theorem runs_eventDiscard (hr : s.dev.Released) (hc : (s.dev.crossings.get i).held = x :: rest) :
    Runs (.eventDiscard i) s fun e => e.crossings.get i = ⟨(s.dev.crossings.get i).fifo, rest, (s.dev.crossings.get i).lost + 1⟩ ∧
      (e.rd (R.GLB_EVENT_LOST i.val)).toNat = min ((s.dev.rd (R.GLB_EVENT_LOST i.val)).toNat + 1) 0xFFFFFFFF ∧
      RegsOutside [R.GLB_EVENT_LOST i.val] s.dev e ∧ ∀ j, j ≠ i → e.crossings.get j = s.dev.crossings.get j := by
  have discarded : eventDiscard i s.dev = (s.dev.setCrossing i ⟨(s.dev.crossings.get i).fifo, rest,
      (s.dev.crossings.get i).lost + 1⟩).count (R.GLB_EVENT_LOST i.val) := by
    simp only [eventDiscard, hc]
    rfl
  refine runs_of_glb (eventDiscard i) hr rfl ?_
  rw [discarded]
  exact ⟨Dev.crossing_setCrossing_same _ _ _, Dev.rd_count_same _ _ _, fun a ha => Dev.rd_count_ne _ _ _ _ (by simpa using ha),
    fun j hj => Dev.crossing_setCrossing_ne _ _ _ _ hj⟩

/-- With nothing held and room, the loss is said and the count begins anew. -/
theorem sayEventLost_room {d : Dev} {fifo : List Event} (hc : d.crossings.get i = ⟨fifo, [], lost⟩) (hf : fifo.length < 32)
    (hl : lost ≠ 0) : sayEventLost i d =
      d.setCrossing i ⟨fifo ++ [⟨evEventLost, i.val % 256, BitVec.ofNat 64 lost, none⟩], [], 0⟩ := by
  have crossing := Dev.crossing_setCrossing_same d i ⟨fifo, [], 0⟩
  have said : sayEventLost i d = (d.setCrossing i ⟨fifo, [], 0⟩).post i evEventLost i.val lost := by
    simp only [sayEventLost, hc, hl, Nat.not_le.mpr hf, decide_false, List.isEmpty_nil, Bool.not_true, Bool.or_self, Bool.false_eq_true,
      if_false]
    rfl
  rw [said, Dev.post_room _ _ _ _ _ _ (by rw [crossing]) (by rwa [crossing]), crossing]
  simp only [Dev.setCrossing, Vector.set_set]

theorem runs_evEventLost (hr : s.dev.Released) (hh : (s.dev.crossings.get i).held = [])
    (hf : (s.dev.crossings.get i).fifo.length < 32) (hl : (s.dev.crossings.get i).lost ≠ 0) :
    Runs (.evEventLost i) s fun e => (e.crossings.get i).lost = 0 ∧
      ((e.crossings.get i).fifo.getLast?.map (·.num)) = some 1 ∧ e.regs = s.dev.regs ∧
      ∀ j, j ≠ i → e.crossings.get j = s.dev.crossings.get j := by
  rcases hc : s.dev.crossings.get i with ⟨fifo, held, lost⟩
  rw [hc] at hh hf hl
  cases hh
  refine runs_of_glb (sayEventLost i) hr rfl ?_
  rw [sayEventLost_room hc hf hl]
  refine ⟨?_, ?_, rfl, fun j hj => Dev.crossing_setCrossing_ne _ _ _ _ hj⟩
  · rw [Dev.crossing_setCrossing_same]
  · rw [Dev.crossing_setCrossing_same, List.getLast?_concat]
    rfl

end

/-- Settles O16: what arrives in a queue with room, on a full queue, and behind a rearm; what is discarded, and what says so. -/
theorem eventDelivery : Obligations.EventDelivery :=
  ⟨⟨fun _ _ _ _ _ _ hr hc hx _ hm hv hrd hwr => runs_eventArrival_room hr hc hx hm hv hrd hwr,
    fun _ _ _ _ _ _ hr hc hx _ hm hrd hwr => runs_eventArrival_full hr hc hx hm hrd hwr,
    fun _ _ _ k bits hr hh hx => exec_eventArrival_after_rearm k bits hr hh hx⟩,
   ⟨fun _ _ _ _ hr hc => runs_eventDiscard hr hc, fun _ _ hr hh hf hl => runs_evEventLost hr hh hf hl⟩⟩

end Sys2Proof.Machine
end

section
/-! SUPPORT. What a statement claims of a command holds of the hardware that the command leaves. -/
namespace Sys2Proof.Machine

theorem Runs.of_exec {c : Instr} {s : State} {d : Dev} {p : Dev → Prop} (r : Runs c s p) (h : exec c s = .next { s with dev := d }) : p d := by
  obtain ⟨e, he, hp⟩ := r
  cases he.symm.trans h
  exact hp

end Sys2Proof.Machine
end

section
/-! SUPPORT. O20: a link change to a lane width that Table 17.1 does not list. -/
namespace Sys2Proof.Machine

/-- A report of a lane width that Table 17.1 does not list changes nothing. -/
theorem linkChange_unlisted_width (speed : Fin 7) (width : Fin 17) (up : Bool) (pm : BitVec 2) (d : Dev)
    (h : width.val ∉ [0, 1, 2, 4, 8, 16]) : linkChange speed width up pm d = d := by
  have unlisted : [0, 1, 2, 4, 8, 16].contains width.val = false := by simpa using h
  simp only [linkChange, unlisted, Bool.not_false, Bool.or_true, Bool.true_or, if_true]

/-- A module that is up, with PERST_N high; the link has not trained. -/
def linkUntrained : Dev := { pwr := { kUp := true, qUp := true, up := true }, host := { perst := false } }

/-- Refutes O20: its first clause is for every width up to 16, and a change to 3 lanes, which is no link of Table 17.1, leaves
PCIE_STATUS.WIDTH at 0. -/
theorem not_endpointEvents : ¬ Obligations.EndpointEvents := by
  rintro ⟨linkShown, -⟩
  have unchanged : exec (.linkChange 1 3 true 0) ⟨linkUntrained, []⟩ = .next ⟨linkUntrained, []⟩ := by
    change State.act (linkChange 1 3 true 0) _ = _
    rw [State.act, linkChange_unlisted_width _ _ _ _ _ (by decide)]
  obtain ⟨-, width, -⟩ := (linkShown ⟨linkUntrained, []⟩ 1 3 true 0 ⟨rfl, rfl, rfl, rfl, rfl⟩ rfl (by decide +kernel)).of_exec unchanged
  have untrained : linkUntrained.get F.PCIE_STATUS_WIDTH = 0 := by decide +kernel
  exact absurd (untrained.symm.trans width) (by decide)

end Sys2Proof.Machine
end

section
/-! SUPPORT. O31: the vector that completes a span, with a request of FOX_ARM waiting for the span's end. -/
namespace Sys2Proof.Machine

/-- SENTRY under a locked sample clock: the vectors of inputs 0 to 2 of the first span have come, that of input 3 is due, FOX is
disarmed with the external source enabled, and an ARM written meanwhile waits for the span to end (R522). -/
def armWaits : Dev :=
  ({ pwr := { kUp := true, qUp := true, up := true }
     conv := { next := #v[some 8192, some 8192, some 8192, some 0] }
     fox := { due := [.arm] } } : Dev).put F.STAG_STATUS_SL_LOCK 1 |>.put F.PWR_STATUS_READY 1 |>.efw R.FOX_CTRL 2

/-- A vector without an overranged sample. -/
def quietVector : List Sample := List.replicate 256 ⟨0, false⟩

/-- The four samples that follow it. -/
def quietAhead : List (BitVec 10) := List.replicate 4 0

/-- It is the last vector of its span, and the waiting ARM then arms FOX. -/
theorem armWaits_armed : (settleDue (vectorDelivered 3 0 quietVector quietAhead [] armWaits)).armed = true := by decide +kernel

/-- Refutes O31: its first clause has FOX disarmed after every vector delivered to a disarmed FOX, but an ARM written within the span
acts when its last vector is delivered. -/
theorem not_vectorsAndLines : ¬ Obligations.VectorsAndLines := by
  rintro ⟨delivered, -⟩
  have up : armWaits.Up := ⟨rfl, rfl, rfl, rfl, rfl⟩
  have due : vectorDue 3 0 quietVector.length armWaits = true := by decide +kernel
  have armed : exec (.vectorDelivered 3 0 quietVector quietAhead []) ⟨armWaits, []⟩ =
      .next ⟨settleDue (vectorDelivered 3 0 quietVector quietAhead [] armWaits), []⟩ := by
    change State.act (live 2 (settleDue ∘ vectorDelivered 3 0 quietVector quietAhead [])) _ = _
    rw [State.act, live_up up, Function.comp_apply]
  obtain ⟨-, -, -, disarmed, -⟩ := (delivered ⟨armWaits, []⟩ 3 0 quietVector quietAhead [] up due (by decide +kernel) (by decide +kernel)
    (.inl rfl)).of_exec armed
  exact absurd (armWaits_armed.symm.trans disarmed) (by decide)

end Sys2Proof.Machine
end

section
/-! SUPPORT. O35: a block discarded after the first discard since an arm or START. -/
namespace Sys2Proof.Machine

@[simp] theorem Dev.rd_setRed (d : Dev) (p : Fin 4) (x : RedPipe) (a : Nat) : (d.setRed p x).rd a = d.rd a := rfl

/-- Showing a loss statement leaves RED_p_STATUS as it is. -/
theorem rd_showLoss_status (d : Dev) (p : Fin 4) (bs : List Byte) : (showLoss d p bs).rd (R.RED_p_STATUS p) = d.rd (R.RED_p_STATUS p) :=
  List.foldlRecOn _ _ (motive := fun e : Dev => e.rd (R.RED_p_STATUS p) = d.rd (R.RED_p_STATUS p)) rfl fun (e : Dev) he j _ => by
    have apart : R.RED_p_STATUS p ≠ R.RED_p_LS p j := by
      simp only [R.RED_p_STATUS, R.RED_p_LS]
      omega
    rw [Dev.rd_wr_ne _ _ _ _ apart, he]

/-- Only the first discard after an arm or START is said (R218): a later one leaves RED_p_STATUS as it is. -/
theorem rd_finishBlock_status_of_said (fl : Nat) (p : Fin 4) (d : Dev) (held : 2 ≤ (d.red.get p).ready.length)
    (said : (d.red.get p).saidDiscard = true) : (finishBlock fl p d).rd (R.RED_p_STATUS p) = d.rd (R.RED_p_STATUS p) := by
  have apart : R.RED_p_STATUS p ∉ [R.RED_p_LOST_LO p, R.RED_p_LOST_LO p + 4] := by
    simp only [R.RED_p_STATUS, R.RED_p_LOST_LO, List.mem_cons, List.not_mem_nil, or_false]
    omega
  cases hos : blockOuts d p with
  | nil => simp only [finishBlock, hos]
  | cons o os =>
    simp only [finishBlock, hos, held, said, if_true]
    rw [Dev.rd_wr64_ne _ _ _ _ apart, Dev.rd_setRed, rd_showLoss_status]

/-- A full block of a live pipe is finished. -/
theorem redBlock_live_full (p : Fin 4) (d : Dev) (notMem : pipeMem d p = false) (full : blockFull d p = true) :
    redBlock p d = finishBlock 0 p d := by
  simp only [redBlock, redBlockDone, notMem, full, Bool.false_and, Bool.false_eq_true, if_false, if_true]

/-- Pipe 0 is live and ON, holds two finished blocks and a full third one, has said a discard since its arm, and a START of it was refused
with PIPE_BUSY since. -/
def discardSaid : Dev :=
  ({ pwr := { kUp := true, qUp := true, up := true }
     red := Vector.replicate 4 { vals := List.replicate 8128 ⟨0, false, 9, 9, 0, 0, 0⟩
                                 ready := [⟨0, [], 0, false⟩, ⟨0, [], 0, false⟩], saidDiscard := true, running := true } } : Dev).setUnit
    (.red 0) stOn |>.put (F.RED_p_STATUS_LAST_CODE 0) 0x0C07

/-- Refutes O35: its second clause has LAST_CODE read BLOCK_DISCARDED after every discard, but only the first discard after an arm or
START sets it (R218), and PIPE_BUSY stands after a later one. -/
theorem not_reductionPipes : ¬ Obligations.ReductionPipes := by
  rintro ⟨⟨-, discarded⟩, -⟩
  have up : discardSaid.Up := ⟨rfl, rfl, rfl, rfl, rfl⟩
  have notMem : pipeMem discardSaid 0 = false := by decide +kernel
  have full : blockFull discardSaid 0 = true := by decide +kernel
  have finished : exec (.redBlockDone 0) ⟨discardSaid, []⟩ = .next ⟨finishBlock 0 0 discardSaid, []⟩ := by
    change State.act (live 12 (unheld 12 (redBlock 0))) _ = _
    rw [State.act, live_up up, unheld_up up, redBlock_live_full _ _ notMem full]
  obtain ⟨-, -, -, code, -⟩ := (discarded ⟨discardSaid, []⟩ 0 up (by decide +kernel) full (by decide +kernel) (by decide +kernel)
    (by decide +kernel)).of_exec finished
  have busy : discardSaid.get (F.RED_p_STATUS_LAST_CODE 0) = 0x0C07 := by decide +kernel
  have kept : (finishBlock 0 0 discardSaid).get (F.RED_p_STATUS_LAST_CODE 0) = discardSaid.get (F.RED_p_STATUS_LAST_CODE 0) :=
    congrArg (fun w : Word => bitsOf w.toNat 31 16) (rd_finishBlock_status_of_said 0 0 discardSaid (by decide +kernel) (by decide +kernel))
  exact absurd (code.symm.trans (kept.trans busy)) (by decide)

end Sys2Proof.Machine
end

section
/-! SUPPORT. O23: the end of an estimation window, and the end of a spare's shadow. -/
namespace Sys2Proof.Machine

/-- On a module that is up, a block's own work that leaves the hardware as it was changes nothing. -/
theorem gives_same_of_unheld {c : Instr} {s : State} (b o : Nat) (f : Dev → Dev) (hu : s.dev.Up)
    (h : exec c s = s.act (live b (unheld o f))) (same : f s.dev = s.dev) : Gives c s s.dev := by
  rw [Gives, h, State.act, live_up hu, unheld_up hu, same]

/-! ### What ILV shows -/

/-- From `d` to `e` only registers in `touched` change, and of ILV's state neither the conversions counted nor the proposals staged:
nothing takes effect. -/
structure Shows (touched : Nat → Prop) (d e : Dev) : Prop where
  eff : e.eff = d.eff
  mem : e.mem = d.mem
  window : e.conv.window = d.conv.window
  proposals : e.conv.proposals = d.conv.proposals
  rd : ∀ a, ¬ touched a → e.rd a = d.rd a

namespace Shows
variable {touched wider : Nat → Prop} {c d e : Dev}

theorem refl (d : Dev) : Shows touched d d := ⟨rfl, rfl, rfl, rfl, fun _ _ => rfl⟩

theorem trans (h : Shows touched c d) (h' : Shows touched d e) : Shows touched c e :=
  ⟨h'.eff.trans h.eff, h'.mem.trans h.mem, h'.window.trans h.window, h'.proposals.trans h.proposals,
    fun a ha => (h'.rd a ha).trans (h.rd a ha)⟩

theorem widen (h : Shows touched d e) (sub : ∀ a, touched a → wider a) : Shows wider d e :=
  ⟨h.eff, h.mem, h.window, h.proposals, fun a ha => h.rd a (mt (sub a) ha)⟩

theorem wr (h : Shows touched d e) {a : Nat} (ha : touched a) (v : Word) : Shows touched d (e.wr a v) :=
  h.trans ⟨rfl, rfl, rfl, rfl, fun _ hb => Dev.rd_wr_ne _ _ _ _ fun same => hb (same ▸ ha)⟩

theorem put (h : Shows touched d e) {f : Field} (hf : touched f.reg) (x : Nat) : Shows touched d (e.put f x) := h.wr hf _

theorem post (h : Shows touched d e) (i : Island) (num sub arg : Nat) (ts : Option TS) : Shows touched d (e.post i num sub arg ts) :=
  h.trans ⟨rfl, rfl, rfl, rfl, fun _ _ => rfl⟩

theorem foldl {β : Type} {f : Dev → β → Dev} (l : List β) (d : Dev) (h : ∀ x ∈ l, ∀ e, Shows touched e (f e x)) :
    Shows touched d (l.foldl f d) :=
  List.foldlRecOn _ _ (motive := Shows touched d) (refl d) fun e he x hx => he.trans (h x hx e)

theorem cfg (h : Shows touched d e) (f : Field) : e.cfg f = d.cfg f := by rw [Dev.cfg, Dev.ef, h.eff]; rfl

theorem arr (h : Shows touched d e) (ha : ¬ touched R.GLB_MODE_STATUS) : e.arr = d.arr :=
  congrArg (fun w : Word => bitsOf w.toNat _ _) (h.rd _ ha)

end Shows

/-- In a fold, what stands in some registers at the end is what one element's step leaves there, on hardware that still holds them
as they were, when the steps of the other elements leave them alone. `inv` is what every step keeps. -/
theorem rd_foldl_of_apart {β : Type} {f : Dev → β → Dev} {l : List β} {x : β} {regs : Nat → Prop} {inv : Dev → Prop} (hx : x ∈ l)
    (distinct : l.Nodup) (kept : ∀ y ∈ l, ∀ e, inv e → inv (f e y))
    (apart : ∀ y ∈ l, y ≠ x → ∀ e, inv e → ∀ a, regs a → (f e y).rd a = e.rd a) (d : Dev) (hd : inv d) :
    ∃ e, inv e ∧ (∀ a, regs a → e.rd a = d.rd a) ∧ ∀ a, regs a → (l.foldl f d).rd a = (f e x).rd a := by
  have run (m : List β) (sub : m ⊆ l) (not : x ∉ m) (c : Dev) (hc : inv c) :
      inv (m.foldl f c) ∧ ∀ a, regs a → (m.foldl f c).rd a = c.rd a :=
    List.foldlRecOn _ _ (motive := fun e => inv e ∧ ∀ a, regs a → e.rd a = c.rd a) ⟨hc, fun _ _ => rfl⟩ fun e ⟨he, same⟩ y hy =>
      ⟨kept y (sub hy) e he, fun a ha =>
        (apart y (sub hy) (fun h => not (h ▸ hy)) e he a ha).trans (same a ha)⟩
  obtain ⟨before, after, rfl⟩ := List.mem_iff_append.mp hx
  obtain ⟨notBefore, notAfter⟩ : x ∉ before ∧ x ∉ after := by
    rw [List.nodup_middle, List.nodup_cons, List.mem_append, not_or] at distinct
    exact distinct.1
  obtain ⟨invBefore, sameBefore⟩ := run before (by simp) notBefore d hd
  refine ⟨before.foldl f d, invBefore, sameBefore, fun a ha => ?_⟩
  rw [List.foldl_append, List.foldl_cons]
  exact (run after (fun y hy => by simp [hy]) notAfter _ (kept x hx _ invBefore)).2 a ha

/-! ### The banks of an arrangement (Table 2.2) -/

theorem sampledInputs_nodup (arr : Nat) : (sampledInputs arr).Nodup := by
  match arr with
  | 0 => decide
  | 1 => decide
  | _ + 2 => exact List.nodup_singleton 0

theorem banksOf_nodup (arr inp : Nat) : (banksOf arr inp).Nodup := by
  match arr with
  | 0 => exact List.nodup_singleton inp
  | 1 => simp [banksOf]
  | _ + 2 => exact (by decide : [0, 1, 2, 3].Nodup)

theorem banksOf_lt {arr inp b : Nat} (hi : inp ∈ sampledInputs arr) (hb : b ∈ banksOf arr inp) : b < 4 := by
  match arr with
  | 0 | 1 | _ + 2 =>
    simp only [sampledInputs, banksOf, List.mem_cons, List.not_mem_nil, or_false] at hi hb
    omega

/-- A bank serves one input. -/
theorem banksOf_apart {arr inp other b : Nat} (hi : inp ∈ sampledInputs arr) (ho : other ∈ sampledInputs arr) (ne : other ≠ inp)
    (hb : b ∈ banksOf arr inp) : b ∉ banksOf arr other := by
  match arr with
  | 0 | 1 | _ + 2 =>
    simp only [sampledInputs, banksOf, List.mem_cons, List.not_mem_nil, or_false] at hi ho hb ⊢
    omega

/-! ### ILV's registers -/

/-- The registers in which ILV shows a bank's windows and proposals. -/
def bankReg (b a : Nat) : Prop := a = R.ILV_b_EST b ∨ ∃ k ≤ 32, a = R.ILV_b_PROPA b k ∨ a = R.ILV_b_PROPB b k

/-- Those that one input's part of a window end may write. -/
def inputReg (banks : List Nat) (a : Nat) : Prop := a = R.ILV_STATUS ∨ ∃ b ∈ banks, bankReg b a

/-- Those that the classification of sub-converters may write. -/
def flagReg (a : Nat) : Prop := a = R.ILV_STATUS ∨ ∃ b : Fin 4, a = R.ILV_b_SPARE b ∨ a = R.ILV_b_SLOW b ∨ a = R.ILV_b_FAIL b

theorem bankReg_apart {a b c : Nat} (hb : b < 4) (hc : c < 4) (ne : b ≠ c) (h : bankReg b a) : ¬ bankReg c a := by
  simp only [bankReg, R.ILV_b_EST, R.ILV_b_PROPA, R.ILV_b_PROPB] at h ⊢
  rintro (rfl | ⟨j, hj, rfl | rfl⟩) <;> obtain h | ⟨k, hk, h | h⟩ := h <;> omega

theorem not_inputReg_of_bankReg {a b : Nat} {banks : List Nat} (hb : b < 4) (lt : ∀ c ∈ banks, c < 4) (not : b ∉ banks)
    (h : bankReg b a) : ¬ inputReg banks a := by
  rintro (rfl | ⟨c, hc, h'⟩)
  · simp only [bankReg, R.ILV_b_EST, R.ILV_b_PROPA, R.ILV_b_PROPB, R.ILV_STATUS] at h
    obtain h | ⟨k, -, h | h⟩ := h <;> omega
  · exact bankReg_apart hb (lt c hc) (fun same => not (same ▸ hc)) h h'

theorem not_flagReg_of_bankReg {a b : Nat} (h : bankReg b a) (hb : b < 4) : ¬ flagReg a := by
  simp only [bankReg, R.ILV_b_EST, R.ILV_b_PROPA, R.ILV_b_PROPB] at h
  simp only [flagReg, R.ILV_STATUS, R.ILV_b_SPARE, R.ILV_b_SLOW, R.ILV_b_FAIL]
  rintro (h' | ⟨c, h' | h' | h'⟩) <;> obtain h | ⟨k, -, h | h⟩ := h <;> omega

theorem not_inputReg_modeStatus (banks : List Nat) : ¬ inputReg banks R.GLB_MODE_STATUS := by
  simp only [inputReg, bankReg, R.ILV_STATUS, R.ILV_b_EST, R.ILV_b_PROPA, R.ILV_b_PROPB, R.GLB_MODE_STATUS]
  rintro (h | ⟨b, -, h | ⟨k, -, h | h⟩⟩) <;> omega

/-! ### One input's part of a window end (R85, R86) -/

/-- A bank's window is counted, with its quality. -/
def countBank (q : Nat) (d : Dev) (b : Nat) : Dev :=
  (d.put (F.ILV_b_EST_QUAL b) q).put (F.ILV_b_EST_WINDOWS b) ((d.get (F.ILV_b_EST_WINDOWS b) + 1) % 65536)

/-- The same for every bank of an input. -/
def countInput (quals : List Nat) (d : Dev) (inp : Nat) : Dev := (banksOf d.arr inp).foldl (countBank (qualOf quals inp)) d

/-- The proposals that are staged after an input's part of a window end, from those staged before. -/
def stageInput (quals : List Nat) (props : List TrimProp) (d : Dev) (staged : List TrimProp) (inp : Nat) : List TrimProp :=
  if qualOf quals inp < d.cfg F.ILV_CTRL_QUAL_MIN ∨ d.cfg F.ILV_CTRL_APPLY = 0 then staged
  else staged.filter (fun p => !(banksOf d.arr inp).contains p.bank.val) ++ (propsOf d props inp).map (fun p => (clampProp p).1)

/-- The module with other proposals staged. -/
def Dev.stage (d : Dev) (ps : List TrimProp) : Dev := { d with conv := { d.conv with proposals := ps } }

@[simp] theorem Dev.rd_stage (d : Dev) (ps : List TrimProp) (a : Nat) : (d.stage ps).rd a = d.rd a := rfl

theorem Dev.stage_of_eq {d : Dev} {ps : List TrimProp} (h : d.conv.proposals = ps) : d.stage ps = d := by subst h; rfl

theorem Shows.stage {touched : Nat → Prop} {d e : Dev} (h : Shows touched d e) (ps : List TrimProp) :
    Shows touched (d.stage ps) (e.stage ps) := ⟨h.eff, h.mem, h.window, rfl, h.rd⟩

theorem countBank_shows (q b : Nat) (d : Dev) : Shows (· = R.ILV_b_EST b) d (countBank q d b) :=
  ((Shows.refl (touched := (· = R.ILV_b_EST b)) d).put rfl q).put rfl _

/-- The registers of one sub-converter's proposal. -/
def propReg (p : TrimProp) (a : Nat) : Prop := a = R.ILV_b_PROPA p.bank p.sub ∨ a = R.ILV_b_PROPB p.bank p.sub

theorem not_propReg_status (p : TrimProp) : ¬ propReg p R.ILV_STATUS := by
  simp only [propReg, R.ILV_b_PROPA, R.ILV_b_PROPB, R.ILV_STATUS]
  omega

theorem not_propReg_est {b : Nat} (hb : b < 4) (p : TrimProp) : ¬ propReg p (R.ILV_b_EST b) := by
  simp only [propReg, R.ILV_b_PROPA, R.ILV_b_PROPB, R.ILV_b_EST]
  omega

/-- Sub-converters that exist have registers of their own. -/
theorem propReg_apart {p q : TrimProp} {a : Nat} (hp : p.sub ≤ 32) (hq : q.sub ≤ 32) (ne : (p.bank, p.sub) ≠ (q.bank, q.sub))
    (h : propReg p a) : ¬ propReg q a := by
  simp only [ne_eq, Prod.mk.injEq, Fin.ext_iff] at ne
  simp only [propReg, R.ILV_b_PROPA, R.ILV_b_PROPB] at h ⊢
  omega

theorem publishOne_shows (d : Dev) (p : TrimProp) : Shows (fun a => a = R.ILV_STATUS ∨ propReg p a) d (publishOne d p) := by
  have written := ((Shows.refl d).wr (touched := fun a => a = R.ILV_STATUS ∨ propReg p a) (.inr (.inl rfl))
    (propWordA (clampProp p).1)).wr (.inr (.inr rfl)) (propWordB (clampProp p).1)
  simp only [publishOne]
  split
  · exact written.put (.inl rfl) _
  · exact written

theorem rd_publishOne (d : Dev) (p : TrimProp) :
    (publishOne d p).rd (R.ILV_b_PROPA p.bank p.sub) = propWordA (clampProp p).1 ∧
    (publishOne d p).rd (R.ILV_b_PROPB p.bank p.sub) = propWordB (clampProp p).1 := by
  have status := not_propReg_status p
  simp only [propReg, not_or] at status
  have apart : R.ILV_b_PROPA p.bank p.sub ≠ R.ILV_b_PROPB p.bank p.sub := by
    simp only [R.ILV_b_PROPA, R.ILV_b_PROPB]
    omega
  have written := And.intro
    ((Dev.rd_wr_ne (d.wr _ (propWordA (clampProp p).1)) _ _ (propWordB (clampProp p).1) apart).trans (Dev.rd_wr_same _ _ _))
    (Dev.rd_wr_same (d.wr (R.ILV_b_PROPA p.bank p.sub) (propWordA (clampProp p).1)) (R.ILV_b_PROPB p.bank p.sub)
      (propWordB (clampProp p).1))
  simp only [publishOne]
  split
  · rwa [ilvCode, Dev.rd_put_ne _ _ _ _ (Ne.symm status.1), Dev.rd_put_ne _ _ _ _ (Ne.symm status.2)]
  · exact written

/-- The proposals of an input are published, and EV_ILV_PROPOSAL says so. -/
def publishAll (banks : List Nat) (mine : List TrimProp) (d : Dev) : Dev :=
  let e := mine.foldl publishOne d
  e.post .c evIlvProposal (banks.foldl (fun acc b => acc + 2 ^ b) 0) (e.get (F.ILV_b_EST_WINDOWS (banks.getD 0 0)))

theorem publishAll_shows (banks : List Nat) (mine : List TrimProp) (d : Dev) :
    Shows (fun a => a = R.ILV_STATUS ∨ ∃ p ∈ mine, propReg p a) d (publishAll banks mine d) := by
  have published := Shows.foldl (touched := fun a => a = R.ILV_STATUS ∨ ∃ p ∈ mine, propReg p a) mine d fun p hp e =>
    (publishOne_shows e p).widen fun _ ha => ha.imp_right fun ha => ⟨p, hp, ha⟩
  exact published.post _ _ _ _ _

/-- Each of the proposals stands in its registers, where no two are for one sub-converter. -/
theorem rd_publishAll {banks : List Nat} {mine : List TrimProp} {p : TrimProp} (distinct : (mine.map fun p => (p.bank, p.sub)).Nodup)
    (subs : ∀ q ∈ mine, q.sub ≤ 32) (hp : p ∈ mine) (d : Dev) :
    (publishAll banks mine d).rd (R.ILV_b_PROPA p.bank p.sub) = propWordA (clampProp p).1 ∧
    (publishAll banks mine d).rd (R.ILV_b_PROPB p.bank p.sub) = propWordB (clampProp p).1 := by
  obtain ⟨e, -, -, after⟩ := rd_foldl_of_apart (f := publishOne) (regs := propReg p) (inv := fun _ => True) hp distinct.of_map
    (fun _ _ _ _ => trivial) (fun q hq ne e _ a ha => (publishOne_shows e q).rd a fun h => by
      have keys : (p.bank, p.sub) ≠ (q.bank, q.sub) := fun same => ne (List.inj_on_of_nodup_map distinct hq hp same.symm)
      obtain rfl | h := h
      · exact not_propReg_status p ha
      · exact propReg_apart (subs p hp) (subs q hq) keys ha h) d trivial
  exact (rd_publishOne e p).imp (after _ (.inl rfl)).trans (after _ (.inr rfl)).trans

section
variable {quals : List Nat} {props : List TrimProp} {d : Dev} {inp b : Nat}

theorem countInput_shows (quals : List Nat) (d : Dev) (inp : Nat) :
    Shows (inputReg (banksOf d.arr inp)) d (countInput quals d inp) :=
  Shows.foldl _ d fun b hb e => (countBank_shows _ b e).widen fun _ ha => .inr ⟨b, hb, .inl ha⟩

theorem mem_propsOf {p : TrimProp} : p ∈ propsOf d props inp ↔ p ∈ props ∧ p.bank.val ∈ banksOf d.arr inp := by
  simp [propsOf]

/-- The proposals of an input that publishes name sub-converters that exist. -/
def SubsOk (quals : List Nat) (props : List TrimProp) (d : Dev) (inp : Nat) : Prop :=
  d.cfg F.ILV_CTRL_QUAL_MIN ≤ qualOf quals inp → ∀ p ∈ propsOf d props inp, p.sub ≤ 32

theorem publishInput_shows (subs : ∀ p ∈ propsOf d props inp, p.sub ≤ 32) (e : Dev) :
    Shows (inputReg (banksOf d.arr inp)) e (publishAll (banksOf d.arr inp) (propsOf d props inp) e) :=
  (publishAll_shows _ _ e).widen fun _ ha => ha.imp_right fun ⟨p, hp, ha⟩ =>
    ⟨p.bank, (mem_propsOf.mp hp).2, .inr ⟨p.sub, subs p hp, ha⟩⟩

/-- Below QUAL_MIN an input's windows are counted, with the code for it. -/
theorem windowInput_low (low : qualOf quals inp < d.cfg F.ILV_CTRL_QUAL_MIN) :
    windowInput quals props d inp = ilvCode (countInput quals d inp) 0x0303 :=
  if_pos ((countInput_shows quals d inp).cfg F.ILV_CTRL_QUAL_MIN ▸ low)

/-- From QUAL_MIN on its proposals are published too, and staged. -/
theorem windowInput_reached (reached : d.cfg F.ILV_CTRL_QUAL_MIN ≤ qualOf quals inp) (subs : ∀ p ∈ propsOf d props inp, p.sub ≤ 32) :
    windowInput quals props d inp = (publishAll (banksOf d.arr inp) (propsOf d props inp) (countInput quals d inp)).stage
      (stageInput quals props d d.conv.proposals inp) := by
  have counted := countInput_shows quals d inp
  have published := counted.trans (publishInput_shows subs _)
  have notLow := Nat.not_lt.mpr reached
  have mine : propsOf (countInput quals d inp) props inp = propsOf d props inp := by
    rw [propsOf, counted.arr (not_inputReg_modeStatus _), propsOf]
  have same : windowInput quals props d inp =
      if qualOf quals inp < (countInput quals d inp).cfg F.ILV_CTRL_QUAL_MIN then ilvCode (countInput quals d inp) 0x0303
      else
        let mine := propsOf (countInput quals d inp) props inp
        let e := publishAll (banksOf d.arr inp) mine (countInput quals d inp)
        if e.cfgB F.ILV_CTRL_APPLY then
          e.stage (e.conv.proposals.filter (fun p => !(banksOf d.arr inp).contains p.bank.val) ++ mine.map (fun p => (clampProp p).1))
        else e := rfl
  rw [same, counted.cfg, if_neg notLow, mine]
  simp only [Dev.cfgB, published.cfg, published.proposals, stageInput, notLow, false_or]
  by_cases off : d.cfg F.ILV_CTRL_APPLY = 0
  · simp only [off, bne_self_eq_false, Bool.false_eq_true, if_true, if_false]
    exact (Dev.stage_of_eq published.proposals).symm
  · simp only [off, bne_iff_ne, ne_eq, not_false_eq_true, if_true, if_false]

/-- An input's part of a window end stages proposals, and for the rest only shows. -/
theorem windowInput_shows (subs : SubsOk quals props d inp) :
    Shows (inputReg (banksOf d.arr inp)) (d.stage (stageInput quals props d d.conv.proposals inp)) (windowInput quals props d inp) := by
  have counted := countInput_shows quals d inp
  by_cases low : qualOf quals inp < d.cfg F.ILV_CTRL_QUAL_MIN
  · rw [windowInput_low low, Dev.stage_of_eq (by rw [stageInput, if_pos (.inl low)])]
    exact counted.put (.inl rfl) _
  · have reached := Nat.le_of_not_lt low
    rw [windowInput_reached reached (subs reached)]
    exact (counted.trans (publishInput_shows (subs reached) _)).stage _

/-! ### What a bank of the input shows -/

theorem rd_countInput (hb : b ∈ banksOf d.arr inp) : ∃ e : Dev, e.rd (R.ILV_b_EST b) = d.rd (R.ILV_b_EST b) ∧
    (countInput quals d inp).rd (R.ILV_b_EST b) = (countBank (qualOf quals inp) e b).rd (R.ILV_b_EST b) := by
  obtain ⟨e, -, before, after⟩ := rd_foldl_of_apart (f := countBank (qualOf quals inp)) (regs := (· = R.ILV_b_EST b)) (inv := fun _ => True)
    hb (banksOf_nodup d.arr inp) (fun _ _ _ _ => trivial)
    (fun c _ ne e _ a ha => (countBank_shows _ c e).rd a (by simp only [R.ILV_b_EST] at ha ⊢; omega)) d trivial
  exact ⟨e, before _ rfl, after _ rfl⟩

theorem estQual_ok (b : Nat) : (F.ILV_b_EST_QUAL b).ok := (by decide : 16 ≤ 23 ∧ 23 < 32)
theorem estWindows_ok (b : Nat) : (F.ILV_b_EST_WINDOWS b).ok := (by decide : 0 ≤ 15 ∧ 15 < 32)

theorem get_countBank_qual (q b : Nat) (d : Dev) (hq : q ≤ 255) : (countBank q d b).get (F.ILV_b_EST_QUAL b) = q := by
  have above : (F.ILV_b_EST_WINDOWS b).hi < (F.ILV_b_EST_QUAL b).lo := (by decide : 15 < 16)
  rw [countBank, Dev.get_put_other _ _ (F.ILV_b_EST_QUAL b) _ (estWindows_ok b) rfl (.inr above), Dev.get_put_same _ _ _ (estQual_ok b)]
  exact Nat.mod_eq_of_lt (Nat.lt_succ_of_le hq)

theorem get_countBank_windows (q b : Nat) (d : Dev) :
    (countBank q d b).get (F.ILV_b_EST_WINDOWS b) = (d.get (F.ILV_b_EST_WINDOWS b) + 1) % 65536 := by
  rw [countBank, Dev.get_put_same _ _ _ (estWindows_ok b)]
  exact Nat.mod_mod _ 65536

/-- Publishing and staging leave the counted windows. -/
theorem rd_windowInput_est (subs : SubsOk quals props d inp) (hb : b < 4) :
    (windowInput quals props d inp).rd (R.ILV_b_EST b) = (countInput quals d inp).rd (R.ILV_b_EST b) := by
  have status : R.ILV_b_EST b ≠ R.ILV_STATUS := by simp only [R.ILV_b_EST, R.ILV_STATUS]; omega
  by_cases low : qualOf quals inp < d.cfg F.ILV_CTRL_QUAL_MIN
  · rw [windowInput_low low, ilvCode, Dev.rd_put_ne _ _ _ _ status]
  · have reached := Nat.le_of_not_lt low
    rw [windowInput_reached reached (subs reached), Dev.rd_stage]
    refine (publishAll_shows _ _ _).rd _ ?_
    rintro (h | ⟨p, -, h⟩)
    · exact status h
    · exact not_propReg_est hb p h

/-- A bank of the input shows its quality, and one window more. -/
theorem get_windowInput_est (subs : SubsOk quals props d inp) (hb : b ∈ banksOf d.arr inp) (lt : b < 4) :
    (windowInput quals props d inp).get (F.ILV_b_EST_QUAL b) = qualOf quals inp ∧
    (windowInput quals props d inp).get (F.ILV_b_EST_WINDOWS b) = (d.get (F.ILV_b_EST_WINDOWS b) + 1) % 65536 := by
  obtain ⟨e, before, after⟩ := rd_countInput (quals := quals) hb
  have word := (rd_windowInput_est subs lt).trans after
  have field (f : Field) (h : f.reg = R.ILV_b_EST b) :
      (windowInput quals props d inp).get f = (countBank (qualOf quals inp) e b).get f := by
    rw [Dev.get, h, word, Dev.get, h]
  have windows : e.get (F.ILV_b_EST_WINDOWS b) = d.get (F.ILV_b_EST_WINDOWS b) := congrArg (fun w : Word => bitsOf w.toNat 15 0) before
  rw [field _ rfl, field _ rfl, get_countBank_qual (qualOf quals inp) _ _ (Nat.min_le_left 255 _), get_countBank_windows, windows]
  exact ⟨rfl, rfl⟩

/-- The proposals of an input that reaches QUAL_MIN stand in their registers. -/
theorem rd_windowInput_prop {p : TrimProp} (distinct : (props.map fun p => (p.bank, p.sub)).Nodup) (subs : SubsOk quals props d inp)
    (reached : d.cfg F.ILV_CTRL_QUAL_MIN ≤ qualOf quals inp) (hp : p ∈ propsOf d props inp) :
    (windowInput quals props d inp).rd (R.ILV_b_PROPA p.bank p.sub) = propWordA (clampProp p).1 ∧
    (windowInput quals props d inp).rd (R.ILV_b_PROPB p.bank p.sub) = propWordB (clampProp p).1 := by
  have mine : ((propsOf d props inp).map fun p => (p.bank, p.sub)).Nodup := distinct.sublist (List.filter_sublist.map _)
  rw [windowInput_reached reached (subs reached), Dev.rd_stage, Dev.rd_stage]
  exact rd_publishAll mine (subs reached) hp _

/-! ### A full set of proposals names sub-converters that exist (R85) -/

theorem inService_nodup (d : Dev) (b : Nat) : (inService d b).Nodup := by
  refine List.nodup_range.map_on fun x hx y hy same => ?_
  simp only [List.mem_range] at hx hy
  simp only [servedBy] at same
  split at same <;> split at same <;> omega

theorem le_of_mem_inService {k : Nat} (h : k ∈ inService d b) : k ≤ 32 := by
  obtain ⟨slot, hs, rfl⟩ := List.mem_map.mp h
  simp only [List.mem_range] at hs
  simp only [servedBy]
  split <;> omega

/-- The sub-converters in service, by bank. -/
def servingSubs (d : Dev) (banks : List Nat) : List (Nat × Nat) := banks.flatMap fun b => (inService d b).map fun k => (b, k)

theorem servingSubs_nodup {banks : List Nat} (h : banks.Nodup) : (servingSubs d banks).Nodup := by
  refine List.nodup_flatMap.mpr ⟨fun b _ => (inService_nodup d b).map fun _ _ same => (Prod.mk.inj same).2, h.imp fun ne => ?_⟩
  intro x hx hy
  obtain ⟨_, -, rfl⟩ := List.mem_map.mp hx
  obtain ⟨_, -, same⟩ := List.mem_map.mp hy
  exact ne (Prod.mk.inj same).1.symm

theorem length_servingSubs (d : Dev) (banks : List Nat) : (servingSubs d banks).length = 32 * banks.length := by
  simp [servingSubs, inService, List.length_flatMap, Nat.mul_comm]

/-- As many proposals as there are sub-converters in service, with one for each of these, leave none for another. -/
theorem sub_le_of_propsComplete {banks : List Nat} {mine : List TrimProp} (h : banks.Nodup) (full : propsComplete d banks mine = true) :
    ∀ p ∈ mine, p.sub ≤ 32 := by
  simp only [propsComplete, Bool.and_eq_true, beq_iff_eq, List.all_eq_true, List.any_eq_true] at full
  obtain ⟨count, each⟩ := full
  have covered : servingSubs d banks ⊆ mine.map fun p => (p.bank.val, p.sub) := by
    intro x hx
    obtain ⟨b, hb, hx⟩ := List.mem_flatMap.mp hx
    obtain ⟨k, hk, rfl⟩ := List.mem_map.mp hx
    obtain ⟨p, hp, bank, sub⟩ := each b hb k hk
    exact List.mem_map.mpr ⟨p, hp, by rw [bank, sub]⟩
  have same : (servingSubs d banks).Perm (mine.map fun p => (p.bank.val, p.sub)) :=
    ((servingSubs_nodup h).subperm covered).perm_of_length_le (by rw [List.length_map, count, length_servingSubs])
  intro p hp
  obtain ⟨b, -, hx⟩ := List.mem_flatMap.mp (same.mem_iff.mpr (List.mem_map.mpr ⟨p, hp, rfl⟩))
  obtain ⟨k, hk, named⟩ := List.mem_map.mp hx
  rw [← (Prod.mk.inj named).2]
  exact le_of_mem_inService hk

/-- What the estimator computed can be, so every input that publishes does so for sub-converters that exist. -/
theorem subsOk_of_windowOk (ok : windowOk quals props d = true) (hi : inp ∈ sampledInputs d.arr) : SubsOk quals props d inp := by
  intro reached
  have := List.all_eq_true.mp ok inp hi
  simp only [Bool.or_eq_true, decide_eq_true_eq, Nat.not_lt.mpr reached, false_or, Bool.and_eq_true] at this
  exact sub_le_of_propsComplete (banksOf_nodup _ _) this.1

/-! ### All inputs of a window end -/

theorem SubsOk.congr {e : Dev} (subs : SubsOk quals props d inp) (cfg : ∀ f, e.cfg f = d.cfg f) (arr : e.arr = d.arr) :
    SubsOk quals props e inp := by
  rwa [SubsOk, cfg, propsOf, arr]

theorem stageInput_congr {e : Dev} (cfg : ∀ f, e.cfg f = d.cfg f) (arr : e.arr = d.arr) (staged : List TrimProp) :
    stageInput quals props e staged inp = stageInput quals props d staged inp := by
  rw [stageInput, cfg, cfg, propsOf, arr]
  rfl

/-- Between two inputs of a window end the module is as before it, but for what is staged and shown; the arrangement is the same. -/
def Showing (d : Dev) (staged : List TrimProp) (e : Dev) : Prop := Shows (· ≠ R.GLB_MODE_STATUS) (d.stage staged) e

theorem Showing.arr {staged : List TrimProp} {e : Dev} (h : Showing d staged e) : e.arr = d.arr :=
  Shows.arr (d := d.stage staged) h (not_not_intro rfl)

theorem Showing.cfg {staged : List TrimProp} {e : Dev} (h : Showing d staged e) (f : Field) : e.cfg f = d.cfg f := Shows.cfg h f

theorem Showing.windowInput {staged : List TrimProp} {e : Dev} (h : Showing d staged e) (subs : SubsOk quals props d inp) :
    Showing d (stageInput quals props d staged inp) (windowInput quals props e inp) := by
  have shown := windowInput_shows (subs.congr h.cfg h.arr)
  rw [stageInput_congr h.cfg h.arr, h.proposals] at shown
  exact (Shows.stage h _).trans (shown.widen fun a ha same => not_inputReg_modeStatus _ (same ▸ ha))

theorem Showing.windowInputs {staged : List TrimProp} {e : Dev} (h : Showing d staged e) (l : List Nat)
    (subs : ∀ inp ∈ l, SubsOk quals props d inp) :
    Showing d (l.foldl (stageInput quals props d) staged) (l.foldl (Machine.windowInput quals props) e) := by
  induction l generalizing staged e with
  | nil => exact h
  | cons inp l ih => exact ih (h.windowInput (subs inp (by simp))) fun other ho => subs other (by simp [ho])

/-- What stands in a bank's registers at a window end is what the part of its own input leaves there. -/
theorem rd_windowInputs (subs : ∀ inp ∈ sampledInputs d.arr, SubsOk quals props d inp) (hi : inp ∈ sampledInputs d.arr)
    (hb : b ∈ banksOf d.arr inp) : ∃ (e : Dev) (staged : List TrimProp), Showing d staged e ∧ (∀ a, bankReg b a → e.rd a = d.rd a) ∧
      ∀ a, bankReg b a → ((sampledInputs d.arr).foldl (windowInput quals props) d).rd a = (windowInput quals props e inp).rd a := by
  obtain ⟨e, ⟨staged, he⟩, before, after⟩ := rd_foldl_of_apart (f := windowInput quals props) (regs := bankReg b)
    (inv := fun e => ∃ staged, Showing d staged e) hi (sampledInputs_nodup d.arr)
    (fun other ho e ⟨_, he⟩ => ⟨_, he.windowInput (subs other ho)⟩)
    (fun other ho ne e ⟨_, he⟩ a ha => by
      refine (windowInput_shows ((subs other ho).congr he.cfg he.arr)).rd a ?_
      rw [he.arr]
      exact not_inputReg_of_bankReg (banksOf_lt hi hb) (fun _ => banksOf_lt ho) (banksOf_apart hi ho ne hb) ha)
    d ⟨_, Shows.refl d⟩
  exact ⟨e, staged, he, before, after⟩

/-- What a bank shows once its own input's part of a window end stands: the quality, one window more, and the proposals if they are
published. -/
theorem bank_of_windowInputs {e : Dev} (distinct : (props.map fun p => (p.bank, p.sub)).Nodup)
    (subs : ∀ inp ∈ sampledInputs d.arr, SubsOk quals props d inp) (hi : inp ∈ sampledInputs d.arr) (hb : b ∈ banksOf d.arr inp)
    (he : ∀ a, bankReg b a → e.rd a = ((sampledInputs d.arr).foldl (windowInput quals props) d).rd a) :
    e.get (F.ILV_b_EST_QUAL b) = qualOf quals inp ∧
    e.get (F.ILV_b_EST_WINDOWS b) = (d.get (F.ILV_b_EST_WINDOWS b) + 1) % 65536 ∧
    ∀ p ∈ props, p.bank.val = b → d.cfg F.ILV_CTRL_QUAL_MIN ≤ qualOf quals inp →
      e.rd (R.ILV_b_PROPA b p.sub) = propWordA (clampProp p).1 ∧ e.rd (R.ILV_b_PROPB b p.sub) = propWordB (clampProp p).1 := by
  obtain ⟨c, staged, hc, before, after⟩ := rd_windowInputs subs hi hb
  have subsNow := (subs inp hi).congr hc.cfg hc.arr
  have rd (a : Nat) (ha : bankReg b a) : e.rd a = (windowInput quals props c inp).rd a := (he a ha).trans (after a ha)
  have est (f : Field) (hf : f.reg = R.ILV_b_EST b) : e.get f = (windowInput quals props c inp).get f := by
    rw [Dev.get, hf, rd _ (.inl rfl), Dev.get, hf]
  have counted : c.get (F.ILV_b_EST_WINDOWS b) = d.get (F.ILV_b_EST_WINDOWS b) :=
    congrArg (fun w : Word => bitsOf w.toNat 15 0) (before _ (.inl rfl))
  obtain ⟨qual, windows⟩ := get_windowInput_est subsNow (hc.arr ▸ hb) (banksOf_lt hi hb)
  refine ⟨(est _ rfl).trans qual, (est _ rfl).trans (windows.trans (by rw [counted])), ?_⟩
  rintro p hp rfl reached
  have small := subs inp hi reached p (mem_propsOf.mpr ⟨hp, hb⟩)
  have mine : p ∈ propsOf c props inp := mem_propsOf.mpr ⟨hp, hc.arr ▸ hb⟩
  obtain ⟨propA, propB⟩ := rd_windowInput_prop distinct subsNow (hc.cfg _ ▸ reached) mine
  exact ⟨(rd _ (.inr ⟨_, small, .inl rfl⟩)).trans propA, (rd _ (.inr ⟨_, small, .inr rfl⟩)).trans propB⟩

/-- Without APPLY nothing is staged. -/
theorem stageInputs_off (off : d.cfg F.ILV_CTRL_APPLY = 0) (l : List Nat) (staged : List TrimProp) :
    l.foldl (stageInput quals props d) staged = staged :=
  List.foldlRecOn _ _ (motive := (· = staged)) rfl fun _ same inp _ => by rw [stageInput, if_pos (.inr off), same]

/-- With APPLY the proposals of an input that reaches QUAL_MIN are staged; those of other inputs do not replace them. -/
theorem mem_stageInputs {p : TrimProp} (on : d.cfg F.ILV_CTRL_APPLY = 1) (reached : d.cfg F.ILV_CTRL_QUAL_MIN ≤ qualOf quals inp)
    (hi : inp ∈ sampledInputs d.arr) (hp : p ∈ propsOf d props inp) (staged : List TrimProp) :
    (clampProp p).1 ∈ (sampledInputs d.arr).foldl (stageInput quals props d) staged := by
  have distinct := sampledInputs_nodup d.arr
  obtain ⟨before, after, split⟩ := List.mem_iff_append.mp hi
  rw [split, List.nodup_middle, List.nodup_cons, List.mem_append, not_or] at distinct
  rw [split, List.foldl_append, List.foldl_cons]
  refine List.foldlRecOn _ _ (motive := ((clampProp p).1 ∈ ·)) ?_ fun staged there other ho => ?_
  · have published : ¬ (qualOf quals inp < d.cfg F.ILV_CTRL_QUAL_MIN ∨ d.cfg F.ILV_CTRL_APPLY = 0) := by omega
    rw [stageInput, if_neg published]
    exact List.mem_append_right _ (List.mem_map.mpr ⟨p, hp, rfl⟩)
  · have ne : other ≠ inp := fun same => distinct.1.2 (same ▸ ho)
    have apart := banksOf_apart hi (split ▸ by simp [ho]) ne (mem_propsOf.mp hp).2
    unfold stageInput
    split
    · exact there
    · refine List.mem_append_left _ (List.mem_filter.mpr ⟨there, ?_⟩)
      change (!(banksOf d.arr other).contains p.bank.val) = true
      simpa using apart

end

/-! ### Classification (R88, R89) -/

theorem flagReg_status : flagReg R.ILV_STATUS := .inl rfl
theorem flagReg_spare (b : Fin 4) : flagReg (R.ILV_b_SPARE b) := .inr ⟨b, .inl rfl⟩
theorem flagReg_slow (b : Fin 4) : flagReg (R.ILV_b_SLOW b) := .inr ⟨b, .inr (.inl rfl)⟩
theorem flagReg_fail (b : Fin 4) : flagReg (R.ILV_b_FAIL b) := .inr ⟨b, .inr (.inr rfl)⟩

/-- A shadow, a swap or a flag that is kept inside shows nowhere. -/
theorem shows_of_conv {touched : Nat → Prop} {d e : Dev} (h : Shows touched d e) {c : Conv} (window : c.window = e.conv.window)
    (proposals : c.proposals = e.conv.proposals) : Shows touched d { e with conv := c } :=
  h.trans ⟨rfl, rfl, window, proposals, fun _ _ => rfl⟩

theorem beginShadow_shows (d : Dev) (b : Fin 4) (slot : Nat) : Shows flagReg d (beginShadow d b slot) := by
  simp only [beginShadow]
  split
  · exact .refl d
  · exact shows_of_conv (((Shows.refl d).put (flagReg_spare b) _).put (flagReg_spare b) _) rfl rfl

theorem requestSwap_shows (d : Dev) (b : Fin 4) (slot : Nat) : Shows flagReg d (requestSwap d b slot) := by
  have asked (swaps : List Swap) : Shows flagReg d { d with conv := { d.conv with swaps } } := shows_of_conv (.refl d) rfl rfl
  have shadowed {e : Dev} (h : Shows flagReg d e) (ready : Prop) [Decidable ready] :
      Shows flagReg d (if ready then beginShadow e b slot else ilvCode (beginShadow e b slot) 0x0301) := by
    have begun := h.trans (beginShadow_shows e b slot)
    split
    · exact begun
    · exact begun.put flagReg_status _
  simp only [requestSwap]
  split
  · exact asked _
  split
  · exact asked _
  exact shadowed (asked _) _

theorem respondFlag_shows (d : Dev) (f : SubFlag) : Shows flagReg d (respondFlag d f) := by
  simp only [respondFlag]
  split
  · exact (((Shows.refl d).put flagReg_status _).put (flagReg_spare f.bank) _).post _ _ _ _ _
  split
  · exact requestSwap_shows d _ _
  · exact .refl d

/-- The classification of a sub-converter stages no proposal and touches no register of windows or proposals. -/
theorem classify_shows (d : Dev) (f : SubFlag) : Shows flagReg d (classify d f) := by
  have answered {e : Dev} (h : Shows flagReg d e) (new : Prop) [Decidable new] (sub arg : Nat) :
      Shows flagReg d (if new then respondFlag (e.post .c evSubconvFlag sub arg) f else e) := by
    split
    · exact (h.post _ _ _ _ _).trans (respondFlag_shows _ f)
    · exact h
  have failed {e : Dev} (h : Shows flagReg d e) (v : Word) : Shows flagReg d (if f.failed then e.wr (R.ILV_b_FAIL f.bank) v else e) := by
    split
    · exact h.wr (flagReg_fail f.bank) v
    · exact h
  refine answered ?_ _ _ _
  by_cases own : f.sub < 32
  · rw [if_pos own]
    exact failed ((Shows.refl d).wr (flagReg_slow f.bank) _) _
  · rw [if_neg own]
    have kept (spareWas : Vector (Bool × Bool) 4) : Shows flagReg d { d with conv := { d.conv with spareWas } } :=
      shows_of_conv (.refl d) rfl rfl
    exact (kept _).put (f := F.ILV_b_SPARE_SPARE_FLAG f.bank) (flagReg_spare f.bank) _

/-! ### The window end -/

/-- The conversions of a window are used up, and the estimator counts codes anew. -/
def closeWindow (len : Nat) (d : Dev) : Dev :=
  { d with conv := { d.conv with window := d.conv.window - len, est := d.conv.est.map fun e => { e with hits := [] } } }

/-- Until 2^WIN conversions are in, or while the estimator does not run, no window ends. -/
theorem windowEnd_early (quals : List Nat) (leaks : List SubLeak) (props : List TrimProp) (d : Dev)
    (early : estimating d = false ∨ d.conv.window < 2 ^ d.cfg F.ILV_CTRL_WIN) : windowEnd quals leaks props d = d := by
  have notReady : (estimating d && decide (2 ^ d.cfg F.ILV_CTRL_WIN ≤ d.conv.window)) = false := by
    obtain off | short := early
    · rw [off, Bool.false_and]
    · rw [decide_eq_false (Nat.not_le.mpr short), Bool.and_false]
  simp only [windowEnd, notReady, Bool.false_and, Bool.not_false, if_true]

/-- A window ends input by input; then the sub-converters are classified. -/
theorem windowEnd_ready {quals : List Nat} {props : List TrimProp} {d : Dev} (leaks : List SubLeak) (running : estimating d = true)
    (full : 2 ^ d.cfg F.ILV_CTRL_WIN ≤ d.conv.window) (ok : windowOk quals props d = true) :
    ∃ flags : List SubFlag, windowEnd quals leaks props d = closeWindow (2 ^ d.cfg F.ILV_CTRL_WIN)
      (flags.foldl classify ((sampledInputs d.arr).foldl (windowInput quals props) d)) := by
  simp only [windowEnd, running, full, ok, decide_true, Bool.and_self, Bool.not_true, Bool.false_eq_true, if_false]
  exact ⟨_, rfl⟩

theorem runs_estWindowEnd {s : State} {quals : List Nat} {leaks : List SubLeak} {props : List TrimProp} (hu : s.dev.Up)
    (running : estimating s.dev = true) (full : 2 ^ s.dev.cfg F.ILV_CTRL_WIN ≤ s.dev.conv.window) (ok : windowOk quals props s.dev = true)
    (distinct : (props.map fun p => (p.bank, p.sub)).Nodup) :
    Runs (.estWindowEnd quals leaks props) s fun e => e.eff = s.dev.eff ∧ e.mem = s.dev.mem ∧
      e.conv.window = s.dev.conv.window - 2 ^ s.dev.cfg F.ILV_CTRL_WIN ∧
      (∀ inp ∈ sampledInputs s.dev.arr, ∀ b ∈ banksOf s.dev.arr inp, e.get (F.ILV_b_EST_QUAL b) = min 255 (quals.getD inp 0) ∧
        e.get (F.ILV_b_EST_WINDOWS b) = (s.dev.get (F.ILV_b_EST_WINDOWS b) + 1) % 65536 ∧
        ∀ p ∈ props, p.bank.val = b → s.dev.cfg F.ILV_CTRL_QUAL_MIN ≤ min 255 (quals.getD inp 0) →
          e.rd (R.ILV_b_PROPA b p.sub) = propWordA (clampProp p).1 ∧ e.rd (R.ILV_b_PROPB b p.sub) = propWordB (clampProp p).1 ∧
          (s.dev.cfg F.ILV_CTRL_APPLY = 1 → (clampProp p).1 ∈ e.conv.proposals)) ∧
      (s.dev.cfg F.ILV_CTRL_APPLY = 0 → e.conv.proposals = s.dev.conv.proposals) := by
  obtain ⟨flags, ended⟩ := windowEnd_ready leaks running full ok
  refine runs_of_unheld 3 3 (windowEnd quals leaks props) hu rfl ?_
  rw [ended]
  have subs : ∀ inp ∈ sampledInputs s.dev.arr, SubsOk quals props s.dev inp := fun _ => subsOk_of_windowOk ok
  have shown := Showing.windowInputs (Shows.refl s.dev) _ subs
  have flagged := Shows.foldl flags ((sampledInputs s.dev.arr).foldl (windowInput quals props) s.dev) fun f _ e => classify_shows e f
  generalize flags.foldl classify ((sampledInputs s.dev.arr).foldl (windowInput quals props) s.dev) = e at flagged ⊢
  have proposals := flagged.proposals.trans shown.proposals
  refine ⟨flagged.eff.trans shown.eff, flagged.mem.trans shown.mem, congrArg (· - _) (flagged.window.trans shown.window),
    fun inp hi b hb => ?_, fun off => proposals.trans (stageInputs_off off _ _)⟩
  have ofInputs (a : Nat) (ha : bankReg b a) := flagged.rd a (not_flagReg_of_bankReg ha (banksOf_lt hi hb))
  obtain ⟨qual, windows, published⟩ := bank_of_windowInputs distinct subs hi hb ofInputs
  refine ⟨qual, windows, fun p hp own reached => ?_⟩
  obtain ⟨propA, propB⟩ := published p hp own reached
  have mine : p ∈ propsOf s.dev props inp := mem_propsOf.mpr ⟨hp, own ▸ hb⟩
  exact ⟨propA, propB, fun on => proposals ▸ mem_stageInputs on reached hi mine _⟩

/-! ### The end of a shadow (R90, R91) -/

section
variable {s : State} {b : Fin 4} {slot n : Nat}

/-- Before one window of shadowing, or while OWL has the spare, the shadow goes on. -/
theorem shadowEnd_early {d : Dev} (shadowing : d.conv.shadow.get b = some (slot, n))
    (early : n < 2 ^ d.cfg F.ILV_CTRL_WIN ∨ (d.owlSvc.get b).isSome = true) (x y : Word) : shadowEnd b x y d = d := by
  simp only [shadowEnd, shadowing, Bool.or_eq_true, decide_eq_true_eq, early, if_true]

/-- The spare's trims for its slot, in the set in use and as a proposal. -/
def writeSpare (b : Fin 4) (x y : Word) (d : Dev) : Dev :=
  (((d.wr (setKey d.arr (R.CONV_b_TRIMA b 32)) x).wr (setKey d.arr (R.CONV_b_TRIMB b 32)) y).wr (R.ILV_b_PROPA b 32) x).wr
    (R.ILV_b_PROPB b 32) y

/-- The spare shadows no slot. -/
def closeShadow (b : Fin 4) (d : Dev) : Dev := { d with conv := { d.conv with shadow := d.conv.shadow.set b.val none } }

theorem closeShadow_shadow (b : Fin 4) (d : Dev) : (closeShadow b d).conv.shadow.get b = none := Vector.getElem_set_self _

theorem closeShadow_shows {touched : Nat → Prop} {d e : Dev} (h : Shows touched d e) (b : Fin 4) : Shows touched d (closeShadow b e) :=
  shows_of_conv h rfl rfl

theorem rd_closeShadow (b : Fin 4) (d : Dev) (a : Nat) : (closeShadow b d).rd a = d.rd a := rfl

theorem writeSpare_shows (b : Fin 4) (x y : Word) (d : Dev) : Shows (fun _ => True) d (writeSpare b x y d) :=
  ((((Shows.refl d).wr trivial x).wr trivial y).wr trivial x).wr trivial y

theorem rd_writeSpare (b : Fin 4) (x y : Word) (d : Dev) :
    (writeSpare b x y d).rd (setKey d.arr (R.CONV_b_TRIMA b 32)) = x ∧ (writeSpare b x y d).rd (setKey d.arr (R.CONV_b_TRIMB b 32)) = y ∧
    (writeSpare b x y d).rd (R.ILV_b_PROPA b 32) = x ∧ (writeSpare b x y d).rd (R.ILV_b_PROPB b 32) = y := by
  have trims : setKey d.arr (R.CONV_b_TRIMA b 32) ≠ setKey d.arr (R.CONV_b_TRIMB b 32) := by
    simp only [setKey, R.CONV_b_TRIMA, R.CONV_b_TRIMB]; omega
  have props : R.ILV_b_PROPA b 32 ≠ R.ILV_b_PROPB b 32 := by simp only [R.ILV_b_PROPA, R.ILV_b_PROPB]; omega
  have apart (a : Nat) (ha : a = R.CONV_b_TRIMA b 32 ∨ a = R.CONV_b_TRIMB b 32) :
      setKey d.arr a ≠ R.ILV_b_PROPA b 32 ∧ setKey d.arr a ≠ R.ILV_b_PROPB b 32 := by
    simp only [setKey, R.CONV_b_TRIMA, R.CONV_b_TRIMB, R.ILV_b_PROPA, R.ILV_b_PROPB] at ha ⊢
    omega
  obtain ⟨aPropA, aPropB⟩ := apart _ (.inl rfl)
  obtain ⟨bPropA, bPropB⟩ := apart _ (.inr rfl)
  unfold writeSpare
  refine ⟨?_, ?_, ?_, Dev.rd_wr_same _ _ _⟩
  · rw [Dev.rd_wr_ne _ _ _ _ aPropB, Dev.rd_wr_ne _ _ _ _ aPropA, Dev.rd_wr_ne _ _ _ _ trims, Dev.rd_wr_same]
  · rw [Dev.rd_wr_ne _ _ _ _ bPropB, Dev.rd_wr_ne _ _ _ _ bPropA, Dev.rd_wr_same]
  · rw [Dev.rd_wr_ne _ _ _ _ props, Dev.rd_wr_same]

/-- After one window the trims are written and the shadow is over: its result is ready. -/
theorem shadowEnd_ready {d : Dev} (shadowing : d.conv.shadow.get b = some (slot, n)) (full : 2 ^ d.cfg F.ILV_CTRL_WIN ≤ n)
    (free : d.owlSvc.get b = none) (x y : Word) : shadowEnd b x y d =
      (closeShadow b (writeSpare b x y d)).putB (F.ILV_b_SPARE_SHADOW_READY b) true := by
  simp only [shadowEnd, shadowing, free, Nat.not_lt.mpr full, decide_false, Option.isSome_none, Bool.or_self, Bool.false_eq_true, if_false,
    closeShadow, writeSpare]

theorem runs_shadowEnd (hu : s.dev.Up) (shadowing : s.dev.conv.shadow.get b = some (slot, n)) (full : 2 ^ s.dev.cfg F.ILV_CTRL_WIN ≤ n)
    (free : s.dev.owlSvc.get b = none) (x y : Word) :
    Runs (.shadowEnd b x y) s fun e => e.get (F.ILV_b_SPARE_SHADOW_READY b) = 1 ∧ e.conv.shadow.get b = none ∧
      e.rd (setKey s.dev.arr (R.CONV_b_TRIMA b 32)) = x ∧ e.rd (setKey s.dev.arr (R.CONV_b_TRIMB b 32)) = y ∧
      e.rd (R.ILV_b_PROPA b 32) = x ∧ e.rd (R.ILV_b_PROPB b 32) = y ∧ e.eff = s.dev.eff ∧ e.mem = s.dev.mem := by
  refine runs_of_unheld 3 3 (shadowEnd b x y) hu rfl ?_
  rw [shadowEnd_ready shadowing full free]
  have readyOk : (F.ILV_b_SPARE_SHADOW_READY b).ok := (by decide : 15 ≤ 15 ∧ 15 < 32)
  obtain ⟨trimA, trimB, propA, propB⟩ := rd_writeSpare b x y s.dev
  have shown := (closeShadow_shows (writeSpare_shows b x y s.dev) b).put (f := F.ILV_b_SPARE_SHADOW_READY b) trivial true.toNat
  have kept (a : Nat) {v : Word} (h : (writeSpare b x y s.dev).rd a = v) (ha : a ≠ R.ILV_b_SPARE b) :
      ((closeShadow b (writeSpare b x y s.dev)).putB (F.ILV_b_SPARE_SHADOW_READY b) true).rd a = v :=
    (Dev.rd_put_ne _ (F.ILV_b_SPARE_SHADOW_READY b) _ a ha).trans ((rd_closeShadow _ _ _).trans h)
  refine ⟨?_, ?_, kept _ trimA ?_, kept _ trimB ?_, kept _ propA ?_, kept _ propB ?_, shown.eff, shown.mem⟩
  · rw [Dev.putB, Dev.get_put_same _ _ _ readyOk]
    rfl
  · rw [Dev.putB_conv, closeShadow_shadow]
  all_goals
    simp only [setKey, R.CONV_b_TRIMA, R.CONV_b_TRIMB, R.ILV_b_PROPA, R.ILV_b_PROPB, R.ILV_b_SPARE]
    omega

end

/-- Settles O23: a window end shows every bank's quality and window and publishes full sets only, so that each proposal keeps its own
registers; a shadow's end writes the spare's trims; before their conditions neither changes anything. -/
theorem interleaving : Obligations.Interleaving :=
  ⟨⟨fun _ _ _ _ hu running full ok distinct => runs_estWindowEnd hu running full ok distinct,
    fun _ quals leaks props hu early =>
      gives_same_of_unheld 3 3 (windowEnd quals leaks props) hu rfl (windowEnd_early quals leaks props _ early)⟩,
   ⟨fun _ _ _ _ x y hu shadowing full free => runs_shadowEnd hu shadowing full free x y,
    fun _ b _ _ x y hu shadowing early => gives_same_of_unheld 3 3 (shadowEnd b x y) hu rfl (shadowEnd_early shadowing early x y)⟩⟩

end Sys2Proof.Machine
end

section
/-! SUPPORT. O25: REFIN comes and goes, and slews end. -/
namespace Sys2Proof.Machine

/-- On a module that is up, a meaning behind the guard of its block leaves what it makes of the hardware. -/
theorem gives_of_live {c : Instr} {s : State} {d : Dev} (b : Nat) (f : Dev → Dev) (hu : s.dev.Up) (h : exec c s = s.act (live b f))
    (hd : f s.dev = d) : Gives c s d := by
  rw [Gives, h, State.act, live_up hu, hd]

/-- The same, for a block's own work. -/
theorem gives_of_unheld {c : Instr} {s : State} {d : Dev} (b o : Nat) (f : Dev → Dev) (hu : s.dev.Up)
    (h : exec c s = s.act (live b (unheld o f))) (hd : f s.dev = d) : Gives c s d := by
  rw [Gives, h, State.act, live_up hu, unheld_up hu, hd]

/-! ### Flags and signed values -/

theorem Dev.flag_of_get_one {d : Dev} {f : Field} (h : d.get f = 1) : d.flag f = true := by rw [Dev.flag, h]; rfl
theorem Dev.flag_of_get_zero {d : Dev} {f : Field} (h : d.get f = 0) : d.flag f = false := by rw [Dev.flag, h]; rfl

theorem encodeSigned_lt (n : Nat) (x : Int) : encodeSigned n x < 2 ^ n := by
  have pos : (0 : Int) < (2 ^ n : Nat) := Int.natCast_pos.mpr (Nat.two_pow_pos n)
  have lt := Int.emod_lt_of_pos x pos
  have nonneg := Int.emod_nonneg x pos.ne'
  rw [encodeSigned]
  omega

/-! ### STAG's state and registers -/

@[simp] theorem Dev.setStag_stag (d : Dev) (x : Stag) : (d.setStag x).stag = x := rfl
@[simp] theorem Dev.rd_setStag (d : Dev) (x : Stag) (a : Nat) : (d.setStag x).rd a = d.rd a := rfl
@[simp] theorem Dev.get_setStag (d : Dev) (x : Stag) (f : Field) : (d.setStag x).get f = d.get f := rfl
@[simp] theorem Dev.rd64_setStag (d : Dev) (x : Stag) (a : Nat) : (d.setStag x).rd64 a = d.rd64 a := rfl

theorem Dev.rd64_put_ne (d : Dev) (f : Field) (x a : Nat) (h : f.reg ∉ [a, a + 4]) : (d.put f x).rd64 a = d.rd64 a := by
  simp only [List.mem_cons, List.not_mem_nil, or_false, not_or] at h
  obtain ⟨lo, hi⟩ := h
  rw [Dev.rd64, Dev.rd64, Dev.rd_put_ne _ _ _ _ (Ne.symm lo), Dev.rd_put_ne _ _ _ _ (Ne.symm hi)]

/-- A pair reads as before when another pair is written. -/
theorem Dev.rd64_wr64_ne (d : Dev) (a b v : Nat) (lo : b ∉ [a, a + 4]) (hi : b + 4 ∉ [a, a + 4]) : (d.wr64 a v).rd64 b = d.rd64 b := by
  rw [Dev.rd64, Dev.rd64, Dev.rd_wr64_ne _ _ _ _ lo, Dev.rd_wr64_ne _ _ _ _ hi]

/-! ### A source is lost (R101, R103) -/

theorem refLoss_present {d : Dev} (present : d.get F.STAG_STATUS_REF_OK = 1) : refLoss d =
    ((d.put F.STAG_STATUS_REF_OK 0).put F.STAG_STATUS_REF_LOSS 1).post .t evRefLoss 0 0 (some d.stag.now) := by
  simp only [refLoss, Dev.flag_of_get_one present, Bool.not_true, Bool.false_eq_true, if_false]
  rfl

theorem get_stopSlew_slewing (d : Dev) : (stopSlew d).get F.STAG_STATUS_SLEWING = 0 := by
  rw [stopSlew, Dev.get_wr64_ne _ _ _ _ (by decide), Dev.putB, Dev.get_put_same _ _ _ (by decide)]
  rfl

theorem rd_stopSlew_ne (d : Dev) (a : Nat) (h : a ∉ [R.STAG_STATUS, R.STAG_PHASE_ERR_LO, R.STAG_PHASE_ERR_LO + 4]) :
    (stopSlew d).rd a = d.rd a := by
  obtain ⟨status, phase⟩ := List.ne_and_not_mem_of_not_mem_cons h
  rw [stopSlew, Dev.rd_wr64_ne _ _ _ _ phase, Dev.putB, Dev.rd_put_ne _ F.STAG_STATUS_SLEWING _ _ status, Dev.rd_setStag]

/-- REFIN was in use and is absent: the loop holds over (R103). -/
theorem holdoverEntry_lost {d : Dev} (used : d.get F.STAG_STATUS_TB_SRC = 1) (absent : d.get F.STAG_STATUS_REF_OK = 0) :
    holdoverEntry d = (stopSlew d).put F.STAG_STATUS_TB_SRC 3 := by
  simp only [holdoverEntry, used, Dev.flag_of_get_zero absent, Bool.not_false, Bool.true_or, Bool.and_true, Bool.true_or, decide_true,
    if_true]

theorem runs_holdoverEntry {s : State} (hu : s.dev.Up) (used : s.dev.get F.STAG_STATUS_TB_SRC = 1)
    (absent : s.dev.get F.STAG_STATUS_REF_OK = 0) :
    Runs .holdoverEntry s fun e => e.get F.STAG_STATUS_TB_SRC = 3 ∧ e.get F.STAG_STATUS_SLEWING = 0 ∧ e.rd64 R.STAG_PHASE_ERR_LO = 0 ∧
      RegsOutside [R.STAG_STATUS, R.STAG_PHASE_ERR_LO, R.STAG_PHASE_ERR_LO + 4] s.dev e ∧
      e = { s.dev with regs := e.regs, stag := { s.dev.stag with slewRem := 0 } } := by
  refine runs_of_live 4 holdoverEntry hu rfl ?_
  rw [holdoverEntry_lost used absent]
  refine ⟨?_, ?_, ?_, fun a ha => ?_, rfl⟩
  · rw [Dev.get_put_same _ _ _ (by decide)]
    rfl
  · rw [Dev.get_put_other _ _ _ _ (by decide) (by rfl) (by decide), get_stopSlew_slewing]
  · rw [Dev.rd64_put_ne _ _ _ _ (by decide), stopSlew, Dev.rd64_wr64, Nat.zero_mod]
  · rw [Dev.rd_put_ne _ F.STAG_STATUS_TB_SRC _ _ (List.ne_of_not_mem_cons ha), rd_stopSlew_ne _ _ ha]

/-! ### A slew ends (R105) -/

theorem slewDone_reached {d : Dev} (slewing : d.get F.STAG_STATUS_SLEWING = 1) (near : d.stag.slewRem.natAbs ≤ onePs * 10 ^ 7) :
    slewDone d = (d.put F.STAG_STATUS_SLEWING 0).post .t evSlewDone 0 0 := by
  simp only [slewDone, Dev.flag_of_get_one slewing, near, decide_true, Bool.and_self, if_true]
  rfl

theorem slewDone_stag (d : Dev) : (slewDone d).stag = d.stag := by unfold slewDone; split <;> rfl

/-- The end of a slew leaves every register but STAG_STATUS. -/
theorem rd_slewDone_ne (d : Dev) (a : Nat) (h : a ≠ R.STAG_STATUS) : (slewDone d).rd a = d.rd a := by
  unfold slewDone
  split
  · rw [Dev.rd_post, Dev.putB, Dev.rd_put_ne _ F.STAG_STATUS_SLEWING _ _ h]
  · rfl

theorem get_slewDone_source (d : Dev) : (slewDone d).get F.STAG_STATUS_TB_SRC = d.get F.STAG_STATUS_TB_SRC := by
  unfold slewDone
  split
  · rw [Dev.get_post, Dev.putB, Dev.get_put_other _ _ _ _ (by decide) (by rfl) (by decide)]
  · rfl

/-! ### The jump to a source (R104 to R106) -/

/-- The timebase goes to the source, shows the jump and says so. -/
def takeSource (src : Nat) (j : Int) (d : Dev) : Dev :=
  let d := ((((stopSlew d).wr64 R.STAG_JUMP_LO (encodeSigned 64 j)).put F.STAG_STATUS_TB_SRC src).putB F.STAG_STATUS_TB_LOCK true)
  (d.setStag { d.stag with everLocked := true, tFallback := false }).post .t evRefReturn src (encodeSigned 64 j)

/-- A slew over the jump begins; one within ±1 ps is over at once. -/
def beginSlew (j : Int) (d : Dev) : Dev :=
  slewDone (((d.setStag { d.stag with slewRem := j * 10 ^ 7 }).wr64 R.STAG_PHASE_ERR_LO (encodeSigned 64 j)).putB F.STAG_STATUS_SLEWING true)

theorem refJump_slew {d : Dev} (src : Nat) (measured : Int) (policy : d.cfg F.STAG_TB_CTRL_POLICY = 0) :
    refJump src measured d = beginSlew (reduceJump d src measured) (takeSource src (reduceJump d src measured) d) := by
  have slew : (takeSource src (reduceJump d src measured) d).cfgB F.STAG_TB_CTRL_POLICY = false :=
    (congrArg (· != 0) policy : d.cfgB F.STAG_TB_CTRL_POLICY = false)
  exact if_neg (Bool.not_eq_true _ ▸ slew)

theorem refJump_snap {d : Dev} (src : Nat) (measured : Int) (policy : d.cfg F.STAG_TB_CTRL_POLICY ≠ 0) :
    refJump src measured d = (takeSource src (reduceJump d src measured) d).setStag
      { (takeSource src (reduceJump d src measured) d).stag with snap := some (reduceJump d src measured) } := by
  have snap : (takeSource src (reduceJump d src measured) d).cfgB F.STAG_TB_CTRL_POLICY = true :=
    (bne_iff_ne.mpr policy : d.cfgB F.STAG_TB_CTRL_POLICY = true)
  exact if_pos snap

theorem takeSource_stag (src : Nat) (j : Int) (d : Dev) :
    (takeSource src j d).stag = { d.stag with slewRem := 0, everLocked := true, tFallback := false } := rfl

theorem get_takeSource (src : Nat) (j : Int) (d : Dev) : (takeSource src j d).get F.STAG_STATUS_TB_SRC = src % 4 := by
  rw [takeSource, Dev.get_post, Dev.get_setStag, Dev.putB, Dev.get_put_other _ _ _ _ (by decide) (by rfl) (by decide),
    Dev.get_put_same _ _ _ (by decide)]
  rfl

theorem rd64_takeSource_jump (src : Nat) (j : Int) (d : Dev) : (takeSource src j d).rd64 R.STAG_JUMP_LO = encodeSigned 64 j := by
  rw [← Nat.mod_eq_of_lt (encodeSigned_lt 64 j), ← Dev.rd64_wr64 (stopSlew d) R.STAG_JUMP_LO]
  exact (Dev.rd64_put_ne _ F.STAG_STATUS_TB_LOCK _ _ (by decide)).trans (Dev.rd64_put_ne _ F.STAG_STATUS_TB_SRC _ _ (by decide))

theorem beginSlew_stag (j : Int) (d : Dev) : (beginSlew j d).stag = { d.stag with slewRem := j * 10 ^ 7 } := slewDone_stag _

theorem get_beginSlew_source (j : Int) (d : Dev) : (beginSlew j d).get F.STAG_STATUS_TB_SRC = d.get F.STAG_STATUS_TB_SRC := by
  rw [beginSlew, get_slewDone_source, Dev.putB, Dev.get_put_other _ _ _ _ (by decide) (by rfl) (by decide), Dev.get_wr64_ne _ _ _ _ (by decide),
    Dev.get_setStag]

theorem rd64_beginSlew_jump (j : Int) (d : Dev) : (beginSlew j d).rd64 R.STAG_JUMP_LO = d.rd64 R.STAG_JUMP_LO := by
  rw [beginSlew, Dev.rd64, rd_slewDone_ne _ _ (by decide), rd_slewDone_ne _ _ (by decide), ← Dev.rd64, Dev.putB,
    Dev.rd64_put_ne _ _ _ _ (by decide), Dev.rd64_wr64_ne _ _ _ _ (by decide) (by decide)]
  rfl

theorem wantedSource_auto {d : Dev} (auto : d.cfg F.STAG_TB_CTRL_SRC = 0) (present : d.get F.STAG_STATUS_REF_OK = 1) :
    wantedSource d = 1 := by
  simp only [wantedSource, auto, Dev.flag_of_get_one present, if_true]

/-- With automatic choice a present REFIN ends holdover (R104). -/
theorem refReturn_auto {d : Dev} (measured : Int) (auto : d.cfg F.STAG_TB_CTRL_SRC = 0) (present : d.get F.STAG_STATUS_REF_OK = 1)
    (holds : d.get F.STAG_STATUS_TB_SRC = 3) (counts : d.stag.counting = true) : refReturn measured d = refJump 1 measured d := by
  simp only [refReturn, wantedSource_auto auto present, holds, counts, Nat.reduceEqDiff, decide_false, Bool.not_true, Bool.or_self,
    Bool.false_eq_true, if_false]

theorem runs_refReturn {s : State} (j : Int) (hu : s.dev.Up) (auto : s.dev.cfg F.STAG_TB_CTRL_SRC = 0)
    (present : s.dev.get F.STAG_STATUS_REF_OK = 1) (holds : s.dev.get F.STAG_STATUS_TB_SRC = 3) (counts : s.dev.stag.counting = true) :
    Runs (.refReturn j) s fun e => e.get F.STAG_STATUS_TB_SRC = 1 ∧ e.stag.now = s.dev.stag.now ∧
      e.rd64 R.STAG_JUMP_LO = encodeSigned 64 (reduceJump s.dev 1 j) ∧
      (if s.dev.cfg F.STAG_TB_CTRL_POLICY = 0
       then e.stag.slewRem = reduceJump s.dev 1 j * 10 ^ 7 ∧ e.stag.snap = s.dev.stag.snap
       else e.stag.snap = some (reduceJump s.dev 1 j) ∧ e.stag.slewRem = 0) := by
  refine runs_of_live 4 (refReturn j) hu rfl ?_
  rw [refReturn_auto j auto present holds counts]
  by_cases policy : s.dev.cfg F.STAG_TB_CTRL_POLICY = 0
  · rw [refJump_slew 1 j policy, if_pos policy, get_beginSlew_source, rd64_beginSlew_jump, beginSlew_stag, takeSource_stag, get_takeSource]
    exact ⟨rfl, rfl, rd64_takeSource_jump _ _ _, rfl, rfl⟩
  · rw [refJump_snap 1 j policy, if_neg policy, Dev.get_setStag, Dev.rd64_setStag, Dev.setStag_stag, takeSource_stag, get_takeSource]
    exact ⟨rfl, rfl, rd64_takeSource_jump _ _ _, rfl, rfl⟩

/-- Settles O25: what each change of the reference makes of STAG's state and registers, a jump under SLEW and under SNAP. -/
theorem referenceChanges : Obligations.ReferenceChanges :=
  ⟨⟨fun _ hu => gives_of_live 4 refPresent hu rfl rfl, fun _ hu present => gives_of_live 4 refLoss hu rfl (refLoss_present present)⟩,
   fun _ hu used absent => runs_holdoverEntry hu used absent,
   fun _ j hu auto present holds counts => runs_refReturn j hu auto present holds counts,
   fun _ hu slewing near => gives_of_unheld 4 4 slewDone hu rfl (slewDone_reached slewing near)⟩

end Sys2Proof.Machine
end

section
/-! SUPPORT. O26: steps of the tick count, and count loads. -/
namespace Sys2Proof.Machine

/-- A step reaches the live pipes alone (R106). -/
theorem redStep_eq (k size : Int) (d : Dev) : ∃ red, redStep k size d = { d with red } :=
  List.foldlRecOn _ _ (motive := fun e : Dev => ∃ red, e = { d with red }) ⟨d.red, rfl⟩ fun e ⟨red, he⟩ p _ => by
    subst he
    split
    · exact ⟨_, rfl⟩
    · exact ⟨red, rfl⟩

/-- A step of the timebase moves the count and the grid's origin; RED, CAP and LYNX note it, and STAG_JUMP shows it (R106). -/
theorem tbStep_eq (size : Int) (d : Dev) : ∃ red cap lynx ext, tbStep size d =
    ({ d with red, cap, lynx, ext
              stag := { d.stag with origin := d.stag.origin + size
                                    now := BitVec.ofInt 96 ((d.stag.now.toNat : Int) + size) } } : Dev).wr64
      R.STAG_JUMP_LO (encodeSigned 64 size) := by
  obtain ⟨red, stepped⟩ := redStep_eq (tsInstant d d.stag.now.toNat).k size d
  simp only [tbStep, stepped]
  exact ⟨_, _, _, _, rfl⟩

theorem tbStep_stag (size : Int) (d : Dev) : (tbStep size d).stag =
    { d.stag with origin := d.stag.origin + size, now := BitVec.ofInt 96 ((d.stag.now.toNat : Int) + size) } := by
  obtain ⟨red, cap, lynx, ext, h⟩ := tbStep_eq size d
  rw [h, Dev.wr64_stag]

theorem tbStep_crossings (size : Int) (d : Dev) : (tbStep size d).crossings = d.crossings := by
  obtain ⟨red, cap, lynx, ext, h⟩ := tbStep_eq size d
  rw [h, Dev.wr64_crossings]

theorem countStep_stag (d : Dev) : (countStep d).stag = d.stag := by unfold countStep; split <;> rfl
theorem countStep_crossings (d : Dev) : (countStep d).crossings = d.crossings := by unfold countStep; split <;> rfl

/-- What a post makes of the crossings depends on the crossings alone. -/
theorem post_crossings_congr {d e : Dev} (h : e.crossings = d.crossings) (i : Island) (num sub arg : Nat) (ts : Option TS) :
    (e.post i num sub arg ts).crossings = (d.post i num sub arg ts).crossings := by
  simp only [Dev.post, h]

theorem runs_snapStep {s : State} {j : Int} (hu : s.dev.Up) (waits : s.dev.stag.snap = some j) :
    Runs .snapStep s fun e => e.stag.now = BitVec.ofInt 96 ((s.dev.stag.now.toNat : Int) + j) ∧ e.stag.origin = s.dev.stag.origin + j ∧
      e.stag.snap = none ∧ Says .t evTbStep 0 (encodeSigned 64 j) (some e.stag.now) s.dev e := by
  refine runs_of_unheld 4 4 snapStep hu rfl ?_
  simp only [snapStep, waits, Says, countStep_stag, countStep_crossings, Dev.post_stag, tbStep_stag, Dev.setStag_stag, true_and]
  exact post_crossings_congr (tbStep_crossings _ _) _ _ _ _ _

/-- A count load, by the state that R108 asks about: refused under ring time and while something captures, else taken. -/
theorem tbLoad_ring {d : Dev} (c : Word64) (ring : d.get F.STAG_STATUS_TB_SRC = 2) :
    tbLoad c d = d.put F.STAG_STATUS_LAST_CODE 0x0403 := if_pos ring

theorem tbLoad_busy {d : Dev} (c : Word64) (ring : d.get F.STAG_STATUS_TB_SRC ≠ 2) (armed : d.armed = true) :
    tbLoad c d = d.put F.STAG_STATUS_LAST_CODE 0x0402 := by
  rw [tbLoad, if_neg ring, armed, Bool.true_or, if_pos rfl]
  rfl

theorem tbLoad_taken {d : Dev} (c : Word64) (ring : d.get F.STAG_STATUS_TB_SRC ≠ 2) (armed : d.armed = false) (closed : capOpen d = false) :
    tbLoad c d = { d with stag := { d.stag with load := some c } } := by
  rw [tbLoad, if_neg ring, armed, closed, Bool.or_self, if_neg Bool.false_ne_true]
  rfl

/-- Settles O26: a SNAP step is one step of the timebase, and R108 decides a load by the source, then by what captures. -/
theorem countSteps : Obligations.CountSteps :=
  ⟨fun _ _ hu waits => runs_snapStep hu waits,
   fun _ c hu ring armed closed => gives_of_live 4 (tbLoad c) hu rfl (tbLoad_taken c ring armed closed),
   fun _ c hu ring => gives_of_live 4 (tbLoad c) hu rfl (tbLoad_ring c ring),
   fun _ c hu ring armed => gives_of_live 4 (tbLoad c) hu rfl (tbLoad_busy c ring armed)⟩

end Sys2Proof.Machine
end

section
/-! SUPPORT. O27: a loss of lock with a request of FOX_ARM waiting, whose arm checks the capture plan. -/
namespace Sys2Proof.Machine

/-! ### What an arm writes to memory -/

/-- From `d` to `e` memory stays as it is, and none of it is lost. -/
structure KeepsMemory (d e : Dev) : Prop where
  mem : e.mem = d.mem
  gen : e.gen = d.gen

namespace KeepsMemory
variable {d e a b : Dev}

theorem refl (d : Dev) : KeepsMemory d d := ⟨rfl, rfl⟩
theorem trans (h : KeepsMemory d e) (k : KeepsMemory e a) : KeepsMemory d a := ⟨k.mem.trans h.mem, k.gen.trans h.gen⟩
theorem byte (h : KeepsMemory d e) (k : Nat) : e.byte k = d.byte k := by rw [Dev.byte, Dev.byte, h.mem, h.gen]

theorem wr (h : KeepsMemory d e) (a : Nat) (v : Word) : KeepsMemory d (e.wr a v) := ⟨h.mem, h.gen⟩
theorem wr64 (h : KeepsMemory d e) (a v : Nat) : KeepsMemory d (e.wr64 a v) := ⟨h.mem, h.gen⟩
theorem put (h : KeepsMemory d e) (f : Field) (x : Nat) : KeepsMemory d (e.put f x) := ⟨h.mem, h.gen⟩
theorem putB (h : KeepsMemory d e) (f : Field) (x : Bool) : KeepsMemory d (e.putB f x) := ⟨h.mem, h.gen⟩
theorem setCfgc (h : KeepsMemory d e) (cfgc : Cfgc) : KeepsMemory d { e with cfgc } := ⟨h.mem, h.gen⟩
theorem setCap (h : KeepsMemory d e) (cap : Cap) : KeepsMemory d { e with cap } := ⟨h.mem, h.gen⟩
theorem setBeaver (h : KeepsMemory d e) (x : Beaver) : KeepsMemory d (e.setBeaver x) := ⟨h.mem, h.gen⟩
theorem post (h : KeepsMemory d e) (i : Island) (num sub arg : Nat) (ts : Option TS) : KeepsMemory d (e.post i num sub arg ts) :=
  ⟨h.mem, h.gen⟩

theorem ite (p : Prop) [Decidable p] (ha : KeepsMemory d a) (hb : KeepsMemory d b) : KeepsMemory d (if p then a else b) := by
  split <;> assumption

theorem foldl {α : Type} {f : Dev → α → Dev} (h : ∀ e x, KeepsMemory e (f e x)) (l : List α) (d : Dev) : KeepsMemory d (l.foldl f d) :=
  List.foldlRecOn l f (motive := KeepsMemory d) (refl d) fun _ k x _ => k.trans (h _ x)

theorem takeWords (h : KeepsMemory d e) (l : List CfgWord) : KeepsMemory d (takeWords e l) := by
  induction l generalizing e with
  | nil => exact h
  | cons w ws ih => exact ih ⟨h.mem, h.gen⟩

theorem takeLatched (h : KeepsMemory d e) (u : CfgUnit) : KeepsMemory d (takeLatched e u) := (h.setCfgc _).takeWords _

theorem schedFirst (h : KeepsMemory d e) : KeepsMemory d (schedFirst e) := (((h.setBeaver _).put _ _).putB _ _).put _ _
theorem schedRun (h : KeepsMemory d e) : KeepsMemory d (schedRun e) := by
  have chan (e : Dev) (h : KeepsMemory d e) (n : Fin 32) (c : DmaChan) : KeepsMemory d (e.setChan n c) := ⟨h.mem, h.gen⟩
  exact ((((chan _ (h.setBeaver _) _ _).putB _ _).put _ _).put _ _).put _ _

/-- The schedule follows an arm without a write to memory (R402). -/
theorem schedArm (d : Dev) : KeepsMemory d (schedArm d) := by
  have channel (e : Dev) (n : Fin 32) : KeepsMemory e (if schedNames e n && (chanRun e n = runIdle || chanRun e n = runHalted)
      then e.put (F.BEAVER_CH_n_STATUS_RUN n) runSched
      else if !schedNames e n && chanRun e n = runSched then e.put (F.BEAVER_CH_n_STATUS_RUN n) runIdle else e) :=
    .ite _ ((refl e).put _ _) (.ite _ ((refl e).put _ _) (refl e))
  have taken (x : Beaver) : KeepsMemory d ((Machine.takeLatched d .beaverSched).setBeaver x) := ((refl d).takeLatched _).setBeaver x
  have named (p : Prop) [Decidable p] (x : Beaver) := (KeepsMemory.ite p ((taken x).put F.BEAVER_SCHED_STATUS_LAST_CODE 0x1111)
    (taken x)).trans (foldl channel dmaChannels _)
  unfold Machine.schedArm
  refine .ite _ ((refl d).setBeaver _) ?_
  dsimp only
  exact .ite _ (.ite _ (((named _ _).schedFirst.put _ _).schedRun) ((named _ _).schedFirst.put _ _)) ((named _ _).put _ _)

theorem armFull (d : Dev) : KeepsMemory (arm d) (armFull d) := .ite _ (schedArm _) (refl _)

theorem endAcq (h : KeepsMemory d e) : KeepsMemory d (endAcq e) := .ite _ (h.setCap _) h
theorem capCode (h : KeepsMemory d e) (c : Nat) : KeepsMemory d (capCode e c) := h.put _ _
theorem exhaustPlan (h : KeepsMemory d e) : KeepsMemory d (exhaustPlan e) := (((h.setCap _).capCode _).putB _ _).post _ _ _ _ _

theorem armSlot (h : KeepsMemory d e) (committed : Bool) : KeepsMemory d (armSlot e committed) :=
  have shown := h.putB F.CAP_STATUS_PLAN_END false
  .ite _ (shown.setCap _).exhaustPlan
    (.ite _ (.ite _ shown.exhaustPlan shown) ((((ite _ (shown.capCode _) shown).setCap _).put _ _).put _ _))

theorem armRing (h : KeepsMemory d e) (inputs : List Nat) : KeepsMemory d (armRing inputs e) := by
  cases unit : e.cap.unit with
  | none =>
    simp only [Machine.armRing, unit]
    exact h.setCap _
  | some u =>
    simp only [Machine.armRing, unit]
    exact .ite _ (h.setCap _) (h.setCap _)

end KeepsMemory

/-- The sampled inputs that INMASK picks (R170). -/
def armPicked (d : Dev) : List Nat := (sampledInputs d.arr).filter (fun i => bitsOf (d.cfg F.CAP_CTRL_INMASK) i i == 1)

/-- The inputs that an arm stores: all that are sampled where INMASK picks none (R170). -/
def armInputs (d : Dev) : List Nat := if (armPicked d).isEmpty then sampledInputs d.arr else armPicked d

/-- CAP at an arm, with its pending set taken, no record held and the last acquisition ended (R178, R191). -/
def armReleased (d : Dev) : Dev := endAcq (releaseHeld (takeLatched d .cap))

/-- CAP when it comes to the plan: an INMASK that picks no input is reported. -/
def armAtPlan (d : Dev) : Dev := if (armPicked d).isEmpty then capCode d 0x0B04 else d

/-- Of all that CAP does at an arm, only the check of the plan writes to memory (R183). -/
theorem capArm_keeps (d : Dev) : KeepsMemory (armPlan (armAtPlan (armReleased d)) (armInputs (armReleased d)).length) (capArm d) := by
  have slot (b : Bool) := (KeepsMemory.refl (armPlan (armAtPlan (armReleased d)) (armInputs (armReleased d)).length)).armSlot b
  have counted (b : Bool) (acq : Word) :=
    ((((slot b).wr R.CAP_ACQ acq).wr64 R.CAP_LOST_LO 0).wr64 R.CAP_STREAM_WR_LO 0).wr64 R.CAP_STREAM_RD_LO 0
  have shown (b : Bool) (acq : Word) := ((counted b acq).put F.CAP_SRAM_HWM_KIB 0).putB F.CAP_STATUS_RING_BLOCKED false
  exact .ite _ (((shown _ _).armRing _).setCap _).endAcq (((shown _ _).armRing _).setCap _)

/-! ### The check of a plan (R183, R264) -/

@[simp] theorem Dev.mode_post (d : Dev) (i : Island) (num sub arg : Nat) (ts : Option TS) : (d.post i num sub arg ts).mode = d.mode := rfl

/-- SINGLE has no further check (R191, R220). -/
theorem armExtraOk_single {d : Dev} (single : d.mode = mSingle) (off start : Nat) : armExtraOk d off start = true := by
  rw [armExtraOk, single]
  rfl

/-- In SINGLE a valid plan is in use as the check leaves it. -/
theorem armPlan_keeps {d e : Dev} {n off start reports : Nat} (plan : d.cap.plan = some (off, start))
    (valid : checkPlan 0 d n d.mode start off = (e, reports, true)) (single : e.mode = mSingle) : KeepsMemory e (armPlan d n) := by
  have posted : KeepsMemory e (if reports = 0 then e else e.post .q evClamp 0 (reports * 2 ^ 32)) :=
    .ite _ (.refl e) ((KeepsMemory.refl e).post _ _ _ _ _)
  have still : (if reports = 0 then e else e.post .q evClamp 0 (reports * 2 ^ 32)).mode = mSingle := by
    rw [apply_ite Dev.mode, Dev.mode_post, ite_self, single]
  simp only [armPlan, plan, tryPlan, valid, armExtraOk_single still, Bool.and_self, if_true]
  exact ⟨posted.mem, posted.gen⟩

/-- A plan of one entry whose header stands: the entry's clamps are written back, and the CRC is renewed (R183, R264). -/
theorem checkPlan_clamped {d : Dev} {n mode seq off : Nat} {p : PlanEntry} {c : PlanClamp} {cs : List PlanClamp}
    (header : tableHeaderOk d tyPlan off = true) (one : d.load (tableBase + off + 0x0C) 4 = 1)
    (clamped : checkEntry d ⟨n, mode, 1⟩ (readEntry d off 0) = some (p, c :: cs)) :
    checkPlan seq d n mode 0 off = (fixTableCrc (fileClamps seq (writeEntry d off 0 p) 0 (c :: cs)) off, cs.length + 1, true) := by
  simp only [checkPlan, header, one, checkEntries, clamped, List.isEmpty_cons, List.length_cons, Bool.not_true, Bool.false_eq_true,
    if_false, Nat.zero_add, Nat.le_zero_eq, Nat.one_ne_zero]

theorem fileReport_keeps (d : Dev) (seq field req app : Nat) (hi : Bool) (block code : Nat) :
    KeepsMemory d (fileReport d seq field req app hi block code) := by
  have stored (i : Nat) (l : List Byte) (e : Dev) (h : KeepsMemory d e) : KeepsMemory d (storeRpt e i l) := by
    induction l generalizing e i with
    | nil => exact h
    | cons b bs ih => exact ih _ _ (h.setCfgc _)
  have lost : KeepsMemory d (d.count R.CFGC_RPT_LOST) := (KeepsMemory.refl d).wr _ _
  exact .ite _ (.ite _ lost ((lost.setCfgc _).post _ _ _ _ _)) ((stored _ _ _ (.refl d)).wr _ _)

theorem fileClamps_keeps (seq : Nat) (d : Dev) (e : Nat) (cs : List PlanClamp) : KeepsMemory d (fileClamps seq d e cs) := by
  induction cs generalizing d with
  | nil => exact .refl d
  | cons c cs ih => exact (fileReport_keeps ..).trans (ih _)

/-- The byte of the entry that a clamp writes stands when its reports are filed and the CRC is renewed. -/
theorem byte_clamped (d : Dev) (seq off e k : Nat) (p : PlanEntry) (cs : List PlanClamp)
    (crc : k < tableBase + off + 0x1C ∨ tableBase + off + 0x1C + 4 ≤ k) :
    (fixTableCrc (fileClamps seq (writeEntry d off e p) e cs) off).byte k = (writeEntry d off e p).byte k := by
  rw [fixTableCrc, Dev.store, Dev.byte_storeBytes_ne _ _ _ _ (by rwa [length_leBytes]), (fileClamps_keeps ..).byte]

theorem gen_clamped (d : Dev) (seq off e : Nat) (p : PlanEntry) (cs : List PlanClamp) :
    (fixTableCrc (fileClamps seq (writeEntry d off e p) e cs) off).gen = d.gen := by
  rw [fixTableCrc, Dev.store, storeBytes_gen, (fileClamps_keeps ..).gen, writeEntry, storeBytes_gen]

/-! ### The CRC of a table (R189), piece by piece: one evaluation of all its bytes nests too deep for the kernel -/

theorem crcBytes_append (c : Word) (xs ys : List Byte) : crcBytes c (xs ++ ys) = crcBytes (crcBytes c xs) ys := by
  induction xs generalizing c with
  | nil => rfl
  | cons b bs ih => exact ih _

theorem loadBytes_add (d : Dev) (a m n : Nat) : d.loadBytes a (m + n) = d.loadBytes a m ++ d.loadBytes (a + m) n := by
  induction m generalizing a with
  | zero => rw [Nat.zero_add]; rfl
  | succ m ih => rw [Nat.add_right_comm m 1 n, Dev.loadBytes, Dev.loadBytes, ih, List.cons_append, Nat.add_assoc, Nat.add_comm 1 m]

/-! ### The arm of a request that waited (R141, R522) -/

/-- At a boundary an ARM that waited acts. -/
theorem settleDue_arm {d : Dev} (ended : midSpan d = false) (waits : d.fox.due = [.arm]) :
    settleDue d = armFull (d.setFox { d.fox with due := [] }) := by
  simp only [settleDue, ended, waits, Bool.false_eq_true, if_false, List.foldl_cons, List.foldl_nil, foxAct]

theorem disarm_unarmed {d : Dev} (unarmed : d.armed = false) : disarm d = d := by rw [disarm, unarmed]; rfl

/-- An arm that is not refused, in a mode that captures, writes to memory what CAP writes. -/
theorem arm_keeps {d : Dev} (taken : (d.phase ≠ 0 || d.mode = mCalibrate || !d.flag F.PWR_STATUS_READY) = false)
    (source : anySource d = true) (sampled : mainUnsampled d = false) (unarmed : d.armed = false) (named : namesUnsampled (foxClear d) = false)
    (capture : isCapture (setArmed true (foxClear d)).mode = true) :
    KeepsMemory (capArm (redArm (sealArm (setArmed true (foxClear d))))) (arm d) := by
  have shown (e : Dev) : KeepsMemory e (showReady e) := (KeepsMemory.refl e).putB _ _
  simp only [arm, taken, source, sampled, disarm_unarmed unarmed, named, capture, Bool.not_true, Bool.false_eq_true, if_false, if_true]
  exact .ite _ (((KeepsMemory.refl _).put _ _).trans (shown _)) (shown _)

/-! ### A plan that an arm clamps -/

/-- A plan of one entry as it stands in table SRAM, without the bytes that are 0: 48 samples of one input, which stride 64 bytes, into
slots 64 bytes apart. -/
def planMemory : Store Byte :=
  [(tableBase, 0x54), (tableBase + 1, 0x4C), (tableBase + 2, 0x42), (tableBase + 3, 0x54), (tableBase + 4, 1), (tableBase + 5, 1),
   (tableBase + 8, 96), (tableBase + 12, 1), (tableBase + 28, 0xDF), (tableBase + 29, 0x1D), (tableBase + 30, 0xFA), (tableBase + 31, 0xC2),
   (tableBase + 40, 48), (tableBase + 56, 64), (tableBase + 64, 64), (tableBase + 74, 1), (tableBase + 80, 1)]

/-- SINGLE in QUAD under a locked sample clock, disarmed with the external source enabled and the plan committed: input 0's vector of
a span has come, those of the others are due, and an ARM written meanwhile waits for the span to end (R522). -/
def lossArms : Dev :=
  ({ pwr := { kUp := true, qUp := true, up := true }
     ddr := { span := 2 ^ 30 }
     mem := planMemory
     conv := { next := #v[some 256, some 0, some 0, some 0] }
     cap := { plan := some (0, 0) }
     fox := { due := [.arm] } } : Dev).put F.STAG_STATUS_SL_LOCK 1 |>.put F.PWR_STATUS_READY 1
    |>.put F.GLB_MODE_STATUS_CUR_MODE mSingle |>.efw R.FOX_CTRL 2

/-- The loss of lock has ended the span, and the ARM is about to act. -/
def lossArming : Dev := (slUnlock lossArms).setFox { (slUnlock lossArms).fox with due := [] }

/-- The arm reaches CAP. -/
def lossAtCap : Dev := redArm (sealArm (setArmed true (foxClear lossArming)))

/-- CAP comes to the plan, with four inputs to store. -/
def lossAtPlan : Dev := armAtPlan (armReleased lossAtCap)

/-- The entry with slots that hold four inputs (check 12 of Table 7.4). -/
def clampedEntry : PlanEntry :=
  { ctrl := 0, pre := 0, post := 48, bodyBase := 0, bodyStride := 256, inStride := 64, hdrBase := 0x10000, count := 1, next := 0, tmax := 0
    tbase := 0 }

/-- The clamp of its BODY_STRIDE. -/
def strideClamp : PlanClamp := ⟨3, 64, 256, 0x0104⟩

theorem lossAtPlan_crc : tableCrcOf lossAtPlan (tableBase + 0) 96 = 0xC2FA1DDF#32 := by
  have first : crcBytes 0xFFFFFFFF#32 (lossAtPlan.loadBytes (tableBase + 0) 28) = 0x5C35C877#32 := by decide +kernel
  have second : crcBytes 0x5C35C877#32 (lossAtPlan.loadBytes (tableBase + 0 + 32) 32) = 0x713069E1#32 := by decide +kernel
  have third : crcBytes 0x713069E1#32 (lossAtPlan.loadBytes (tableBase + 0 + 32 + 32) 32) = 0x3D05E220#32 := by decide +kernel
  rw [tableCrcOf, crc32, loadBytes_add _ _ 32 32, crcBytes_append, crcBytes_append, first, second, third]
  rfl

theorem lossAtPlan_header : tableHeaderOk lossAtPlan tyPlan 0 = true := by
  have len : lossAtPlan.load (tableBase + 0 + 8) 4 = 96 := by decide +kernel
  simp only [tableHeaderOk, len, lossAtPlan_crc]
  decide +kernel

/-- The plan's entry is written back. -/
def lossChecked : Dev := fixTableCrc (fileClamps 0 (writeEntry lossAtPlan 0 0 clampedEntry) 0 [strideClamp]) 0

theorem lossAtPlan_check : checkPlan 0 lossAtPlan 4 lossAtPlan.mode 0 0 = (lossChecked, 1, true) := by
  have single : lossAtPlan.mode = mSingle := by decide +kernel
  rw [single]
  exact checkPlan_clamped lossAtPlan_header (by decide +kernel) (by decide +kernel)

/-- After the check nothing writes to memory. -/
theorem lossChecked_keeps : KeepsMemory lossChecked (settleDue (slUnlock lossArms)) := by
  have four : (armInputs (armReleased lossAtCap)).length = 4 := by decide +kernel
  have plan : KeepsMemory lossChecked (capArm lossAtCap) :=
    (armPlan_keeps (by decide +kernel) lossAtPlan_check (by decide +kernel)).trans (four ▸ capArm_keeps lossAtCap)
  have armed : KeepsMemory (capArm lossAtCap) (arm lossArming) :=
    arm_keeps (by decide +kernel) (by decide +kernel) (by decide +kernel) (by decide +kernel) (by decide +kernel) (by decide +kernel)
  rw [settleDue_arm (by decide +kernel) (by decide +kernel)]
  exact (plan.trans armed).trans (.armFull _)

/-- The second byte of the entry's BODY_STRIDE. -/
def strideByte : Nat := entryAddr 0 0 + 0x19

theorem lossChecked_stride : lossChecked.byte strideByte = 1 := by
  rw [lossChecked, byte_clamped _ _ _ _ _ _ _ (by decide), writeEntry, strideByte, Dev.byte_storeBytes_mem _ _ _ _ (by decide)]
  decide

/-- Refutes O27: its first clause has memory unchanged by a loss of lock, but an ARM that waited for the span to end acts at once, and
CAP's check of the plan then writes a clamped entry back into table SRAM (R183). -/
theorem not_clockLoops : ¬ Obligations.ClockLoops := by
  rintro ⟨⟨unlocked, -⟩, -⟩
  have up : lossArms.Up := ⟨rfl, rfl, rfl, rfl, rfl⟩
  have lost : exec .slUnlock ⟨lossArms, []⟩ = .next ⟨settleDue (slUnlock lossArms), []⟩ := by
    change State.act (live 4 (settleDue ∘ slUnlock)) _ = _
    rw [State.act, live_up up, Function.comp_apply]
  obtain ⟨-, -, -, -, -, mem⟩ := (unlocked ⟨lossArms, []⟩ up (by decide +kernel) rfl rfl).of_exec lost
  have gen : (settleDue (slUnlock lossArms)).gen = lossArms.gen := by
    rw [lossChecked_keeps.gen, lossChecked, gen_clamped]
    decide +kernel
  have kept : KeepsMemory lossArms (settleDue (slUnlock lossArms)) := ⟨mem, gen⟩
  have before : lossArms.byte strideByte = 0 := by decide +kernel
  have after := (lossChecked_keeps.byte strideByte).trans lossChecked_stride
  exact absurd (before.symm.trans ((kept.byte strideByte).symm.trans after)) (by decide)

end Sys2Proof.Machine
end

section
/-! SUPPORT. O28: what an arm and a disarm leave alone, and the requests of FOX_ARM. -/
namespace Sys2Proof.Machine

/-! ### What RED, CAP, sealing and the schedule leave alone -/

/-- The two registers in which FOX_ARM is answered. -/
def armRegs : List Nat := [R.FOX_STATUS, R.GLB_MODE_STATUS]

/-- From `d` to `e` FOX, its status and the mode status stay as they are. -/
structure KeepsFox (d e : Dev) : Prop where
  fox : e.fox = d.fox
  rd : ∀ a ∈ armRegs, e.rd a = d.rd a

theorem storeBytes_regs_fox (d : Dev) (a : Nat) (bs : List Byte) : (d.storeBytes a bs).regs = d.regs ∧
    (d.storeBytes a bs).fox = d.fox := by
  induction bs generalizing d a with
  | nil => exact ⟨rfl, rfl⟩
  | cons b bs ih => exact ih _ _

/-- RED's registers and those above them are not among FOX_ARM's. -/
theorem not_armRegs_of_le {a : Nat} (h : 0xC00000 ≤ a) : a ∉ armRegs := by
  simp only [armRegs, R.FOX_STATUS, R.GLB_MODE_STATUS, List.mem_cons, List.not_mem_nil, or_false]
  omega

theorem not_armRegs_add {c : Nat} (k : Nat) (h : 0xC00000 ≤ c) : c + k ∉ armRegs :=
  not_armRegs_of_le (Nat.le_add_right_of_le h)

namespace KeepsFox
variable {d e a b : Dev}

theorem refl (d : Dev) : KeepsFox d d := ⟨rfl, fun _ _ => rfl⟩
theorem trans (h : KeepsFox d e) (k : KeepsFox e a) : KeepsFox d a := ⟨k.fox.trans h.fox, fun r hr => (k.rd r hr).trans (h.rd r hr)⟩

theorem get (h : KeepsFox d e) (f : Field) (hf : f.reg ∈ armRegs) : e.get f = d.get f := by rw [Dev.get, Dev.get, h.rd _ hf]
theorem mode (h : KeepsFox d e) : e.mode = d.mode := h.get _ (by decide)
theorem phase (h : KeepsFox d e) : e.phase = d.phase := h.get _ (by decide)
theorem armed (h : KeepsFox d e) : e.armed = d.armed := congrArg (· != 0) (h.get F.FOX_STATUS_ARMED (by decide))

/-- A change of other components. -/
theorem same (h : KeepsFox d e) (fox : a.fox = e.fox) (regs : a.regs = e.regs) : KeepsFox d a :=
  h.trans ⟨fox, fun r _ => by rw [Dev.rd, Dev.rd, regs]⟩

theorem wr (h : KeepsFox d e) {r : Nat} (v : Word) (hr : r ∉ armRegs) : KeepsFox d (e.wr r v) :=
  h.trans ⟨rfl, fun _ hq => Dev.rd_wr_ne _ _ _ _ fun same => hr (same ▸ hq)⟩
theorem wr64 (h : KeepsFox d e) {r : Nat} (v : Nat) (hr : ∀ q ∈ [r, r + 4], q ∉ armRegs) :
    KeepsFox d (e.wr64 r v) := (h.wr _ (hr r (by simp))).wr _ (hr (r + 4) (by simp))
theorem put (h : KeepsFox d e) {f : Field} (x : Nat) (hf : f.reg ∉ armRegs) : KeepsFox d (e.put f x) := h.wr _ hf
theorem putB (h : KeepsFox d e) {f : Field} (x : Bool) (hf : f.reg ∉ armRegs) : KeepsFox d (e.putB f x) := h.wr _ hf
theorem count (h : KeepsFox d e) {r : Nat} (n : Nat) (hr : r ∉ armRegs) : KeepsFox d (e.count r n) := h.wr _ hr
theorem post (h : KeepsFox d e) (i : Island) (num sub arg : Nat) (ts : Option TS) : KeepsFox d (e.post i num sub arg ts) := h.same rfl rfl
theorem setCfgc (h : KeepsFox d e) (cfgc : Cfgc) : KeepsFox d { e with cfgc } := h.same rfl rfl
theorem setCap (h : KeepsFox d e) (cap : Cap) : KeepsFox d { e with cap } := h.same rfl rfl
theorem setSealing (h : KeepsFox d e) (sealing : Seal) : KeepsFox d { e with sealing } := h.same rfl rfl
theorem storeBytes (h : KeepsFox d e) (k : Nat) (bs : List Byte) : KeepsFox d (e.storeBytes k bs) :=
  h.same (storeBytes_regs_fox e k bs).2 (storeBytes_regs_fox e k bs).1

theorem ite (p : Prop) [Decidable p] (ha : KeepsFox d a) (hb : KeepsFox d b) : KeepsFox d (if p then a else b) := by
  split <;> assumption

theorem foldl {α : Type} {f : Dev → α → Dev} (h : ∀ e x, KeepsFox e (f e x)) (l : List α) (d : Dev) : KeepsFox d (l.foldl f d) :=
  List.foldlRecOn l f (motive := KeepsFox d) (refl d) fun _ k x _ => k.trans (h _ x)

theorem takeWords (h : KeepsFox d e) (l : List CfgWord) : KeepsFox d (takeWords e l) := by
  induction l generalizing e with
  | nil => exact h
  | cons w ws ih => exact ih (h.same rfl rfl)

theorem takeLatched (h : KeepsFox d e) (u : CfgUnit) : KeepsFox d (takeLatched e u) := (h.setCfgc _).takeWords _

/-! #### RED -/

theorem showLoss (h : KeepsFox d e) (p : Fin 4) (bs : List Byte) : KeepsFox d (showLoss e p bs) :=
  h.trans (foldl (fun e _ => (refl e).wr _ (not_armRegs_of_le (by simp only [R.RED_p_LS]; omega))) _ _)

theorem setRed (h : KeepsFox d e) (p : Fin 4) (x : RedPipe) : KeepsFox d (e.setRed p x) := h.same rfl rfl

/-- A counter of pipe p is written. -/
theorem wr64_red (h : KeepsFox d e) {c : Nat} (p : Fin 4) (v : Nat) (hc : 0xC00000 ≤ c) : KeepsFox d (e.wr64 (c + 0x100 * p) v) :=
  h.wr64 _ fun q hq => not_armRegs_of_le (by simp only [List.mem_cons, List.not_mem_nil, or_false] at hq; omega)

theorem putB_admitted (h : KeepsFox d e) (p : Fin 4) (x : Bool) : KeepsFox d (e.putB (F.RED_p_STATUS_ADMITTED p) x) :=
  h.putB _ (not_armRegs_add _ (by decide))

theorem redCode (h : KeepsFox d e) (p : Fin 4) (c : Nat) : KeepsFox d (redCode p c e) := h.put _ (not_armRegs_add _ (by decide))

theorem finishBlock (h : KeepsFox d e) (flags : Nat) (p : Fin 4) : KeepsFox d (finishBlock flags p e) := by
  cases outs : blockOuts e p with
  | nil => simpa only [Machine.finishBlock, outs] using h
  | cons o os =>
    simp only [Machine.finishBlock, outs]
    have shown (bs : List Byte) (x : RedPipe) : KeepsFox d ((Machine.showLoss e p bs).setRed p x) := (h.showLoss p bs).setRed p x
    have lost (bs : List Byte) (x : RedPipe) (v : Nat) : KeepsFox d (((Machine.showLoss e p bs).setRed p x).wr64 (R.RED_p_LOST_LO p) v) :=
      (shown bs x).wr64_red p v (by decide)
    exact .ite _ (.ite _ (lost _ _ _) (((lost _ _ _).redCode p _).post _ _ _ _ _)) (shown _ _)

theorem restartPipe (h : KeepsFox d e) (flags : Nat) (p : Fin 4) : KeepsFox d (restartPipe flags none p e) :=
  ((ite _ (h.finishBlock 0 p) h).finishBlock flags p).setRed _ _

theorem redDisarm (h : KeepsFox d e) : KeepsFox d (redDisarm e) :=
  h.trans (foldl (fun e p => .ite _ (((refl e).restartPipe 0 p).setRed _ _ |>.put _ (not_armRegs_add _ (by decide))) (refl e)) _ _)

theorem ite_fst {β : Type} {x y : Dev × β} (p : Prop) [Decidable p] (hx : KeepsFox d x.1) (hy : KeepsFox d y.1) :
    KeepsFox d (if p then x else y).1 := by
  split <;> assumption

theorem admitPipe (s : Dev × (Nat × Nat)) (p : Fin 4) : KeepsFox s.1 (admitPipe s p).1 := by
  obtain ⟨d, used⟩ := s
  have zero : KeepsFox d ((d.wr64 (R.RED_p_BLOCKS_LO p) 0).wr64 (R.RED_p_LOST_LO p) 0) :=
    ((refl d).wr64_red p 0 (by decide)).wr64_red p 0 (by decide)
  have refused (c : Nat) := (zero.putB_admitted p false).redCode p c
  have running (e : Dev) (h : KeepsFox d e) (x : RedPipe) :
      KeepsFox d (((e.putB (F.RED_p_STATUS_ADMITTED p) true).setRed p x).setUnit (.red p) stOn) :=
    ((h.putB_admitted p true).setRed p x).put _ (not_armRegs_add _ (by decide))
  exact ite_fst _ ((refl d).putB_admitted p _) (ite_fst _ (refused _) (ite_fst _ (running _ (ite _ (zero.redCode p _) zero) _) (refused _)))

theorem redArm (h : KeepsFox d e) : KeepsFox d (redArm e) := by
  have taken := (h.takeLatched .redFine).trans (foldl (f := fun (d : Dev) (p : Fin 4) =>
      if d.cfgB (F.RED_p_CFG_MEM p) && d.unitState (.red p) ≠ stOff then d else Machine.takeLatched d (.red p))
    (fun e p => ite _ (refl e) ((refl e).takeLatched (.red p))) pipes _)
  exact List.foldlRecOn pipes Machine.admitPipe (b := (_, (0, 1))) (motive := fun s => KeepsFox d s.1) taken
    fun s k p _ => k.trans (admitPipe s p)

/-! #### Sealing -/

theorem armEnds (h : KeepsFox d e) : KeepsFox d (armEnds e) := h.same rfl rfl

theorem streamEnds (h : KeepsFox d e) : KeepsFox d (streamEnds e) := by
  unfold Machine.streamEnds
  dsimp only
  split
  · exact h.same rfl rfl
  · exact h.same rfl rfl
  · exact h

theorem sealArm (h : KeepsFox d e) : KeepsFox d (sealArm e) := by
  have ended := (ite (e.sealing.on && (!e.flag F.HEDGE_SEAL_CTRL_EN || e.sealing.wrapped)) h.streamEnds h).armEnds
  have taken (x : Seal) := ended.setSealing x
  exact .ite _ (((taken _).wr _ (by decide)).put _ (by decide)) (taken _)

theorem showPend (h : KeepsFox d e) : KeepsFox d (showPend e) := h.put _ (by decide)
theorem countSkip (h : KeepsFox d e) (leaf : Nat) : KeepsFox d (countSkip e leaf) :=
  ite _ (h.count 1 (by decide)) (((h.count 1 (by decide)).setSealing _).post _ _ _ _ _)

theorem takeLeaf (h : KeepsFox d e) : KeepsFox d (takeLeaf e).1 := ite_fst _ ((h.setSealing _).put _ (by decide)) h

theorem queueLeaf (h : KeepsFox d e) (l : Leaf) : KeepsFox d (queueLeaf e l) := by
  have shown (x : Seal) := (h.setSealing x).showPend
  exact .ite _ (((shown _).put _ (by decide)).countSkip _) (shown _)

/-! #### Reports of clamps, and the check of a plan -/

theorem fileReport (h : KeepsFox d e) (seq field req app : Nat) (hi : Bool) (block code : Nat) :
    KeepsFox d (fileReport e seq field req app hi block code) := by
  have stored (i : Nat) (l : List Byte) (e : Dev) (h : KeepsFox d e) : KeepsFox d (storeRpt e i l) := by
    induction l generalizing e i with
    | nil => exact h
    | cons b bs ih => exact ih _ _ (h.setCfgc _)
  have lost := h.count (r := R.CFGC_RPT_LOST) 1 (by decide)
  exact .ite _ (.ite _ lost ((lost.setCfgc _).post _ _ _ _ _)) ((stored _ _ _ h).wr _ (by decide))

theorem fileClamps (h : KeepsFox d e) (seq k : Nat) (cs : List PlanClamp) : KeepsFox d (fileClamps seq e k cs) := by
  induction cs generalizing e with
  | nil => exact h
  | cons c cs ih => exact ih (h.fileReport ..)

theorem checkEntries (v : PlanEnv) (seq off n k : Nat) (s : Dev × Nat) (h : KeepsFox d s.1) :
    KeepsFox d (checkEntries v seq off n k s).1 := by
  induction n generalizing k s with
  | zero => exact h
  | succ n ih =>
    obtain ⟨e, r⟩ := s
    simp only [Machine.checkEntries]
    split
    · exact h
    · exact ih _ _ (.ite _ h (((h.storeBytes _ _).fileClamps _ _ _).storeBytes _ _))

theorem checkPlan (h : KeepsFox d e) (seq n mode start off : Nat) : KeepsFox d (checkPlan seq e n mode start off).1 :=
  .ite_fst _ h (.ite_fst _ h (checkEntries _ _ _ _ _ _ h))

theorem useTable (h : KeepsFox d e) (fid ty off : Nat) : KeepsFox d (useTable fid ty off e) := h.setCfgc _

theorem tryPlan (h : KeepsFox d e) (n : Nat) (plan : Nat × Nat) : KeepsFox d (tryPlan e n plan).1 := by
  have checked := h.checkPlan 0 n e.mode plan.2 plan.1
  have posted (r : Nat) := ite (r = 0) checked (checked.post .q evClamp 0 (r * 2 ^ 32) none)
  exact .ite_fst _ (((posted _).setCap _).useTable _ _ _) ((posted _).setCap _)

theorem capCode (h : KeepsFox d e) (c : Nat) : KeepsFox d (capCode e c) := h.put _ (by decide)

theorem armPlan (h : KeepsFox d e) (n : Nat) : KeepsFox d (armPlan e n) := by
  unfold Machine.armPlan
  split
  · exact h.setCap _
  · next p _ =>
    have tried := h.tryPlan n p
    refine .ite _ tried ?_
    dsimp only
    split
    · exact tried.capCode _
    · exact (tried.capCode _).tryPlan _ _

/-! #### CAP at an arm -/

theorem releaseHeld (h : KeepsFox d e) : KeepsFox d (releaseHeld e) := (h.setCap _).putB _ (by decide)
theorem endAcq (h : KeepsFox d e) : KeepsFox d (endAcq e) := .ite _ (h.setCap _) h
theorem exhaustPlan (h : KeepsFox d e) : KeepsFox d (exhaustPlan e) := (((h.setCap _).capCode _).putB _ (by decide)).post _ _ _ _ _

theorem armSlot (h : KeepsFox d e) (committed : Bool) : KeepsFox d (armSlot e committed) :=
  have shown := h.putB (f := F.CAP_STATUS_PLAN_END) false (by decide)
  .ite _ (shown.setCap _).exhaustPlan
    (.ite _ (.ite _ shown.exhaustPlan shown) ((((ite _ (shown.capCode _) shown).setCap _).put _ (by decide)).put _ (by decide)))

theorem armRing (h : KeepsFox d e) (inputs : List Nat) : KeepsFox d (armRing inputs e) := by
  unfold Machine.armRing
  dsimp only
  split
  · exact h.setCap _
  · exact .ite _ (h.setCap _) (h.setCap _)

theorem capArm (h : KeepsFox d e) : KeepsFox d (capArm e) := by
  have released := (h.takeLatched .cap).releaseHeld.endAcq
  have slot (p : Prop) [Decidable p] (n : Nat) (b : Bool) := ((ite p (released.capCode 0x0B04) released).armPlan n).armSlot b
  have counted (p : Prop) [Decidable p] (n : Nat) (b : Bool) (acq : Word) := ((((slot p n b).wr (r := R.CAP_ACQ) acq (by decide)).wr64
    (r := R.CAP_LOST_LO) 0 (by decide)).wr64 (r := R.CAP_STREAM_WR_LO) 0 (by decide)).wr64 (r := R.CAP_STREAM_RD_LO) 0 (by decide)
  have shown (p : Prop) [Decidable p] (n : Nat) (b : Bool) (acq : Word) (inputs : List Nat) :=
    (((counted p n b acq).put (f := F.CAP_SRAM_HWM_KIB) 0 (by decide)).putB (f := F.CAP_STATUS_RING_BLOCKED) false (by decide)).armRing inputs
  exact .ite _ ((shown _ _ _ _ _).setCap _).endAcq ((shown _ _ _ _ _).setCap _)

/-! #### CAP at a disarm -/

theorem takeInputs (h : KeepsFox d e) : KeepsFox d (takeInputs e) := by
  unfold Machine.takeInputs
  split
  · exact h
  · exact h.setCap _

theorem closeUnit (h : KeepsFox d e) (samples extra lost : Nat) (good : Option Nat) : KeepsFox d (closeUnit e samples extra lost good) := by
  cases unit : e.cap.unit with
  | none => simpa only [Machine.closeUnit, unit] using h
  | some u =>
    simp only [Machine.closeUnit, unit]
    have leafed (p : Prop) [Decidable p] := ite_fst (y := (e, 0)) p h.takeLeaf h
    have queued (p q : Prop) [Decidable p] [Decidable q] (l : Leaf) := ite q (leafed p) ((leafed p).queueLeaf l)
    have counted (p q : Prop) [Decidable p] [Decidable q] (l : Leaf) (c : Cap) (v : Nat) :=
      ((queued p q l).setCap c).wr64 (r := R.CAP_LOST_LO) v (by decide)
    have handed (f : Dev) (k : KeepsFox d f) (p q : Prop) [Decidable p] [Decidable q] (held moving : Cap) :=
      (ite p ((k.setCap held).putB (f := F.CAP_STATUS_HOLDING) true (by decide)) (ite q (k.setCap moving) k)).takeInputs
    exact .ite _ (handed _ (counted _ _ _ _ _) _ _ _ _).endAcq (handed _ (counted _ _ _ _ _) _ _ _ _)

theorem sayLastBlock (h : KeepsFox d e) : KeepsFox d (sayLastBlock e) :=
  .ite _ (h.setCap _) (.ite _ h ((h.setCap _).post _ _ _ _ _))

theorem dropBlock (h : KeepsFox d e) (u : CapUnit) : KeepsFox d (dropBlock e u) := (h.setCap _).put _ (by decide)

theorem storeResult (h : KeepsFox d e) (k : Nat) (bs : List Byte) : KeepsFox d (storeResult e k bs) := by
  have cleared (e : Dev) (h : KeepsFox d e) (n : Nat) : KeepsFox d (e.clearPoison k n) := .ite _ h (h.same rfl rfl)
  exact .ite _ (cleared _ (h.storeBytes k bs) _) h

theorem fineLoss (h : KeepsFox d e) (u : CapUnit) (m : Nat) : KeepsFox d (fineLoss e u m) :=
  .ite _ h (h.trans (foldl (fun e _ => (((refl e).setRed _ _).showLoss _ _).storeResult _ _) _ _))

theorem capDisarm (h : KeepsFox d e) : KeepsFox d (capDisarm e) := by
  have ended (cap : Cap) := h.setCap cap
  unfold Machine.capDisarm
  dsimp only
  split
  · exact (ite _ (ended _).sayLastBlock (ended _)).endAcq
  · exact .ite _ (.ite _ ((ended _).dropBlock _).sayLastBlock ((((ended _).setCap _).fineLoss _ _).closeUnit _ _ _ _)) (ended _)

/-! #### The schedule (R402) -/

theorem setBeaver (h : KeepsFox d e) (x : Beaver) : KeepsFox d (e.setBeaver x) := h.same rfl rfl
theorem putRun (h : KeepsFox d e) (n : Fin 32) (x : Nat) : KeepsFox d (e.put (F.BEAVER_CH_n_STATUS_RUN n) x) :=
  h.put _ (not_armRegs_add _ (by decide))
theorem schedFirst (h : KeepsFox d e) : KeepsFox d (schedFirst e) :=
  (((h.setBeaver _).put _ (by decide)).putB _ (by decide)).put _ (by decide)

theorem schedRun (h : KeepsFox d e) : KeepsFox d (schedRun e) := by
  have chan (n : Fin 32) (b : Beaver) (c : DmaChan) : KeepsFox d ((e.setBeaver b).setChan n c) := h.same rfl rfl
  exact ((((chan _ _ _).putB _ (not_armRegs_add _ (by decide))).putRun _ _).put _ (not_armRegs_add _ (by decide))).put _ (by decide)

theorem schedArm (h : KeepsFox d e) : KeepsFox d (schedArm e) := by
  have channel (e : Dev) (n : Fin 32) : KeepsFox e (if schedNames e n && (chanRun e n = runIdle || chanRun e n = runHalted)
      then e.put (F.BEAVER_CH_n_STATUS_RUN n) runSched
      else if !schedNames e n && chanRun e n = runSched then e.put (F.BEAVER_CH_n_STATUS_RUN n) runIdle else e) :=
    .ite _ ((refl e).putRun _ _) (.ite _ ((refl e).putRun _ _) (refl e))
  have taken (x : Beaver) := (h.takeLatched .beaverSched).setBeaver x
  have named (p : Prop) [Decidable p] (x : Beaver) :=
    (ite p ((taken x).put (f := F.BEAVER_SCHED_STATUS_LAST_CODE) 0x1111 (by decide)) (taken x)).trans (foldl channel dmaChannels _)
  have first (p : Prop) [Decidable p] (x : Beaver) := (named p x).schedFirst.put (f := F.BEAVER_SCHED_STATUS_LAST_CODE) 0 (by decide)
  exact .ite _ (h.setBeaver _) (.ite _ (.ite _ (first _ _).schedRun (first _ _)) ((named _ _).put _ (by decide)))

end KeepsFox

/-! ### FOX_STATUS and GLB_MODE_STATUS -/

@[simp] theorem Dev.get_setFox (d : Dev) (x : Fox) (f : Field) : (d.setFox x).get f = d.get f := rfl

/-- Two fields that share no bit: of two registers, or apart in one. -/
abbrev Field.apart (f g : Field) : Prop := g.reg ≠ f.reg ∨ g.hi < f.lo ∨ f.hi < g.lo

/-- A field reads as before when one that shares no bit with it is written. -/
theorem Dev.get_put_apart (d : Dev) (f g : Field) (x : Nat) (h : f.ok) (ha : f.apart g) : (d.put f x).get g = d.get g := by
  by_cases hr : g.reg = f.reg
  · exact Dev.get_put_other d f g x h hr (ha.resolve_left fun ne => ne hr)
  · exact Dev.get_put_ne d f g x hr

theorem get_foxCode (c : Nat) (d : Dev) (f : Field) (h : F.FOX_STATUS_LAST_CODE.apart f) : (foxCode c d).get f = d.get f :=
  Dev.get_put_apart _ _ _ _ (by decide) h

theorem armed_foxCode (c : Nat) (d : Dev) : (foxCode c d).armed = d.armed :=
  congrArg (· != 0) (get_foxCode c d F.FOX_STATUS_ARMED (by decide))

theorem setArmed_eq (on : Bool) (d : Dev) : setArmed on d =
    ((d.put F.FOX_STATUS_ARMED on.toNat).put F.GLB_MODE_STATUS_ARMED on.toNat).put F.FOX_STATUS_STATE (if on then stOn else stOff) := rfl

/-- An arm and a disarm show in ARMED of both registers. -/
theorem get_setArmed (on : Bool) (d : Dev) :
    (setArmed on d).get F.FOX_STATUS_ARMED = on.toNat ∧ (setArmed on d).get F.GLB_MODE_STATUS_ARMED = on.toNat := by
  have bit : on.toNat % 2 ^ (0 + 1) = on.toNat := by cases on <;> rfl
  rw [setArmed_eq, Dev.get_put_apart _ _ _ _ (by decide) (by decide), Dev.get_put_apart _ _ _ _ (by decide) (by decide),
    Dev.get_put_same _ _ _ (by decide), Dev.get_put_apart _ _ _ _ (by decide) (by decide), Dev.get_put_same _ _ _ (by decide)]
  exact ⟨bit, bit⟩

/-- They leave every field that shares no bit with those and with FOX's state. -/
theorem get_setArmed_apart (on : Bool) (d : Dev) (f : Field)
    (h : ∀ g ∈ [F.FOX_STATUS_STATE, F.FOX_STATUS_ARMED, F.GLB_MODE_STATUS_ARMED], g.apart f) : (setArmed on d).get f = d.get f := by
  obtain ⟨state, fox, mode⟩ : F.FOX_STATUS_STATE.apart f ∧ F.FOX_STATUS_ARMED.apart f ∧ F.GLB_MODE_STATUS_ARMED.apart f := by
    simpa using h
  rw [setArmed_eq, Dev.get_put_apart _ _ _ _ (by decide) state, Dev.get_put_apart _ _ _ _ (by decide) mode,
    Dev.get_put_apart _ _ _ _ (by decide) fox]

/-- Clearing FOX's state shows HOLDOFF and FORCE_PENDING at 0. -/
theorem get_foxClear (d : Dev) : (foxClear d).get F.FOX_STATUS_HOLDOFF = 0 ∧ (foxClear d).get F.FOX_STATUS_FORCE_PENDING = 0 := by
  simp (disch := decide) only [foxClear, Dev.putB, Dev.get_put_apart, Dev.get_put_same]
  decide

theorem get_foxClear_armed (d : Dev) : (foxClear d).get F.FOX_STATUS_ARMED = d.get F.FOX_STATUS_ARMED := by
  simp (disch := decide) only [foxClear, Dev.putB, Dev.get_put_apart, Dev.get_setFox]

theorem rd_foxClear_ne (d : Dev) (a : Nat) (h : a ≠ R.FOX_STATUS) : (foxClear d).rd a = d.rd a := by
  have shown (e : Dev) (f : Field) (hf : f.reg = R.FOX_STATUS) (b : Bool) : (e.putB f b).rd a = e.rd a := Dev.rd_put_ne _ _ _ _ (hf ▸ h)
  rw [foxClear, shown _ _ rfl, shown _ _ rfl, shown _ _ rfl, shown _ _ rfl]
  rfl

/-! ### What an arm and a disarm leave (R141) -/

/-- After `d`, FOX is armed or not as `on` says, without holdoff and without a pending software trigger, in the mode of `d`. -/
structure Rearmed (on : Bool) (d e : Dev) : Prop where
  armed : e.armed = on
  shown : e.get F.GLB_MODE_STATUS_ARMED = on.toNat
  holdoff : e.get F.FOX_STATUS_HOLDOFF = 0
  pending : e.get F.FOX_STATUS_FORCE_PENDING = 0
  holdUntil : e.fox.holdUntil = none
  mode : e.mode = d.mode
  phase : e.phase = d.phase

section
variable {on : Bool} {d e a : Dev}

theorem armed_of_get (h : e.get F.FOX_STATUS_ARMED = on.toNat) : e.armed = on := by
  rw [Dev.armed, Dev.flag, h]
  cases on <;> rfl

theorem Rearmed.keeps (h : Rearmed on d e) (k : KeepsFox e a) : Rearmed on d a where
  armed := k.armed.trans h.armed
  shown := (k.get _ (by decide)).trans h.shown
  holdoff := (k.get _ (by decide)).trans h.holdoff
  pending := (k.get _ (by decide)).trans h.pending
  holdUntil := (congrArg Fox.holdUntil k.fox).trans h.holdUntil
  mode := k.mode.trans h.mode
  phase := k.phase.trans h.phase

/-- FOX cleared, then armed; a requirement on an input that is not sampled is reported between. -/
theorem rearmed_setArmed (on : Bool) (d : Dev) (p : Prop) [Decidable p] :
    Rearmed on d (setArmed on (if p then foxCode 0x0702 (foxClear d) else foxClear d)) := by
  have reported (f : Field) (h : F.FOX_STATUS_LAST_CODE.apart f) :
      (if p then foxCode 0x0702 (foxClear d) else foxClear d).get f = (foxClear d).get f := by
    split
    · exact get_foxCode _ _ _ h
    · rfl
  have kept (f : Field) (h : f.reg ≠ R.FOX_STATUS) : (foxClear d).get f = d.get f := by rw [Dev.get, Dev.get, rd_foxClear_ne _ _ h]
  obtain ⟨armed, shown⟩ := get_setArmed on (if p then foxCode 0x0702 (foxClear d) else foxClear d)
  obtain ⟨holdoff, pending⟩ := get_foxClear d
  exact {
    armed := armed_of_get armed
    shown
    holdoff := (get_setArmed_apart _ _ _ (by decide)).trans ((reported _ (by decide)).trans holdoff)
    pending := (get_setArmed_apart _ _ _ (by decide)).trans ((reported _ (by decide)).trans pending)
    holdUntil := by split <;> rfl
    mode := (get_setArmed_apart _ _ _ (by decide)).trans ((reported _ (by decide)).trans (kept _ (by decide)))
    phase := (get_setArmed_apart _ _ _ (by decide)).trans ((reported _ (by decide)).trans (kept _ (by decide))) }

/-- FOX disarmed, then cleared. -/
theorem rearmed_foxClear (on : Bool) (d : Dev) : Rearmed on d (foxClear (setArmed on d)) := by
  have kept (f : Field) (h : f.reg ≠ R.FOX_STATUS) : (foxClear (setArmed on d)).get f = (setArmed on d).get f := by
    rw [Dev.get, Dev.get, rd_foxClear_ne _ _ h]
  obtain ⟨armed, shown⟩ := get_setArmed on d
  obtain ⟨holdoff, pending⟩ := get_foxClear (setArmed on d)
  exact {
    armed := armed_of_get ((get_foxClear_armed _).trans armed)
    shown := (kept _ (by decide)).trans shown
    holdoff
    pending
    holdUntil := rfl
    mode := (kept _ (by decide)).trans (get_setArmed_apart _ _ _ (by decide))
    phase := (kept _ (by decide)).trans (get_setArmed_apart _ _ _ (by decide)) }

theorem disarm_rearmed (armed : d.armed = true) : Rearmed false d (disarm d) := by
  have ended := (KeepsFox.refl (foxClear (setArmed false d))).redDisarm.capDisarm
  simp only [disarm, armed, Bool.not_true, Bool.false_eq_true, if_false]
  exact (rearmed_foxClear false d).keeps (.ite _ ended.armEnds ended)

/-- An arm that is not refused. -/
theorem arm_rearmed (taken : (d.phase ≠ 0 || d.mode = mCalibrate || !d.flag F.PWR_STATUS_READY) = false) (source : anySource d = true)
    (sampled : mainUnsampled d = false) (unarmed : d.armed = false) : Rearmed true d (arm d) := by
  simp only [arm, taken, source, sampled, disarm_unarmed unarmed, Bool.not_true, Bool.false_eq_true, if_false]
  have begun := rearmed_setArmed true d (namesUnsampled (foxClear d) = true)
  have caught (e : Dev) := (KeepsFox.refl e).sealArm.redArm.capArm
  have shown (e : Dev) : KeepsFox e (showReady e) := (KeepsFox.refl e).putB _ (by decide)
  refine begun.keeps (.ite _ (.ite _ (((caught _).put _ (by decide)).trans (shown _)) ((caught _).trans (shown _))) (.refl _))

theorem armFull_rearmed (h : Rearmed true d (arm d)) : Rearmed true d (armFull d) := by
  rw [armFull, h.armed]
  exact h.keeps (KeepsFox.refl _).schedArm

/-- Before the start-up calibration ends an arm is refused. -/
theorem armFull_busy (unready : d.get F.PWR_STATUS_READY = 0) (unarmed : d.armed = false) :
    armFull d = d.put F.FOX_STATUS_LAST_CODE 0x0703 := by
  have refused : arm d = foxCode 0x0703 d := by
    simp only [arm, Dev.flag_of_get_zero unready, disarm_unarmed unarmed, Bool.not_false, Bool.or_true, if_true]
  rw [armFull, refused, armed_foxCode, unarmed]
  rfl

theorem anySource_none (none : d.cfg F.FOX_CTRL_SRC_EN = 0) : anySource d = false := by
  have off (s : Nat) : srcEnabled d s = false := by simp only [srcEnabled, none, bitsOf, Nat.zero_div, Nat.zero_mod]; rfl
  simp only [anySource, off, Bool.false_and, Bool.or_self]

/-- Without a usable source an arm is refused. -/
theorem armFull_sourceless (taken : (d.phase ≠ 0 || d.mode = mCalibrate || !d.flag F.PWR_STATUS_READY) = false)
    (source : anySource d = false) (unarmed : d.armed = false) : armFull d = d.put F.FOX_STATUS_LAST_CODE 0x0704 := by
  have refused : arm d = foxCode 0x0704 d := by
    simp only [arm, taken, source, disarm_unarmed unarmed, Bool.not_false, Bool.false_eq_true, if_false, if_true]
  rw [armFull, refused, armed_foxCode, unarmed]
  rfl

theorem arm_taken (idle : d.phase = 0) (mode : d.mode ≠ mCalibrate) (ready : d.get F.PWR_STATUS_READY = 1) :
    (d.phase ≠ 0 || d.mode = mCalibrate || !d.flag F.PWR_STATUS_READY) = false := by
  simp [idle, mode, Dev.flag_of_get_one ready]

/-! ### Requests of FOX_ARM (R522) -/

/-- Between spans of vectors, with no request waiting, a request acts at once. -/
theorem foxRequest_between (r : FoxAct) (between : d.Between) : foxRequest r d = foxAct r d := by
  obtain ⟨ended, none⟩ := between
  simp only [foxRequest, ended, none, List.isEmpty_nil, Bool.not_true, Bool.or_self, Bool.false_eq_true, if_false]

/-- Within a span it waits. -/
theorem foxRequest_midSpan (r : FoxAct) (mid : midSpan d = true) :
    foxRequest r d = { d with fox := { d.fox with due := d.fox.due ++ [r] } } := by
  simp only [foxRequest, mid, Bool.true_or, if_true]
  rfl

end

section
variable {s : State}

theorem runs_foxArmArm (hu : s.dev.Up) (between : s.dev.Between) (idle : s.dev.phase = 0) (mode : s.dev.mode ≠ mCalibrate)
    (ready : s.dev.get F.PWR_STATUS_READY = 1) (ext : srcEnabled s.dev 1 = true) (sampled : mainUnsampled s.dev = false)
    (unarmed : s.dev.armed = false) :
    Runs .foxArmArm s fun e => e.armed = true ∧ e.get F.GLB_MODE_STATUS_ARMED = 1 ∧ e.get F.FOX_STATUS_HOLDOFF = 0 ∧
      e.get F.FOX_STATUS_FORCE_PENDING = 0 ∧ e.mode = s.dev.mode ∧ e.phase = 0 := by
  refine runs_of_live 7 (foxRequest .arm) hu rfl ?_
  have source : anySource s.dev = true := by simp only [anySource, ext, Bool.or_true, Bool.true_or]
  obtain ⟨armed, shown, holdoff, pending, -, mode, phase⟩ :=
    armFull_rearmed (arm_rearmed (arm_taken idle mode ready) source sampled unarmed)
  rw [foxRequest_between _ between]
  exact ⟨armed, shown, holdoff, pending, mode, phase.trans idle⟩

theorem runs_foxArmDisarm (hu : s.dev.Up) (between : s.dev.Between) (armed : s.dev.armed = true) :
    Runs .foxArmDisarm s fun e => e.armed = false ∧ e.get F.GLB_MODE_STATUS_ARMED = 0 ∧ e.get F.FOX_STATUS_HOLDOFF = 0 ∧
      e.get F.FOX_STATUS_FORCE_PENDING = 0 ∧ e.fox.holdUntil = none ∧ e.mode = s.dev.mode := by
  refine runs_of_live 7 (foxRequest .disarm) hu rfl ?_
  obtain ⟨unarmed, shown, holdoff, pending, holdUntil, mode, -⟩ := disarm_rearmed armed
  rw [foxRequest_between _ between]
  exact ⟨unarmed, shown, holdoff, pending, holdUntil, mode⟩

end

/-- Settles O28: an arm and a disarm write FOX's two status fields themselves, and what RED, CAP, sealing and the schedule do after them
touches neither FOX_STATUS nor GLB_MODE_STATUS; the refusals leave only their code, and within a span a request only joins the queue. -/
theorem armAndDisarm : Obligations.ArmAndDisarm :=
  ⟨fun _ hu between idle mode ready ext sampled unarmed => runs_foxArmArm hu between idle mode ready ext sampled unarmed,
   fun _ hu between unready unarmed =>
    gives_of_live 7 (foxRequest .arm) hu rfl ((foxRequest_between _ between).trans (armFull_busy unready unarmed)),
   fun _ hu between idle mode ready none unarmed => gives_of_live 7 (foxRequest .arm) hu rfl
    ((foxRequest_between _ between).trans (armFull_sourceless (arm_taken idle mode ready) (anySource_none none) unarmed)),
   fun _ hu between armed => runs_foxArmDisarm hu between armed,
   fun _ hu mid => ⟨gives_of_live 7 (foxRequest .arm) hu rfl (foxRequest_midSpan _ mid),
    gives_of_live 7 (foxRequest .disarm) hu rfl (foxRequest_midSpan _ mid),
    gives_of_live 7 (foxRequest .force) hu rfl (foxRequest_midSpan _ mid)⟩⟩

end Sys2Proof.Machine
end

section
/-! SUPPORT. O29: FORCE, a FORCE held through the busy interval, and the wake of SENTRY. -/
namespace Sys2Proof.Machine

section
variable {d : Dev}

/-! ### FORCE (R140) -/

theorem force_disarmed (unarmed : d.armed = false) : force d = d.put F.FOX_STATUS_LAST_CODE 0x0705 := by
  simp only [force, unarmed, Bool.not_false, if_true]
  rfl

/-- The first FORCE while armed joins the next vector. -/
theorem force_joins (armed : d.armed = true) (mode : d.mode ≠ mCount) (locked : d.stag.lost = false) (free : d.fox.swNow = false)
    (pending : d.get F.FOX_STATUS_FORCE_PENDING = 0) : force d = { d with fox := { d.fox with swNow := true } } := by
  have vectors : takesAtOnce d = false := by simp only [takesAtOnce, beq_false_of_ne mode, locked, Bool.or_self]
  simp only [force, armed, free, Dev.flag_of_get_zero pending, vectors, Bool.not_true, Bool.or_self, Bool.false_eq_true, if_false]
  rfl

theorem force_missed (armed : d.armed = true) (joined : d.fox.swNow = true) : force d = missed srcSw d.stag.now.toNat d := by
  simp only [force, armed, joined, Bool.not_true, Bool.true_or, Bool.false_eq_true, if_false, if_true]

/-- LYNX alone receives a trigger's TS (R281). -/
theorem tellLynx_eq (kind ts : Nat) (d : Dev) : ∃ lynx, tellLynx kind ts d = { d with lynx } :=
  List.foldlRecOn _ _ (motive := fun e : Dev => ∃ lynx, e = { d with lynx }) ⟨d.lynx, rfl⟩ fun _ ⟨_, he⟩ _ _ => by
    subst he
    exact ⟨_, rfl⟩

/-- A missed candidate is counted; LYNX, an event and the note that it was posted are all that can change besides (R142). -/
theorem missed_eq (source ts : Nat) (d : Dev) :
    ∃ lynx fox crossings, missed source ts d = { d.count R.FOX_MISSED_CNT with lynx, fox, crossings } := by
  obtain ⟨lynx, told⟩ := tellLynx_eq 1 ts (d.count R.FOX_MISSED_CNT)
  simp only [missed, told]
  split <;> split <;> exact ⟨_, _, _, rfl⟩

theorem swPendingTaken_released (armed : d.armed = true) (pending : d.get F.FOX_STATUS_FORCE_PENDING = 1)
    (ended : inBusy d (d.fox.vecK + 256 * foxStride d) = false) :
    swPendingTaken d = ({ d with fox := { d.fox with swNow := true } } : Dev).put F.FOX_STATUS_FORCE_PENDING 0 := by
  simp only [swPendingTaken, armed, Dev.flag_of_get_one pending, ended, Bool.not_false, Bool.and_self, if_true]
  rfl

theorem runs_foxArmForce_missed {s : State} (hu : s.dev.Up) (between : s.dev.Between) (armed : s.dev.armed = true)
    (joined : s.dev.fox.swNow = true) :
    Runs .foxArmForce s fun e => (e.rd R.FOX_MISSED_CNT).toNat = min ((s.dev.rd R.FOX_MISSED_CNT).toNat + 1) 0xFFFFFFFF ∧
      RegsOutside [R.FOX_MISSED_CNT] s.dev e ∧ e.cap = s.dev.cap ∧ e.mem = s.dev.mem := by
  refine runs_of_live 7 (foxRequest .force) hu rfl ?_
  obtain ⟨lynx, fox, crossings, counted⟩ := missed_eq srcSw s.dev.stag.now.toNat s.dev
  rw [foxRequest_between _ between, foxAct, force_missed armed joined, counted]
  exact ⟨Dev.rd_count_same _ _ _, fun a ha => Dev.rd_count_ne _ _ _ _ (List.ne_of_not_mem_cons ha), rfl, rfl⟩

/-! ### The wake of SENTRY (R51) -/

/-- A trigger accepted in SENTRY wakes; before that LYNX receives it, TRIGOUT's edge is planned and EV_TRIG may be posted (R142). -/
theorem accept_sentry (c : Cand) (sentry : d.mode = mSentry) :
    ∃ lynx fox crossings, accept c d = wake c { d with lynx, fox, crossings } := by
  obtain ⟨lynx, told⟩ := tellLynx_eq 0 c.at'.ts d
  have planned (ref : Nat) (e : Dev) : ∃ fox, planEdge ref none e = { e with fox } := by
    unfold planEdge
    dsimp only
    split <;> exact ⟨_, rfl⟩
  have said (index : Int) (e : Dev) : ∃ fox crossings, sayTrig c index e = { e with fox, crossings } := by
    unfold sayTrig
    split <;> exact ⟨_, _, rfl⟩
  have still : Dev.mode { d with lynx } = mSentry := sentry
  simp only [accept, told, still, if_true]
  obtain ⟨fox, edge⟩ := planned (refInstant { d with lynx } c) { d with lynx }
  obtain ⟨fox', crossings, event⟩ := said (Dev.gridAt { d with lynx } c.at'.ts).1 { d with lynx, fox }
  rw [edge, event]
  exact ⟨_, _, _, rfl⟩

theorem takeCand_sentry (c : Cand) (armed : d.armed = true) (sentry : d.mode = mSentry) (locked : d.stag.lost = false) :
    ∃ lynx fox crossings, takeCand d c = wake c { d with lynx, fox, crossings } := by
  simp only [takeCand, armed, locked, sentry, Bool.not_true, Bool.false_eq_true, if_false, if_true]
  exact accept_sentry c sentry

/-- FOX as a wake leaves it: disarmed and cleared, with EV_WAKE posted. -/
def wakeDisarmed (c : Cand) (d : Dev) : Dev :=
  foxClear (setArmed false (d.post .q evWake 0 c.source (some (BitVec.ofNat 96 c.at'.ts))))

/-- SINGLE is asked for in an arrangement, and the switch begins. -/
def wakeSwitching (c : Cand) (arr : Nat) (d : Dev) : Dev :=
  addressSet arr { (((d.put F.GLB_MODE_MODE mSingle).put F.GLB_MODE_STATUS_PHASE 2).put F.GLB_MODE_STATUS_TGT_MODE mSingle).put
    F.GLB_MODE_STATUS_TGT_ARR arr with mod := { leaving := [], wake := true, wakeTS := BitVec.ofNat 96 c.at'.ts } }

/-- The arrangement of GLB_MODE, where 3 stands for the current one. -/
def wakeArr (d : Dev) : Nat := if d.get F.GLB_MODE_ARR = 3 then d.arr else d.get F.GLB_MODE_ARR

theorem wakeDisarmed_armed (c : Cand) (d : Dev) : (wakeDisarmed c d).armed = false := (rearmed_foxClear false _).armed
theorem wakeDisarmed_phase (c : Cand) (d : Dev) : (wakeDisarmed c d).phase = d.phase := (rearmed_foxClear false _).phase
theorem wakeDisarmed_mode (c : Cand) (d : Dev) : (wakeDisarmed c d).mode = d.mode := (rearmed_foxClear false _).mode

theorem rd_wakeDisarmed_ne (c : Cand) (d : Dev) (a : Nat) (h : a ∉ armRegs) : (wakeDisarmed c d).rd a = d.rd a := by
  obtain ⟨fox, mode⟩ : a ≠ R.FOX_STATUS ∧ a ≠ R.GLB_MODE_STATUS := by simpa [armRegs] using h
  rw [wakeDisarmed, rd_foxClear_ne _ _ fox, setArmed_eq, Dev.rd_put_ne _ F.FOX_STATUS_STATE _ _ fox,
    Dev.rd_put_ne _ F.GLB_MODE_STATUS_ARMED _ _ mode, Dev.rd_put_ne _ F.FOX_STATUS_ARMED _ _ fox, Dev.rd_post]

theorem wakeDisarmed_arr (c : Cand) (d : Dev) : (wakeDisarmed c d).arr = d.arr := by
  rw [Dev.arr, Dev.get, wakeDisarmed, rd_foxClear_ne _ _ (by decide)]
  exact get_setArmed_apart false _ F.GLB_MODE_STATUS_CUR_ARR (by decide)

/-- A request that is pending goes on. -/
theorem wake_pending (c : Cand) (pending : d.phase ≠ 0) : wake c d = wakeDisarmed c d := by
  have still : (wakeDisarmed c d).phase ≠ 0 := wakeDisarmed_phase c d ▸ pending
  exact if_pos still

theorem wake_idle (c : Cand) (idle : d.phase = 0) : wake c d = wakeSwitching c (wakeArr d) (wakeDisarmed c d) := by
  have still : ¬ (wakeDisarmed c d).phase ≠ 0 := not_not.mpr ((wakeDisarmed_phase c d).trans idle)
  have arr : wakeArr (wakeDisarmed c d) = wakeArr d := by
    have asked : (wakeDisarmed c d).get F.GLB_MODE_ARR = d.get F.GLB_MODE_ARR := by
      rw [Dev.get, Dev.get, rd_wakeDisarmed_ne _ _ _ (by decide)]
    rw [wakeArr, wakeArr, asked, wakeDisarmed_arr]
  rw [← arr]
  exact if_neg still

theorem wakeArr_lt (d : Dev) : wakeArr d < 4 := by
  have lt (f : Field) (hf : f.hi + 1 - f.lo = 2) : d.get f < 4 := (bitsOf_lt _ _ _).trans_eq (congrArg (2 ^ ·) hf)
  unfold wakeArr
  split
  · exact lt F.GLB_MODE_STATUS_CUR_ARR rfl
  · exact lt F.GLB_MODE_ARR rfl

theorem get_addressSet (arr : Nat) (mod : ModeSt) (d : Dev) (f : Field) : (addressSet arr { d with mod }).get f = d.get f := rfl

/-- What the switch shows. -/
theorem wakeSwitching_shows (c : Cand) (arr : Nat) (h : arr < 4) (d : Dev) :
    let e := wakeSwitching c arr d
    e.phase = 2 ∧ e.mode = d.mode ∧ e.armed = d.armed ∧ e.get F.GLB_MODE_STATUS_TGT_MODE = mSingle ∧
      e.get F.GLB_MODE_STATUS_TGT_ARR = arr ∧ e.get F.GLB_MODE_MODE = mSingle ∧ e.get F.GLB_MODE_WAKE_ARM = d.get F.GLB_MODE_WAKE_ARM := by
  simp (disch := decide) only [Dev.phase, Dev.mode, Dev.armed, Dev.flag, wakeSwitching, get_addressSet, Dev.get_put_apart, Dev.get_put_same,
    true_and, and_true]
  exact ⟨rfl, rfl, Nat.mod_eq_of_lt h, rfl⟩

theorem wakeSwitching_cap (c : Cand) (arr : Nat) (d : Dev) : (wakeSwitching c arr d).cap = d.cap := by
  simp only [wakeSwitching, addressSet, Dev.put_cap]
theorem wakeSwitching_mem (c : Cand) (arr : Nat) (d : Dev) : (wakeSwitching c arr d).mem = d.mem := by
  simp only [wakeSwitching, addressSet, Dev.put_mem]

/-- A trigger accepted in armed SENTRY disarms FOX, asks for SINGLE and switches. -/
theorem takeCand_wakes (c : Cand) (armed : d.armed = true) (sentry : d.mode = mSentry) (idle : d.phase = 0) (locked : d.stag.lost = false) :
    let e := takeCand d c
    e.phase = 2 ∧ e.mode = mSentry ∧ e.armed = false ∧ e.get F.GLB_MODE_STATUS_TGT_MODE = mSingle ∧
      e.get F.GLB_MODE_STATUS_TGT_ARR = (if d.get F.GLB_MODE_ARR = 3 then d.arr else d.get F.GLB_MODE_ARR) ∧
      e.get F.GLB_MODE_MODE = mSingle ∧ e.get F.GLB_MODE_WAKE_ARM = d.get F.GLB_MODE_WAKE_ARM ∧ e.mod.wake = true ∧
      e.mod.wakeTS = BitVec.ofNat 96 c.at'.ts ∧ e.cap = d.cap ∧ e.mem = d.mem := by
  obtain ⟨lynx, fox, crossings, taken⟩ := takeCand_sentry c armed sentry locked
  have woken : takeCand d c = wakeSwitching c (wakeArr d) (wakeDisarmed c { d with lynx, fox, crossings }) := taken.trans (wake_idle c idle)
  obtain ⟨phase, mode, unarmed, tgtMode, tgtArr, asked, wakeArm⟩ :=
    wakeSwitching_shows c (wakeArr d) (wakeArr_lt d) (wakeDisarmed c { d with lynx, fox, crossings })
  have kept : (wakeDisarmed c { d with lynx, fox, crossings }).get F.GLB_MODE_WAKE_ARM = d.get F.GLB_MODE_WAKE_ARM := by
    rw [Dev.get, rd_wakeDisarmed_ne _ _ _ (by decide)]
    rfl
  simp only [woken]
  exact ⟨phase, mode.trans ((wakeDisarmed_mode _ _).trans sentry), unarmed.trans (wakeDisarmed_armed _ _), tgtMode, tgtArr, asked,
    wakeArm.trans kept, rfl, rfl, wakeSwitching_cap _ _ _, wakeSwitching_mem _ _ _⟩

/-- While a mode request is pending it disarms FOX and leaves the request. -/
theorem takeCand_request_pending (c : Cand) (armed : d.armed = true) (sentry : d.mode = mSentry) (pending : d.phase ≠ 0)
    (locked : d.stag.lost = false) :
    let e := takeCand d c
    e.phase = d.phase ∧ e.armed = false ∧ e.mod = d.mod ∧ e.rd R.GLB_MODE = d.rd R.GLB_MODE ∧ e.cap = d.cap ∧ e.mem = d.mem := by
  obtain ⟨lynx, fox, crossings, taken⟩ := takeCand_sentry c armed sentry locked
  have disarmed : takeCand d c = wakeDisarmed c { d with lynx, fox, crossings } := taken.trans (wake_pending c pending)
  simp only [disarmed]
  exact ⟨wakeDisarmed_phase _ _, wakeDisarmed_armed _ _, rfl, rd_wakeDisarmed_ne _ _ _ (by decide), rfl, rfl⟩

end

/-- Settles O29: a FORCE reaches the vector, is missed or is refused by what FOX holds; a trigger accepted in SENTRY is a wake, which
switches to SINGLE only when no request is pending. -/
theorem softwareTriggers : Obligations.SoftwareTriggers :=
  ⟨⟨fun _ hu between unarmed =>
      gives_of_live 7 (foxRequest .force) hu rfl ((foxRequest_between _ between).trans (force_disarmed unarmed)),
    fun _ hu between armed mode locked free pending => gives_of_live 7 (foxRequest .force) hu rfl
      ((foxRequest_between _ between).trans (force_joins armed mode locked free pending)),
    fun _ hu between armed joined => runs_foxArmForce_missed hu between armed joined,
    fun _ hu armed pending ended => gives_of_unheld 7 7 swPendingTaken hu rfl (swPendingTaken_released armed pending ended)⟩,
   fun _ c armed sentry idle locked => takeCand_wakes c armed sentry idle locked,
   fun _ c armed sentry pending locked => takeCand_request_pending c armed sentry pending locked⟩

end Sys2Proof.Machine
end

section
/-! SUPPORT. O30: the ends of holdoff, of the busy interval and of a sequence's window; TRIGOUT's periods, and its least delay. -/
namespace Sys2Proof.Machine

section
variable {d : Dev}

/-! ### Intervals end (R131, R132, R144) -/

theorem holdoffEnd_passed {t : Nat} (holds : d.fox.holdUntil = some t) (passed : t ≤ d.stag.now.toNat) :
    holdoffEnd d = d.put F.FOX_STATUS_HOLDOFF 0 := by
  simp only [holdoffEnd, holds, passed, if_true]
  rfl

theorem busyEnd_passed {k : Int} (busy : d.fox.busyEnd = some k) (passed : k ≤ d.fox.vecK + 256 * foxStride d)
    (closed : d.cap.unit = none) (room : d.cap.full = false) :
    busyEnd d = ({ d with fox := { d.fox with busy := false, busyEnd := none } } : Dev).put F.FOX_STATUS_BUSY 0 := by
  simp only [busyEnd, busy, passed, closed, room, decide_true, Option.isNone_none, Bool.not_false, Bool.and_self, if_true]
  rfl

theorem seqWindowExpire_passed {t : Nat} (opened : d.fox.seqAt = some t) (window : d.cf64 R.FOX_SEQ_WIN_LO % 2 ^ 48 ≠ 0)
    (passed : t + d.cf64 R.FOX_SEQ_WIN_LO % 2 ^ 48 * 2 ^ 32 < min d.stag.now.toNat (d.sampleTS (foxIndex d 255)).toNat) :
    seqWindowExpire d = ({ d with fox := { d.fox with seqAt := none, seqCount := 0 } } : Dev).put F.FOX_STATUS_SEQ_OPEN 0 := by
  simp only [seqWindowExpire, seqExpire, tsNat, opened, window, passed, ne_eq, not_false_eq_true, decide_true, Bool.and_self, if_true]
  rfl

/-! ### TRIGOUT's active periods (R147, R150) -/

theorem trigoutEdge_opens {x fin : Nat} {rest : List (Nat × Nat)} (planned : d.fox.trigout.edges = (x, fin) :: rest)
    (idle : d.fox.trigout.active = false) (fresh : d.fox.trigout.endAt = 0) :
    trigoutEdge d = { d with fox := { d.fox with trigout := { d.fox.trigout with edges := rest, active := true, endAt := fin } } } := by
  simp only [trigoutEdge, planned, idle, fresh, ne_eq, not_true_eq_false, decide_false, Bool.false_and, Bool.false_eq_true, if_false]
  rfl

/-- An edge that falls less than 1.6 ns after the period's end extends it. -/
theorem trigoutEdge_merges {x fin : Nat} {rest : List (Nat × Nat)} (planned : d.fox.trigout.edges = (x, fin) :: rest)
    (running : d.fox.trigout.endAt ≠ 0) (near : x < d.fox.trigout.endAt + 2 ^ 31) : trigoutEdge d = mergeEdge d fin rest := by
  simp only [trigoutEdge, planned, running, near, ne_eq, not_false_eq_true, decide_true, Bool.and_self, if_true]

theorem trigoutActiveEnd_last (active : d.fox.trigout.active = true) (none : d.fox.trigout.edges = []) :
    trigoutActiveEnd d = trigoutRefresh (d.setFox { d.fox with trigout := { d.fox.trigout with active := false } }) := by
  simp only [trigoutActiveEnd, active, none, Bool.not_true, Bool.false_eq_true, if_false]

theorem runs_trigoutEdge_merges {s : State} {x fin : Nat} {rest : List (Nat × Nat)} (hu : s.dev.Up)
    (planned : s.dev.fox.trigout.edges = (x, fin) :: rest) (running : s.dev.fox.trigout.endAt ≠ 0)
    (near : x < s.dev.fox.trigout.endAt + 2 ^ 31) :
    Runs .trigoutEdge s fun e => e.fox.trigout.active = true ∧ e.fox.trigout.edges = rest ∧
      e.fox.trigout.endAt = max s.dev.fox.trigout.endAt fin ∧
      (e.rd R.FOX_MERGED_CNT).toNat = min ((s.dev.rd R.FOX_MERGED_CNT).toNat + 1) 0xFFFFFFFF ∧ RegsOutside [R.FOX_MERGED_CNT] s.dev e := by
  refine runs_of_live 7 trigoutEdge hu rfl ?_
  rw [trigoutEdge_merges planned running near]
  exact ⟨rfl, rfl, rfl, Dev.rd_count_same _ _ _, fun a ha => Dev.rd_count_ne _ _ _ _ (List.ne_of_not_mem_cons ha)⟩

theorem runs_trigoutActiveEnd {s : State} (hu : s.dev.Up) (active : s.dev.fox.trigout.active = true) (none : s.dev.fox.trigout.edges = []) :
    Runs .trigoutActiveEnd s fun e => e.fox.trigout.active = false ∧ e.fox.trigout.cfg = s.dev.ef R.FOX_TRIGOUT ∧ e.regs = s.dev.regs ∧
      e.crossings = s.dev.crossings := by
  refine runs_of_live 7 trigoutActiveEnd hu rfl ?_
  rw [trigoutActiveEnd_last active none]
  exact ⟨rfl, rfl, rfl, rfl⟩

/-! ### FOX_TRIGOUT_MIN (R148, Table 5.5) -/

theorem mode_ne_of_capture (capture : isCapture d.mode = true) (m : Nat) (h : isCapture m = false) : d.mode ≠ m :=
  fun same => Bool.false_ne_true (h.symm.trans (same ▸ capture))

/-- In a capture mode under the sample loop a C period is 16 / N tick (Table 1.4). -/
theorem cPeriods_capture (n : Nat) (capture : isCapture d.mode = true) (locked : d.get F.STAG_STATUS_ON_BYCLK = 0) :
    cPeriods d n = ⟨0, 16 * 256 * n⟩ := by
  simp only [cPeriods, mode_ne_of_capture capture mCount rfl, mode_ne_of_capture capture mSentry rfl, Dev.flag_of_get_zero locked,
    decide_false, Bool.or_self, Bool.false_eq_true, if_false]

/-- The paths of the enabled sources. -/
def trigoutPaths (d : Dev) : List Path :=
  (if srcEnabled d 0 && mainUsable d then
    (if d.cfgB F.FOX_SEQ_EN then [mainPath d (unitCfg d 1)] else [mainPath d (unitCfg d 0)]) else []) ++
  (if srcEnabled d 1 then [extPath d] else []) ++
  (if srcEnabled d 2 then
    (pipes.filter (fun (n : Fin 4) => bitsOf (d.cfg F.FOX_SER_MATCH) n.val n.val == 1 && d.cfgB (F.SDEC_d_CFG_EN n))).map (serialPath d)
    else []) ++
  (if srcEnabled d 3 || srcEnabled d 4 then [inputPath d 0 0] else [])

theorem trigoutMin_eq (d : Dev) :
    trigoutMin d = ((trigoutPaths d).map fun p => p.units (divN (d.ef R.STAG_SL_DIV))).foldl max 0 := rfl

/-- The least delay is the path of the one source that is enabled. -/
theorem trigoutMin_of_one {p : Path} (one : trigoutPaths d = [p]) : trigoutMin d = p.units (divN (d.ef R.STAG_SL_DIV)) := by
  rw [trigoutMin_eq, one, List.map_cons, List.map_nil, List.foldl_cons, List.foldl_nil, Nat.zero_max]

theorem trigoutPaths_ext (ext : d.cfg F.FOX_CTRL_SRC_EN = 2) : trigoutPaths d = [extPath d] := by
  obtain ⟨main, on, serial, ring, sw⟩ : srcEnabled d 0 = false ∧ srcEnabled d 1 = true ∧ srcEnabled d 2 = false ∧
      srcEnabled d 3 = false ∧ srcEnabled d 4 = false := by
    simp only [srcEnabled, ext]
    decide
  simp only [trigoutPaths, on, main, serial, ring, sw, Bool.false_and, Bool.or_self, Bool.false_eq_true, if_false, if_true, List.nil_append,
    List.append_nil]

theorem trigoutPaths_sw (sw : d.cfg F.FOX_CTRL_SRC_EN = 16) : trigoutPaths d = [inputPath d 0 0] := by
  obtain ⟨main, ext, serial, on⟩ : srcEnabled d 0 = false ∧ srcEnabled d 1 = false ∧ srcEnabled d 2 = false ∧
      srcEnabled d 4 = true := by
    simp only [srcEnabled, sw]
    decide
  simp only [trigoutPaths, on, main, ext, serial, Bool.false_and, Bool.or_true, Bool.false_eq_true, if_false, if_true, List.nil_append]

end

/-- FOX_TRIGOUT_MIN reads as computed; FOX itself stays, and a delay that is now too short is reported. -/
theorem runs_trigoutMinRecompute {s : State} {m : Nat} (hu : s.dev.Up) (computed : trigoutMin s.dev = m) (h : m < 2 ^ 20) :
    Runs .trigoutMinRecompute s fun e => e.get F.FOX_TRIGOUT_MIN_MIN = m ∧ e.fox = s.dev.fox := by
  refine runs_of_live 7 trigoutMinRecompute hu rfl ?_
  have fits : min (2 ^ 20 - 1) (trigoutMin s.dev) = m := by omega
  have shown : (s.dev.put F.FOX_TRIGOUT_MIN_MIN m).get F.FOX_TRIGOUT_MIN_MIN = m := by
    rw [Dev.get_put_same _ _ _ (by decide)]
    exact Nat.mod_eq_of_lt h
  simp only [trigoutMinRecompute, fits]
  split
  · exact ⟨(get_foxCode _ _ _ (by decide)).trans shown, by rw [foxCode, Dev.put_fox, Dev.put_fox]⟩
  · exact ⟨shown, Dev.put_fox _ _ _⟩

section
variable {d : Dev}

/-- 20.8 ns in units of 12.5 ps. -/
theorem extPath_units (n64 : d.ef R.STAG_SL_DIV = 0x40000000#32) (capture : isCapture d.mode = true)
    (locked : d.get F.STAG_STATUS_ON_BYCLK = 0) : (extPath d).units (divN (d.ef R.STAG_SL_DIV)) = 1664 := by
  rw [extPath, cPeriods_capture _ capture locked, n64]
  decide

/-- 24.0 ns in units of 12.5 ps. -/
theorem inputPath_units_quad (n64 : d.ef R.STAG_SL_DIV = 0x40000000#32) (capture : isCapture d.mode = true)
    (locked : d.get F.STAG_STATUS_ON_BYCLK = 0) (quad : d.arr = 0) :
    (inputPath d 0 0).units (divN (d.ef R.STAG_SL_DIV)) = 1920 := by
  simp only [inputPath, cPeriods_capture _ capture locked, n64, mode_ne_of_capture capture mSentry rfl, quad, if_false, if_true]
  decide

end

/-- Settles O30: each interval's end clears what it names, an edge near the end of a period extends it, and the least delay is the path of
the one source that is enabled. -/
theorem triggerIntervals : Obligations.TriggerIntervals :=
  ⟨⟨fun _ _ hu holds passed => gives_of_live 7 holdoffEnd hu rfl (holdoffEnd_passed holds passed),
    fun _ _ hu busy passed closed room => gives_of_live 7 busyEnd hu rfl (busyEnd_passed busy passed closed room),
    fun _ _ hu opened window passed => gives_of_live 7 seqWindowExpire hu rfl (seqWindowExpire_passed opened window passed)⟩,
   ⟨fun _ _ _ _ hu planned idle fresh => gives_of_live 7 trigoutEdge hu rfl (trigoutEdge_opens planned idle fresh),
    fun _ _ _ _ hu planned _ running near => runs_trigoutEdge_merges hu planned running near,
    fun _ hu active none => runs_trigoutActiveEnd hu active none⟩,
   ⟨fun _ hu n64 capture locked ext =>
      runs_trigoutMinRecompute hu ((trigoutMin_of_one (trigoutPaths_ext ext)).trans (extPath_units n64 capture locked)) (by decide),
    fun _ hu n64 capture locked quad sw =>
      runs_trigoutMinRecompute hu ((trigoutMin_of_one (trigoutPaths_sw sw)).trans (inputPath_units_quad n64 capture locked quad))
        (by decide)⟩⟩

end Sys2Proof.Machine
end

section
/-! SUPPORT. O32: a UART character bit by bit, the two block codes, and what a completed field shows, counts and queues. -/
namespace Sys2Proof.Machine

/-! ### A UART character (R157, R163) -/

/-- The decision of one more bit, behind what was found before it. -/
def uartTake (c : RxCfg) (s : UartRx × List SdecItem) (b : Bool) : UartRx × List SdecItem :=
  ((uartBit c b s.1).1, s.2 ++ (uartBit c b s.1).2)

/-- The low k bits of v as a line sends them, lowest first. -/
def bitsOnLine (v k : Nat) : List Bool := (List.range k).map fun i => decide (v / 2 ^ i % 2 = 1)

theorem bitsOnLine_succ (v k : Nat) : bitsOnLine v (k + 1) = bitsOnLine v k ++ [decide (v / 2 ^ k % 2 = 1)] := by
  simp only [bitsOnLine, List.range_succ, List.map_append, List.map_cons, List.map_nil]

/-- Whether a parity bit p after the data bits of v is wrong (Table 6.11). -/
def parityBad (c : RxCfg) (v : Nat) (p : Bool) : Bool :=
  decide ((((bitsOnLine v c.dataBits).filter id).length + p.toNat) % 2 ≠ (c.parity + 1) % 2)

/-- The place of the last bit before the stop bits. -/
def lastBeforeStop (c : RxCfg) : Nat := c.dataBits + if c.parity = 0 then 0 else 1

section
variable {c : RxCfg} {u : UartRx}

theorem uartBit_start (first : u.bit = 0) : uartBit c false u = ({ u with bit := u.bit + 1 }, []) := by
  simp only [uartBit, first, if_true, Bool.false_eq_true, if_false]

theorem uartBit_data (b : Bool) (begun : u.bit ≠ 0) (within : u.bit ≤ c.dataBits) :
    uartBit c b u = ({ u with bit := u.bit + 1, data := u.data + b.toNat * 2 ^ (u.bit - 1), ones := u.ones + b.toNat },
      if u.bit = c.dataBits then [.char (u.data + b.toNat * 2 ^ (u.bit - 1))] else []) := by
  simp only [uartBit, begun, within, if_true, if_false]

theorem uartBit_parity (b : Bool) (next : u.bit = c.dataBits + 1) (parity : c.parity ≠ 0) :
    uartBit c b u = ({ u with bit := u.bit + 1, ones := u.ones + b.toNat, perr := decide ((u.ones + b.toNat) % 2 ≠ (c.parity + 1) % 2) },
      if (u.ones + b.toNat) % 2 ≠ (c.parity + 1) % 2 then [.error 1] else []) := by
  simp only [uartBit, next, parity, Nat.add_one_ne_zero, Nat.not_succ_le_self, Nat.le_refl, if_true, if_false, decide_eq_true_eq]

/-- A stop bit that is not the last one. -/
theorem uartBit_stop_more (after : lastBeforeStop c < u.bit) (more : u.bit < lastBeforeStop c + c.stops) :
    uartBit c true u = ({ u with bit := u.bit + 1, ones := u.ones + 1 }, []) := by
  unfold lastBeforeStop at after more
  have begun : u.bit ≠ 0 := by omega
  have data : ¬ u.bit ≤ c.dataBits := by omega
  simp only [uartBit, begun, data, more, Nat.not_le.mpr after, Bool.not_true, Bool.false_eq_true, if_true, if_false]

/-- The last stop bit ends the frame, unless its parity was wrong. -/
theorem uartBit_stop_last (after : lastBeforeStop c < u.bit) (last : lastBeforeStop c + c.stops ≤ u.bit) :
    uartBit c true u = ({ since := u.since, ready := !u.perr }, if u.perr then [] else [.frameEnd]) := by
  unfold lastBeforeStop at after last
  have begun : u.bit ≠ 0 := by omega
  have data : ¬ u.bit ≤ c.dataBits := by omega
  simp only [uartBit, begun, data, Nat.not_le.mpr after, Nat.not_lt.mpr last, Bool.not_true, Bool.false_eq_true, if_false]

/-- The stop bits of a character. -/
theorem uartTake_stops (items : List SdecItem) (first : u.bit = lastBeforeStop c + 1) (stops : c.stops = 1 ∨ c.stops = 2) :
    (List.replicate c.stops true).foldl (uartTake c) (u, items) =
      ({ since := u.since, ready := !u.perr }, items ++ if u.perr then [] else [.frameEnd]) := by
  obtain one | two := stops
  · simp only [one, List.replicate_one, List.foldl_cons, List.foldl_nil, uartTake]
    rw [uartBit_stop_last (by omega) (by omega)]
  · have more : uartBit c true u = _ := uartBit_stop_more (by omega) (by omega)
    have last : uartBit c true { u with bit := u.bit + 1, ones := u.ones + 1 } = _ :=
      uartBit_stop_last (by simp only; omega) (by simp only; omega)
    simp only [two, List.replicate_succ, List.replicate_zero, List.foldl_cons, List.foldl_nil, uartTake, more, last, List.append_nil]

end

/-- One more bit of a number. -/
theorem mod_add_bit (v k : Nat) : v % 2 ^ k + (decide (v / 2 ^ k % 2 = 1)).toNat * 2 ^ k = v % 2 ^ (k + 1) := by
  rw [Nat.mod_pow_succ, Nat.mul_comm]
  obtain h | h := Nat.mod_two_eq_zero_or_one (v / 2 ^ k) <;> simp [h]

/-- The data bits gather in the character, first received bit lowest, and the last of them completes it. -/
theorem uartTake_data (c : RxCfg) (v t since k : Nat) (h : k ≤ c.dataBits) (hasData : 0 < c.dataBits) :
    (bitsOnLine v k).foldl (uartTake c) ({ since := since, start := some t, bit := 1 }, []) =
      ({ since := since, start := some t, bit := k + 1, data := v % 2 ^ k, ones := ((bitsOnLine v k).filter id).length },
        if k = c.dataBits then [.char (v % 2 ^ k)] else []) := by
  induction k with
  | zero => simp [bitsOnLine, Nat.mod_one, hasData.ne]
  | succ k ih =>
    have one (b : Bool) : ([b].filter id).length = b.toNat := by cases b <;> rfl
    rw [bitsOnLine_succ, List.foldl_append, ih (by omega), if_neg (by omega : k ≠ c.dataBits), List.foldl_cons, List.foldl_nil, uartTake,
      uartBit_data _ (by simp) h]
    simp only [Nat.add_one_sub_one, mod_add_bit, List.filter_append, List.length_append, one, List.nil_append]

/-- The bits of a character on the line: start bit, data, parity where there is one, stop bits. -/
def characterBits (c : RxCfg) (v : Nat) (p : Bool) : List Bool :=
  [false] ++ bitsOnLine v c.dataBits ++ (if c.parity = 0 then [] else [p]) ++ List.replicate c.stops true

/-- With the last data bit the character has completed. -/
theorem uartTake_character (c : RxCfg) (v t since : Nat) (hasData : 0 < c.dataBits) (fits : v < 2 ^ c.dataBits) :
    ([false] ++ bitsOnLine v c.dataBits).foldl (uartTake c) ({ since := since, start := some t }, []) =
      ({ since := since, start := some t, bit := c.dataBits + 1, data := v, ones := ((bitsOnLine v c.dataBits).filter id).length },
        [.char v]) := by
  have started : uartTake c ({ since := since, start := some t }, []) false = ({ since := since, start := some t, bit := 1 }, []) := by
    rw [uartTake, uartBit_start rfl]
    rfl
  rw [List.foldl_append, List.foldl_cons, List.foldl_nil, started, uartTake_data c v t since _ (Nat.le_refl _) hasData, if_pos rfl,
    Nat.mod_eq_of_lt fits]

/-- A whole character with good stop bits: it completes, then its frame ends, or its wrong parity bit is reported between. -/
theorem uartTake_characterBits (c : RxCfg) (v t since : Nat) (p : Bool) (hasData : 0 < c.dataBits) (fits : v < 2 ^ c.dataBits)
    (stops : c.stops = 1 ∨ c.stops = 2) :
    (characterBits c v p).foldl (uartTake c) ({ since := since, start := some t }, []) =
      if c.parity ≠ 0 ∧ parityBad c v p = true then ({ since := since }, [.char v, .error 1])
      else ({ since := since, ready := true }, [.char v, .frameEnd]) := by
  rw [characterBits, List.foldl_append, List.foldl_append, uartTake_character c v t since hasData fits]
  by_cases none : c.parity = 0
  · rw [if_pos none, List.foldl_nil, uartTake_stops _ (by simp [lastBeforeStop, none]) stops]
    simp [none]
  · rw [if_neg none, List.foldl_cons, List.foldl_nil, uartTake, uartBit_parity p rfl none,
      uartTake_stops _ (by simp [lastBeforeStop, none]) stops]
    cases bad : parityBad c v p
    · have right : ¬ (((bitsOnLine v c.dataBits).filter id).length + p.toNat) % 2 ≠ (c.parity + 1) % 2 := of_decide_eq_false bad
      simp [right]
    · have wrong : (((bitsOnLine v c.dataBits).filter id).length + p.toNat) % 2 ≠ (c.parity + 1) % 2 := of_decide_eq_true bad
      simp [wrong, none]

/-! ### 8b/10b groups of data bytes (R160) -/

/-- A search by a key that only one element below n has finds that element. -/
theorem find_range_of_inj {α : Type} [DecidableEq α] {n x : Nat} (key : Nat → α) (hx : x < n)
    (inj : ∀ y < n, key y = key x → y = x) : (List.range n).find? (fun y => key y = key x) = some x := by
  cases found : (List.range n).find? (fun y => key y = key x) with
  | none =>
    have := List.find?_eq_none.mp found x (List.mem_range.mpr hx)
    simp at this
  | some y =>
    have same : key y = key x := by simpa using List.find?_some found
    rw [inj y (List.mem_range.mp (List.mem_of_find?_eq_some found)) same]

/-- In one disparity's column the low five bits of a byte have a six-bit code of their own. -/
theorem subCode_inj : ∀ rd : Bool, ∀ x < 32, ∀ y < 32, subCode 6 (code6.getD y 0) rd = subCode 6 (code6.getD x 0) rd → y = x := by
  decide +kernel

/-- Of the bytes that share their low five bits each has a group of its own. -/
theorem dataGroup_inj : ∀ rd : Bool, ∀ x < 32, ∀ z < 8, ∀ y < 8, dataGroup (x + 32 * y) rd = dataGroup (x + 32 * z) rd → y = z := by
  decide +kernel

/-- The group of a byte begins with the six-bit code of its low five bits. -/
theorem dataGroup_six : ∀ rd : Bool, ∀ v < 256, dataGroup v rd / 16 = subCode 6 (code6.getD (v % 32) 0) rd := by decide +kernel

/-- No byte has the group of a K character. -/
theorem dataGroup_no_k : ∀ rd : Bool, ∀ v < 256, kCodes.find? (fun p => (if rd then 1023 - p.2 else p.2) = dataGroup v rd) = none := by
  decide +kernel

theorem decodeGroup_dataGroup (v : Nat) (rd : Bool) (hv : v < 256) : decodeGroup (dataGroup v rd) rd = some v := by
  have low : v % 32 < 32 := Nat.mod_lt _ (by decide)
  have high : v / 32 < 8 := by omega
  have six : (List.range 32).find? (fun x => subCode 6 (code6.getD x 0) rd = dataGroup v rd / 16) = some (v % 32) := by
    rw [dataGroup_six rd v hv]
    exact find_range_of_inj (fun x => subCode 6 (code6.getD x 0) rd) low (subCode_inj rd _ low)
  have byte : v % 32 + 32 * (v / 32) = v := Nat.mod_add_div v 32
  have four : (List.range 8).find? (fun y => dataGroup (v % 32 + 32 * y) rd = dataGroup v rd) = some (v / 32) := by
    have := find_range_of_inj (fun y => dataGroup (v % 32 + 32 * y) rd) high (dataGroup_inj rd _ low _ high)
    simpa only [byte] using this
  simp only [decodeGroup, dataGroup_no_k rd v hv, six, four, Option.map_some, byte]

/-! ### The 64b/66b descrambler (R160) -/

section
variable {c : RxCfg} {y : BlkRx}

theorem blkEnd_hist (y : BlkRx) : (blkEnd y).1.hist = y.hist := by
  unfold blkEnd
  dsimp only
  repeat' split
  all_goals rfl

/-- A payload bit enters the descrambler as it is on the line. -/
theorem blkBit_hist (b : Bool) (payload : 2 ≤ y.n) : (blkBit c b y).1.hist = y.hist <<< 1 ||| BitVec.ofNat 58 b.toNat := by
  have n0 : y.n ≠ 0 := by omega
  have n1 : y.n ≠ 1 := by omega
  simp only [blkBit, n0, n1, if_false, apply_ite Prod.fst, apply_ite BlkRx.hist, blkEnd_hist, ite_self]

/-- Before the last bit of a block the next one is a payload bit too. -/
theorem blkBit_n (b : Bool) (payload : 2 ≤ y.n) (more : y.n < 65) : (blkBit c b y).1.n = y.n + 1 := by
  have n0 : y.n ≠ 0 := by omega
  have n1 : y.n ≠ 1 := by omega
  have n65 : y.n - 2 ≠ 63 := by omega
  simp only [blkBit, n0, n1, n65, if_false, apply_ite Prod.fst, apply_ite BlkRx.n, ite_self]

end

/-- The descrambler's content after bits of the line, newest bit lowest. -/
def histAfter (h : BitVec 58) (l : List Bool) : BitVec 58 := l.foldl (fun h b => h <<< 1 ||| BitVec.ofNat 58 b.toNat) h

theorem hist_blkBits (c : RxCfg) (l : List Bool) (y : BlkRx) (payload : 2 ≤ y.n) (within : y.n + l.length ≤ 66) :
    (l.foldl (fun s b => (blkBit c b s).1) y).hist = histAfter y.hist l := by
  induction l generalizing y with
  | nil => rfl
  | cons b bs ih =>
    simp only [List.length_cons] at within
    rw [List.foldl_cons, histAfter, List.foldl_cons, ← blkBit_hist (c := c) b payload]
    cases bs with
    | nil => rfl
    | cons b' bs =>
      simp only [List.length_cons] at within ih
      have n := blkBit_n (c := c) b payload (by omega)
      exact ih _ (by omega) (by omega)

/-- Two contents that agree in their lowest k bits agree in as many more as bits have come since. -/
theorem histAfter_agree (l : List Bool) (g h : BitVec 58) (k : Nat) (agree : ∀ i < k, g.getLsbD i = h.getLsbD i) :
    ∀ i < k + l.length, (histAfter g l).getLsbD i = (histAfter h l).getLsbD i := by
  induction l generalizing g h k with
  | nil => exact agree
  | cons b bs ih =>
    have shifted : ∀ i < k + 1, (g <<< 1 ||| BitVec.ofNat 58 b.toNat).getLsbD i = (h <<< 1 ||| BitVec.ofNat 58 b.toNat).getLsbD i := by
      intro i hi
      cases i with
      | zero => simp
      | succ i => simp [agree i (by omega)]
    intro i hi
    exact ih _ _ (k + 1) shifted i (by simp only [List.length_cons] at hi; omega)

/-- After 58 bits it holds nothing of what it held before. -/
theorem histAfter_forgets (l : List Bool) (g h : BitVec 58) (full : 58 ≤ l.length) : histAfter g l = histAfter h l :=
  BitVec.eq_of_getLsbD_eq fun i hi => histAfter_agree l g h 0 (by simp) i (by omega)

/-! ### Fields that complete (R161, R162, R164) -/

/-- The four words of LAST_FIELD. -/
def showField (n : Fin 4) (x : Nat) (d : Dev) : Dev :=
  (List.range 4).foldl (fun d j => d.wr (R.SDEC_d_LAST_FIELD n j) (BitVec.ofNat 32 (x / 2 ^ (32 * j)))) d

section
variable {n : Fin 4} {x : Nat} {d : Dev}

/-- A register that is no word of LAST_FIELD reads as before. -/
theorem rd_showField_ne (a : Nat) (h : ∀ j < 4, a ≠ R.SDEC_d_LAST_FIELD n j) : (showField n x d).rd a = d.rd a :=
  List.foldlRecOn _ _ (motive := fun e : Dev => e.rd a = d.rd a) rfl fun (e : Dev) he j hj => by
    rw [Dev.rd_wr_ne _ _ _ _ (h j (List.mem_range.mp hj)), he]

theorem rd_showField (j : Nat) (hj : j < 4) :
    (showField n x d).rd (R.SDEC_d_LAST_FIELD n j) = BitVec.ofNat 32 (x / 2 ^ (32 * j)) := by
  have shown (m : Nat) (hm : j < m) : ((List.range m).foldl (fun (d : Dev) i =>
      d.wr (R.SDEC_d_LAST_FIELD n i) (BitVec.ofNat 32 (x / 2 ^ (32 * i)))) d).rd (R.SDEC_d_LAST_FIELD n j) =
        BitVec.ofNat 32 (x / 2 ^ (32 * j)) := by
    induction m with
    | zero => omega
    | succ m ih =>
      rw [List.range_succ, List.foldl_append, List.foldl_cons, List.foldl_nil]
      by_cases last : j = m
      · rw [last, Dev.rd_wr_same]
      · rw [Dev.rd_wr_ne _ _ _ _ (by simp only [R.SDEC_d_LAST_FIELD]; omega), ih (by omega)]
  exact shown 4 hj

/-- Showing a field changes no other component. -/
theorem showField_eq (n : Fin 4) (x : Nat) (d : Dev) : ∃ regs, showField n x d = { d with regs } :=
  List.foldlRecOn _ _ (motive := fun e : Dev => ∃ regs, e = { d with regs }) ⟨d.regs, rfl⟩ fun e ⟨regs, he⟩ j _ => by
    subst he
    exact ⟨_, rfl⟩

theorem fold_showField (n : Fin 4) (x : Nat) (d : Dev) :
    (List.range 4).foldl (fun d j => d.wr (R.SDEC_d_LAST_FIELD n j) (BitVec.ofNat 32 (x / 2 ^ (32 * j)))) d = showField n x d := rfl

theorem cfg_showField (f : Field) : (showField n x d).cfg f = d.cfg f := by
  obtain ⟨regs, shown⟩ := showField_eq n x d
  rw [shown]
  rfl

theorem fox_showField : (showField n x d).fox = d.fox := by
  obtain ⟨regs, shown⟩ := showField_eq n x d
  rw [shown]

theorem sdecProto_showField (m : Fin 4) : sdecProto (showField n x d) m = sdecProto d m := cfg_showField _
theorem sdecClass_showField (m : Fin 4) : sdecClass (showField n x d) m = sdecClass d m := cfg_showField _
theorem sdecClass_count (a k : Nat) (m : Fin 4) : sdecClass (d.count a k) m = sdecClass d m := rfl

theorem sdecMatches_showField (m : Fin 4) (y : Nat) : sdecMatches (showField n x d) m y = sdecMatches d m y := by
  obtain ⟨regs, shown⟩ := showField_eq n x d
  rw [shown]
  rfl

/-- The decoder is selected, and SERIAL is an enabled source (R164). -/
abbrev SerialSelected (d : Dev) (n : Fin 4) : Prop := bitsOf (d.cfg F.FOX_SER_MATCH) n n = 1 ∧ bitsOf (d.cfg F.FOX_CTRL_SRC_EN) 2 2 = 1

/-- The candidate that a match of decoder n becomes. -/
def serialCand (d : Dev) (n : Fin 4) (t : Instant) : Cand :=
  ⟨srcSerial, t, false, decide (sdecClass d n = 0), if sdecClass d n = 0 then d.cfg (F.SDEC_d_CFG_LINE0 n) else 4⟩

/-- A field that the protocol defines is shown; a match is counted and, with the decoder selected, becomes a candidate. -/
theorem fieldComplete_eq (t : Instant) (defined : (fieldLen (sdecProto d n) (sdecField d n)).isSome = true) :
    fieldComplete n t x d =
      if sdecMatches d n x = true then
        if SerialSelected d n then queueCand ((showField n x d).count (R.SDEC_d_MATCH_CNT n)) (serialCand d n t)
        else (showField n x d).count (R.SDEC_d_MATCH_CNT n)
      else showField n x d := by
  have named : (fieldLen (sdecProto d n) (d.cfg (F.SDEC_d_MATCH_FIELD n))).isNone = false :=
    Option.isNone_eq_false_iff.mpr defined
  simp only [fieldComplete, fold_showField, sdecProto_showField, sdecClass_showField, sdecMatches_showField, cfg_showField, Dev.cfg_count,
    sdecClass_count, named, Bool.false_or, Bool.and_eq_true, decide_eq_true_eq, Bool.not_eq_true', SerialSelected, serialCand]
  cases sdecMatches d n x <;> rfl

theorem matchCnt_ne_lastField (n : Fin 4) : ∀ j < 4, R.SDEC_d_MATCH_CNT n ≠ R.SDEC_d_LAST_FIELD n j := by
  intro j hj
  simp only [R.SDEC_d_MATCH_CNT, R.SDEC_d_LAST_FIELD]
  omega

section
variable (t : Instant) (defined : (fieldLen (sdecProto d n) (sdecField d n)).isSome = true)
include defined

/-- Registers read as the field shown and the match counted leave them; a candidate is none of them. -/
theorem rd_fieldComplete (a : Nat) : (fieldComplete n t x d).rd a =
    if sdecMatches d n x = true then ((showField n x d).count (R.SDEC_d_MATCH_CNT n)).rd a else (showField n x d).rd a := by
  rw [fieldComplete_eq t defined]
  split
  · split <;> rfl
  · rfl

theorem rd_fieldComplete_ne (a : Nat) (h : a ≠ R.SDEC_d_MATCH_CNT n) : (fieldComplete n t x d).rd a = (showField n x d).rd a := by
  rw [rd_fieldComplete t defined, Dev.rd_count_ne _ _ _ _ h, ite_self]

theorem matchCnt_fieldComplete : ((fieldComplete n t x d).rd (R.SDEC_d_MATCH_CNT n)).toNat =
    if sdecMatches d n x = true then min ((d.rd (R.SDEC_d_MATCH_CNT n)).toNat + 1) 0xFFFFFFFF
    else (d.rd (R.SDEC_d_MATCH_CNT n)).toNat := by
  have before := rd_showField_ne (x := x) (d := d) _ (matchCnt_ne_lastField n)
  rw [rd_fieldComplete t defined]
  split
  · rw [Dev.rd_count_same, before]
  · rw [before]

theorem cands_fieldComplete : (fieldComplete n t x d).fox.cands =
    if sdecMatches d n x = true ∧ SerialSelected d n then d.fox.cands ++ [serialCand d n t] else d.fox.cands := by
  have queued (c : Cand) : (queueCand ((showField n x d).count (R.SDEC_d_MATCH_CNT n)) c).fox.cands = d.fox.cands ++ [c] := by
    rw [← fox_showField (n := n) (x := x) (d := d)]
    rfl
  rw [fieldComplete_eq t defined]
  by_cases matched : sdecMatches d n x = true
  · by_cases selected : SerialSelected d n
    · rw [if_pos matched, if_pos selected, if_pos ⟨matched, selected⟩, queued]
    · rw [if_pos matched, if_neg selected, if_neg fun h => selected h.2, Dev.count_fox, fox_showField]
  · rw [if_neg matched, if_neg fun h => matched h.1, fox_showField]

end

/-! ### Table 6.5 -/

/-- EQ and IN_RANGE compare the words under the mask. -/
theorem sdecMatches_eq (x : BitVec 128) (eq : d.cfg (F.SDEC_d_MATCH_REL n) = 1) :
    sdecMatches d n x.toNat = true ↔
      x &&& BitVec.ofNat 128 (words128 d (R.SDEC_d_MASK n 0)) =
        BitVec.ofNat 128 (words128 d (R.SDEC_d_VAL_A n 0)) &&& BitVec.ofNat 128 (words128 d (R.SDEC_d_MASK n 0)) := by
  simp only [sdecMatches, eq, BitVec.ofNat_toNat, BitVec.setWidth_eq, beq_iff_eq, BitVec.toNat_inj]

theorem sdecMatches_inRange (x : BitVec 128) (inRange : d.cfg (F.SDEC_d_MATCH_REL n) = 5) :
    sdecMatches d n x.toNat = true ↔
      BitVec.ofNat 128 (words128 d (R.SDEC_d_VAL_A n 0)) &&& BitVec.ofNat 128 (words128 d (R.SDEC_d_MASK n 0)) ≤
          x &&& BitVec.ofNat 128 (words128 d (R.SDEC_d_MASK n 0)) ∧
        x &&& BitVec.ofNat 128 (words128 d (R.SDEC_d_MASK n 0)) ≤
          BitVec.ofNat 128 (words128 d (R.SDEC_d_VAL_B n 0)) &&& BitVec.ofNat 128 (words128 d (R.SDEC_d_MASK n 0)) := by
  simp only [sdecMatches, inRange, BitVec.ofNat_toNat, BitVec.setWidth_eq, Bool.and_eq_true, decide_eq_true_eq, BitVec.le_def]

end

/-- What a line with a whole character gives, by its parity bit. -/
theorem uart_character (c : RxCfg) (v t since : Nat) (p : Bool) (hasData : 0 < c.dataBits) (fits : v < 2 ^ c.dataBits)
    (stops : c.stops = 1 ∨ c.stops = 2) :
    (c.parity = 0 ∨ (((bitsOnLine v c.dataBits).filter id).length + p.toNat) % 2 = (c.parity + 1) % 2 →
      (characterBits c v p).foldl (uartTake c) ({ since := since, start := some t }, []) =
        ({ since := since, ready := true }, [.char v, .frameEnd])) ∧
    (¬ (c.parity = 0 ∨ (((bitsOnLine v c.dataBits).filter id).length + p.toNat) % 2 = (c.parity + 1) % 2) →
      ((characterBits c v p).foldl (uartTake c) ({ since := since, start := some t }, [])).2 = [.char v, .error 1]) := by
  rw [uartTake_characterBits c v t since p hasData fits stops]
  constructor
  · intro good
    rw [if_neg]
    rintro ⟨parity, bad⟩
    exact of_decide_eq_true bad (good.resolve_left parity)
  · intro wrong
    rw [not_or] at wrong
    rw [if_pos ⟨wrong.1, decide_eq_true wrong.2⟩]

/-- Settles O32: a character bit by bit, data bytes through the 8b/10b columns, the descrambler's 58 bits pushed out by a payload's 64,
and what a completed field shows, counts and queues. -/
theorem serialFields : Obligations.SerialFields :=
  ⟨fun c v t since p least _ _ one two fits => uart_character c v t since p (by omega) fits (by omega),
   fun v rd hv => decodeGroup_dataGroup v rd hv,
   fun c x y l hx hy hl => by
    rw [hist_blkBits c l x hx.ge (by omega), hist_blkBits c l y hy.ge (by omega)]
    exact histAfter_forgets l _ _ (by omega),
   fun d n t x defined => ⟨by
      intro j hj
      have four : j < 4 := by simp only [List.mem_cons, List.not_mem_nil, or_false] at hj; omega
      rw [rd_fieldComplete_ne t defined _ (matchCnt_ne_lastField n j four).symm, rd_showField j four], by
      intro a ha
      simp only [List.mem_cons, List.not_mem_nil, or_false, not_or] at ha
      obtain ⟨w0, w1, w2, w3, cnt⟩ := ha
      rw [rd_fieldComplete_ne t defined _ cnt]
      refine rd_showField_ne a fun j hj => ?_
      interval_cases j <;> assumption,
    matchCnt_fieldComplete t defined, cands_fieldComplete t defined⟩,
   fun d n x => ⟨sdecMatches_eq x, sdecMatches_inRange x⟩⟩

end Sys2Proof.Machine
end

section
/-! SUPPORT. O24: a changed N is taken within a span of vectors, with a request of FOX_ARM waiting for the span to end. -/
namespace Sys2Proof.Machine

/-! ### A table's header where memory is the same -/

section
variable {d e : Dev}

theorem KeepsMemory.loadBytes (h : KeepsMemory d e) (a n : Nat) : e.loadBytes a n = d.loadBytes a n := by
  induction n generalizing a with
  | zero => rfl
  | succ n ih => rw [Dev.loadBytes, Dev.loadBytes, h.byte, ih]

theorem KeepsMemory.load (h : KeepsMemory d e) (a n : Nat) : e.load a n = d.load a n := by rw [Dev.load, Dev.load, h.loadBytes]

theorem KeepsMemory.tableHeaderOk (h : KeepsMemory d e) (ty off : Nat) : tableHeaderOk e ty off = tableHeaderOk d ty off := by
  simp only [Machine.tableHeaderOk, tableLength, tableCrcOf, h.load, h.loadBytes]

end

/-! ### The state -/

/-- As in `lossArms` a span is in progress in SINGLE, and an ARM written meanwhile waits for its end; the sample clock is locked, and a
change of N by 2^−24 is committed and waits for the sample loop. -/
def retuneArms : Dev :=
  { lossArms with cfgc := { parts := [⟨.stagSl, R.STAG_SL_DIV, 0x40000001#32⟩], waits := [⟨1, [.stagSl], false⟩] } }

/-- N is taken, which ends the span (R110). -/
def retuned : Dev := commitApplied .stagSl retuneArms

/-- The ARM is about to act. -/
def retuneArming : Dev := retuned.setFox { retuned.fox with due := [] }

/-- The arm reaches CAP. -/
def retuneAtCap : Dev := redArm (sealArm (setArmed true (foxClear retuneArming)))

/-- CAP comes to the plan, with four inputs to store. -/
def retuneAtPlan : Dev := armAtPlan (armReleased retuneAtCap)

/-- The plan's entry is written back. -/
def retuneChecked : Dev := fixTableCrc (fileClamps 0 (writeEntry retuneAtPlan 0 0 clampedEntry) 0 [strideClamp]) 0

/-- Up to here memory is as it is at a loss of lock. -/
theorem retuneAtPlan_memory : KeepsMemory lossAtPlan retuneAtPlan := ⟨by decide +kernel, by decide +kernel⟩

theorem retuneAtPlan_check : checkPlan 0 retuneAtPlan 4 retuneAtPlan.mode 0 0 = (retuneChecked, 1, true) := by
  have single : retuneAtPlan.mode = mSingle := by decide +kernel
  rw [single]
  exact checkPlan_clamped ((retuneAtPlan_memory.tableHeaderOk _ _).trans lossAtPlan_header) (by decide +kernel) (by decide +kernel)

/-- After the check nothing writes to memory. -/
theorem retuneChecked_keeps : KeepsMemory retuneChecked (settleDue retuned) := by
  have four : (armInputs (armReleased retuneAtCap)).length = 4 := by decide +kernel
  have plan : KeepsMemory retuneChecked (capArm retuneAtCap) :=
    (armPlan_keeps (by decide +kernel) retuneAtPlan_check (by decide +kernel)).trans (four ▸ capArm_keeps retuneAtCap)
  have armed : KeepsMemory (capArm retuneAtCap) (arm retuneArming) :=
    arm_keeps (by decide +kernel) (by decide +kernel) (by decide +kernel) (by decide +kernel) (by decide +kernel) (by decide +kernel)
  rw [settleDue_arm (by decide +kernel) (by decide +kernel)]
  exact (plan.trans armed).trans (.armFull _)

theorem retuneChecked_stride : retuneChecked.byte strideByte = 1 := by
  rw [retuneChecked, byte_clamped _ _ _ _ _ _ _ (by decide), writeEntry, strideByte, Dev.byte_storeBytes_mem _ _ _ _ (by decide)]
  decide

/-- Refutes O24: its second clause has memory unchanged when N is taken, but an ARM that waited for the span to end acts at once, as the
vector order begins anew, and CAP's check of the plan then writes a clamped entry back into table SRAM (R183). -/
theorem not_tickAndDivider : ¬ Obligations.TickAndDivider := by
  rintro ⟨-, taken⟩
  have up : retuneArms.Up := ⟨rfl, rfl, rfl, rfl, rfl⟩
  have applied : exec .slDivApply ⟨retuneArms, []⟩ = .next ⟨settleDue retuned, []⟩ := by
    change State.act (live 4 (unheld 4 (settleDue ∘ commitApplied .stagSl))) _ = _
    rw [State.act, live_up up, unheld_up up, Function.comp_apply]
    rfl
  obtain ⟨-, -, -, -, -, -, mem⟩ := (taken ⟨retuneArms, []⟩ 0x40000001#32 1 up (by decide +kernel) (by decide +kernel) rfl rfl
    (by decide +kernel) (by decide +kernel) (by decide +kernel) (by decide +kernel)).of_exec applied
  have gen : (settleDue retuned).gen = retuneArms.gen := by
    rw [retuneChecked_keeps.gen, retuneChecked, gen_clamped]
    decide +kernel
  have kept : KeepsMemory retuneArms (settleDue retuned) := ⟨mem, gen⟩
  have before : retuneArms.byte strideByte = 0 := by decide +kernel
  have after := (retuneChecked_keeps.byte strideByte).trans retuneChecked_stride
  exact absurd (before.symm.trans ((kept.byte strideByte).symm.trans after)) (by decide)

end Sys2Proof.Machine
end

section
/-! SUPPORT. O33: how records and stream blocks close, and how CAP goes on. -/
namespace Sys2Proof.Machine

/-! ### What sealing, trims and RED leave alone of CAP -/

/-- From `d` to `e` memory stays as it is, and so does CAP but for the number from which pretrigger fill counts (R143). -/
structure KeepsUnits (d e : Dev) : Prop where
  mem : e.mem = d.mem
  cap : { e.cap with fillFrom := d.cap.fillFrom } = d.cap

namespace KeepsUnits
variable {d e a b : Dev}

theorem refl (d : Dev) : KeepsUnits d d := ⟨rfl, rfl⟩
theorem trans (h : KeepsUnits d e) (k : KeepsUnits e a) : KeepsUnits d a :=
  ⟨k.mem.trans h.mem, (congrArg (fun c : Cap => { c with fillFrom := d.cap.fillFrom }) k.cap).trans h.cap⟩

theorem unit (h : KeepsUnits d e) : e.cap.unit = d.cap.unit := (congrArg Cap.unit h.cap :)
theorem moving (h : KeepsUnits d e) : e.cap.moving = d.cap.moving := (congrArg Cap.moving h.cap :)
theorem records (h : KeepsUnits d e) : e.cap.records = d.cap.records := (congrArg Cap.records h.cap :)
theorem blocks (h : KeepsUnits d e) : e.cap.blocks = d.cap.blocks := (congrArg Cap.blocks h.cap :)

theorem wr (h : KeepsUnits d e) (a : Nat) (v : Word) : KeepsUnits d (e.wr a v) := ⟨h.mem, h.cap⟩
theorem wr64 (h : KeepsUnits d e) (a v : Nat) : KeepsUnits d (e.wr64 a v) := ⟨h.mem, h.cap⟩
theorem put (h : KeepsUnits d e) (f : Field) (x : Nat) : KeepsUnits d (e.put f x) := ⟨h.mem, h.cap⟩
theorem putB (h : KeepsUnits d e) (f : Field) (x : Bool) : KeepsUnits d (e.putB f x) := ⟨h.mem, h.cap⟩
theorem count (h : KeepsUnits d e) (a n : Nat) : KeepsUnits d (e.count a n) := ⟨h.mem, h.cap⟩
theorem efw (h : KeepsUnits d e) (a : Nat) (v : Word) : KeepsUnits d (e.efw a v) := ⟨h.mem, h.cap⟩
theorem post (h : KeepsUnits d e) (i : Island) (num sub arg : Nat) (ts : Option TS) : KeepsUnits d (e.post i num sub arg ts) :=
  ⟨h.mem, h.cap⟩
theorem setCfgc (h : KeepsUnits d e) (cfgc : Cfgc) : KeepsUnits d { e with cfgc } := ⟨h.mem, h.cap⟩
theorem setConv (h : KeepsUnits d e) (conv : Conv) : KeepsUnits d { e with conv } := ⟨h.mem, h.cap⟩
theorem setCal (h : KeepsUnits d e) (cal : Cal) : KeepsUnits d { e with cal } := ⟨h.mem, h.cap⟩
theorem setSealing (h : KeepsUnits d e) (sealing : Seal) : KeepsUnits d { e with sealing } := ⟨h.mem, h.cap⟩
theorem setRed (h : KeepsUnits d e) (p : Fin 4) (x : RedPipe) : KeepsUnits d (e.setRed p x) := ⟨h.mem, h.cap⟩
theorem setFillFrom (h : KeepsUnits d e) (fillFrom : Nat) : KeepsUnits d { e with cap := { e.cap with fillFrom } } := ⟨h.mem, h.cap⟩

theorem ite (p : Prop) [Decidable p] (ha : KeepsUnits d a) (hb : KeepsUnits d b) : KeepsUnits d (if p then a else b) := by
  split <;> assumption

theorem ite_fst {β : Type} {x y : Dev × β} (p : Prop) [Decidable p] (hx : KeepsUnits d x.1) (hy : KeepsUnits d y.1) :
    KeepsUnits d (if p then x else y).1 := by
  split <;> assumption

theorem foldl {α : Type} {f : Dev → α → Dev} (h : ∀ e x, KeepsUnits e (f e x)) (l : List α) (d : Dev) : KeepsUnits d (l.foldl f d) :=
  List.foldlRecOn l f (motive := KeepsUnits d) (refl d) fun _ k x _ => k.trans (h _ x)

theorem showLevel (h : KeepsUnits d e) : KeepsUnits d (showLevel e) := (h.put _ _).put _ _

/-! #### Sealing -/

theorem armEnds (h : KeepsUnits d e) : KeepsUnits d (armEnds e) := h.setSealing _

theorem takeLeaf (h : KeepsUnits d e) : KeepsUnits d (takeLeaf e).1 := .ite_fst _ ((h.setSealing _).put _ _) h

theorem countSkip (h : KeepsUnits d e) (leaf : Nat) : KeepsUnits d (countSkip e leaf) :=
  .ite _ (h.count _ 1) (((h.count _ 1).setSealing _).post _ _ _ _ _)

theorem queueLeaf (h : KeepsUnits d e) (l : Leaf) : KeepsUnits d (queueLeaf e l) := by
  have shown (x : Seal) : KeepsUnits d (showPend { e with sealing := x }) := (h.setSealing x).put _ _
  exact .ite _ (((shown _).put _ _).countSkip _) (shown _)

/-! #### Trims take effect (R81) -/

theorem takeWords (h : KeepsUnits d e) (l : List CfgWord) : KeepsUnits d (takeWords e l) := by
  induction l generalizing e with
  | nil => exact h
  | cons w ws ih => exact ih (h.efw _ _)

theorem announceApplied (h : KeepsUnits d e) (l : List CommitWait) : KeepsUnits d (announceApplied e l) := by
  induction l generalizing e with
  | nil => exact h
  | cons w ws ih => exact ih (.ite _ ((h.wr _ _).post _ _ _ _ _) h)

theorem applyUnit (h : KeepsUnits d e) (u : CfgUnit) : KeepsUnits d (applyUnit e u) :=
  ((((h.setCfgc _).takeWords _).announceApplied _).setCfgc _).putB _ _

theorem putLive (h : KeepsUnits d e) (k : Nat) (bs : List Byte) : KeepsUnits d (putLive e k bs) := by
  induction bs generalizing e k with
  | nil => exact h
  | cons b bs ih => exact ih (h.setCal _) (k + 1)

theorem followRetire (h : KeepsUnits d e) (say : Bool) (k : Nat) : KeepsUnits d (followRetire say e k) :=
  .ite _ h (.ite _ ((h.put _ _).post _ _ _ _ _) (h.put _ _))

theorem takeNextSet (h : KeepsUnits d e) : KeepsUnits d (takeNextSet e) := by
  unfold Machine.takeNextSet
  split
  · exact h
  · next set bytes _ =>
    have live := ((h.setCal { e.cal with nextSet := none }).putLive (calSetBase set) bytes).put F.CAL_STATUS_SET_VALID
    exact (live _).trans (foldl (fun e k => (refl e).followRetire true k) _ _)

theorem applyProposal (h : KeepsUnits d e) (m : Nat) (named : List Nat) (p : TrimProp) : KeepsUnits d (applyProposal m named e p) := by
  have gain (q : Prop) [Decidable q] (k : Nat) (w : Word) := ite q h (h.efw k w)
  exact .ite _ (gain _ _ _) ((gain _ _ _).efw _ _)

theorem doSwap (h : KeepsUnits d e) (x : Swap) : KeepsUnits d (doSwap e x) := by
  have serve {f : Dev} (k : KeepsUnits d f) (a v : Nat) (w : Word) : KeepsUnits d
      ((((f.wr a w).efw a w).put (F.ILV_b_SPARE_ACTIVE x.bank.val) v).post .c evSpareSwap x.bank.val v) :=
    (((k.wr a w).efw a w).put _ _).post _ _ _ _ _
  exact .ite _ (.ite _ (h.setConv _) (serve (h.setConv _) _ _ _)) (.ite _ (serve (((h.setConv _).efw _ _).efw _ _) _ _ _) h)

theorem doSwaps (h : KeepsUnits d e) (l : List Swap) : KeepsUnits d (doSwaps e l) := by
  induction l generalizing e with
  | nil => exact h
  | cons x xs ih => exact ih (h.doSwap x)

theorem applyTrims (d : Dev) (ts : Int) : KeepsUnits d (applyTrims d ts).1 := by
  have parts := ite (hasPart d .trims) ((refl d).applyUnit .trims) (refl d)
  have restored (l : List (Nat × Word)) :=
    (parts.trans (foldl (f := fun d w => (d.wr w.1 w.2).efw w.1 w.2) (fun e w => ((refl e).wr _ _).efw _ _) l _)).takeNextSet
  have proposed (l : List (Nat × Word)) (ps : List TrimProp) (named : List Nat) := (restored l).trans
    (foldl (f := Machine.applyProposal (d.cfg F.ILV_CTRL_MAXSTEP) named) (fun e p => (refl e).applyProposal _ _ p) ps _)
  have swapped (l : List (Nat × Word)) (ps : List TrimProp) (named : List Nat) (x : Conv) (swaps : List Swap) :=
    ((proposed l ps named).setConv x).doSwaps swaps
  exact .ite_fst _ (swapped _ _ _ _ _) (((((swapped _ _ _ _ _).setConv _).setFillFrom _).setConv _).post _ _ _ _ _)

theorem boundaryTrims (h : KeepsUnits d e) : KeepsUnits d (boundaryTrims e).1 :=
  .ite_fst _ (h.trans (applyTrims _ _)) h

/-! #### RED's live pipes restart (R217) -/

theorem showLoss (h : KeepsUnits d e) (p : Fin 4) (bs : List Byte) : KeepsUnits d (showLoss e p bs) :=
  h.trans (foldl (fun e _ => (refl e).wr _ _) _ _)

theorem finishBlock (h : KeepsUnits d e) (flags : Nat) (p : Fin 4) : KeepsUnits d (finishBlock flags p e) := by
  cases outs : blockOuts e p with
  | nil => simpa only [Machine.finishBlock, outs] using h
  | cons o os =>
    simp only [Machine.finishBlock, outs]
    have shown (bs : List Byte) (x : RedPipe) := (h.showLoss p bs).setRed p x
    have lost (bs : List Byte) (x : RedPipe) (v : Nat) := (shown bs x).wr64 (R.RED_p_LOST_LO p) v
    exact .ite _ (.ite _ (lost _ _ _) (((lost _ _ _).put _ _).post _ _ _ _ _)) (shown _ _)

theorem restartPipe (h : KeepsUnits d e) (flags : Nat) (p : Fin 4) : KeepsUnits d (restartPipe flags none p e) :=
  ((ite _ (h.finishBlock 0 p) h).finishBlock flags p).setRed _ _

theorem restartLive (h : KeepsUnits d e) (banks flags : Nat) : KeepsUnits d (restartLive banks flags none e) := by
  refine h.trans (foldl (fun e p => ?_) pipes e)
  split
  · exact .ite _ ((refl e).restartPipe flags p) (refl e)
  · exact refl e

end KeepsUnits

/-! ### A unit closes (R176) -/

/-- `w` is the unit `u`, closed with so many samples, a further loss and a last good sample: its kind, its number and its places stay. -/
structure ClosedAs (samples lost : Nat) (good : Option Nat) (u w : CapUnit) : Prop where
  closed : w.closed = true
  samples : w.samples = samples
  lost : w.lost = u.lost + lost
  lastGood : w.lastGood = good
  kind : w.kind = u.kind
  index : w.index = u.index
  start : w.start = u.start
  bodyAddr : w.bodyAddr = u.bodyAddr
  hdrAddr : w.hdrAddr = u.hdrAddr
  keep : w.keep = u.keep
  hold : w.hold = u.hold

/-- What the samples of a unit that closes decide are its flags and its steps, nothing else (R187, R188). -/
theorem settleUnit_closedAs (d : Dev) (u : CapUnit) (samples flags lost : Nat) (good : Option Nat) :
    ClosedAs samples lost good u
      (settleUnit d { u with samples := samples, flags := flags, lost := u.lost + lost, lastGood := good, closed := true }) := by
  unfold settleUnit
  dsimp only
  split <;> exact ⟨rfl, rfl, rfl, rfl, rfl, rfl, rfl, rfl, rfl, rfl, rfl⟩

/-- From `d` to `e` the open unit left CAP, and went to the units that move, as `w`. -/
structure HandsOver (w : CapUnit) (d e : Dev) : Prop where
  mem : e.mem = d.mem
  unit : e.cap.unit = none
  moving : e.cap.moving = d.cap.moving ++ [w]
  records : e.cap.records = if w.kind == .record then d.cap.records + 1 else d.cap.records
  blocks : e.cap.blocks = d.cap.blocks

theorem HandsOver.keeps {w : CapUnit} {d e a : Dev} (h : HandsOver w d e) (k : KeepsUnits e a) : HandsOver w d a :=
  ⟨k.mem.trans h.mem, k.unit.trans h.unit, k.moving.trans h.moving, k.records.trans h.records, k.blocks.trans h.blocks⟩

theorem nodeWord_takeLeaf (d : Dev) : nodeWord (takeLeaf d).1 = nodeWord d := by
  unfold takeLeaf
  split <;> rfl

theorem takeInputs_handsOver {w : CapUnit} {d e : Dev} (h : HandsOver w d e) : HandsOver w d (takeInputs e) := by
  unfold takeInputs
  split
  · exact h
  · exact ⟨h.mem, h.unit, h.moving, h.records, h.blocks⟩

/-- A record or block that is kept and not held closes with the samples, the loss and the last good sample that it is given. -/
theorem closeUnit_handsOver {d : Dev} {u : CapUnit} (samples extra lost : Nat) (good : Option Nat) (isOpen : d.cap.unit = some u)
    (kind : u.kind ≠ .segment) (kept : u.keep = true) (free : u.hold = false) :
    ∃ w, ClosedAs samples lost good u w ∧ w.node = nodeWord d ∧ HandsOver w d (closeUnit d samples extra lost good) := by
  have leafed := (KeepsUnits.refl d).takeLeaf
  have node := nodeWord_takeLeaf d
  unfold closeUnit
  rw [isOpen]
  split
  · contradiction
  next v same =>
  obtain rfl := Option.some.inj same
  extract_lets w
  have closed : ClosedAs samples lost good u w := settleUnit_closedAs d u samples _ lost good
  clear_value w
  rw [if_pos (closed.keep.trans kept)]
  split
  next e leaf taken =>
  rw [taken] at leafed node
  -- the unit with its leaf, and the hardware after each of `closeUnit`'s steps
  extract_lets v queued segment cap counted gone shown cap' handed after own
  have whole : segment = false := beq_eq_false_iff_ne.mpr (closed.kind ▸ kind)
  have keeps : KeepsUnits d queued := .ite _ leafed (leafed.queueLeaf _)
  have same : counted = queued.cap := if_pos (by rw [whole]; rfl)
  have notOwn : own = false := (congrArg (· && _) whole).trans (Bool.false_and _)
  have moves : handed = { shown with cap := { shown.cap with moving := shown.cap.moving ++ [v] } } :=
    (if_neg (by rw [closed.hold.trans free]; decide)).trans (if_pos (closed.keep.trans kept))
  rw [notOwn, Bool.false_and, if_neg Bool.false_ne_true]
  refine ⟨v, { closed with }, node, takeInputs_handsOver ?_⟩
  rw [moves]
  refine ⟨keeps.mem, rfl, ?_, ?_, (congrArg Cap.blocks same).trans keeps.blocks⟩
  · exact congrArg (· ++ [v]) ((congrArg Cap.moving same).trans keeps.moving)
  · exact congrArg (fun n => if w.kind == .record then n + 1 else n) ((congrArg Cap.records same).trans keeps.records)

/-- In SINGLE a record with all its samples closes; trims take effect, and live pipes whose trims changed restart. -/
theorem recordClose_single {d : Dev} {u : CapUnit} (isOpen : d.cap.unit = some u) (kind : u.kind = .record) (mode : u.mode = mSingle)
    (reached : u.need ≤ u.indexOf d.cap.have) :
    ∃ banks, recordClose d =
      showLevel (armEnds (restartLive banks 0 none (boundaryTrims (closeUnit d u.need 0 0 (some (u.need - 1)))).1)) := by
  refine ⟨(boundaryTrims (closeUnit d u.need 0 0 (some (u.need - 1)))).2, ?_⟩
  have notStack : mSingle ≠ mStack := by decide
  have notBlock : CapKind.record ≠ .block := by decide
  simp only [recordClose, isOpen, kind, mode, reached, notBlock, notStack, ne_eq, not_false_eq_true, decide_true, Bool.and_self, if_true,
    if_false]

theorem runs_recordClose {s : State} {u : CapUnit} (hu : s.dev.Up) (isOpen : s.dev.cap.unit = some u) (kind : u.kind = .record)
    (mode : u.mode = mSingle) (free : u.hold = false) (kept : u.keep = true) (reached : u.need ≤ u.indexOf s.dev.cap.have) :
    Runs .recordClose s fun e => e.cap.unit = none ∧ e.cap.records = s.dev.cap.records + 1 ∧ e.mem = s.dev.mem ∧
      ∃ w, e.cap.moving = s.dev.cap.moving ++ [w] ∧ w.closed = true ∧ w.samples = u.need ∧ w.lastGood = some (u.need - 1) ∧
        w.start = u.start ∧ w.bodyAddr = u.bodyAddr ∧ w.hdrAddr = u.hdrAddr ∧ w.lost = u.lost ∧ w.node = (s.dev.ef R.IFL_ADDR).toNat := by
  refine runs_of_unheld 11 11 recordClose hu rfl ?_
  obtain ⟨banks, closes⟩ := recordClose_single isOpen kind mode reached
  obtain ⟨w, closed, node, handed⟩ := closeUnit_handsOver u.need 0 0 (some (u.need - 1)) isOpen (by rw [kind]; decide) kept free
  have done := handed.keeps ((KeepsUnits.refl _).boundaryTrims.restartLive banks 0).armEnds.showLevel
  rw [closes]
  refine ⟨done.unit, ?_, done.mem, w, done.moving, closed.closed, closed.samples, closed.lastGood, closed.start, closed.bodyAddr,
    closed.hdrAddr, closed.lost, node⟩
  rw [done.records, closed.kind, kind]
  rfl

/-! ### Stream blocks follow one another (R193) -/

/-- A block opens at stored sample `k` with the next number; memory and the units that move stay. -/
structure Opens (k : Nat) (d e : Dev) : Prop where
  mem : e.mem = d.mem
  moving : e.cap.moving = d.cap.moving
  blocks : e.cap.blocks = d.cap.blocks + 1
  unit : ∃ v, e.cap.unit = some v ∧ v.kind = .block ∧ v.start = k ∧ v.index = d.cap.blocks

theorem Opens.keeps {k : Nat} {d e a : Dev} (h : Opens k d e) (keeps : KeepsUnits e a) : Opens k d a := by
  obtain ⟨v, opened, block⟩ := h.unit
  exact ⟨keeps.mem.trans h.mem, keeps.moving.trans h.moving, keeps.blocks.trans h.blocks, v, keeps.unit.trans opened, block⟩

theorem openBlock_opens (d : Dev) (k decim : Nat) (startK ts : Int) : Opens k d (openBlock d k decim startK ts) := by
  unfold openBlock
  extract_lets c entry slot v coded shown
  have keeps : KeepsUnits d shown := ((KeepsUnits.ite _ ((KeepsUnits.refl d).put _ _) (.refl d)).put _ _).put _ _
  clear_value shown
  exact ⟨keeps.mem, keeps.moving, rfl, v, rfl, rfl, rfl, rfl⟩

theorem startBlock_opens (k : Nat) (d : Dev) : Opens k d (startBlock k d) := openBlock_opens ..

/-- In STREAM a full block closes, trims take effect, the next block begins, and live pipes whose trims changed restart. -/
theorem streamBlockClose_stream {d : Dev} {u : CapUnit} (isOpen : d.cap.unit = some u) (kind : u.kind = .block) (mode : u.mode = mStream)
    (full : u.start + u.need ≤ d.cap.have) :
    ∃ banks, streamBlockClose d = showLevel (restartLive banks 0 none
      (startBlock (u.start + u.need) (boundaryTrims (closeUnit d u.need 0 0 (some (u.need - 1)))).1)) := by
  refine ⟨(boundaryTrims (closeUnit d u.need 0 0 (some (u.need - 1)))).2, ?_⟩
  have notFine : mStream ≠ mFine := by decide
  simp only [streamBlockClose, fineLoss, isOpen, kind, mode, full, notFine, beq_self_eq_true, ne_eq, not_false_eq_true, decide_true,
    decide_false, Bool.true_or, Bool.false_and, Bool.and_self, Bool.false_eq_true, if_true, if_false]

theorem runs_streamBlockClose {s : State} {u : CapUnit} (hu : s.dev.Up) (isOpen : s.dev.cap.unit = some u) (kind : u.kind = .block)
    (mode : u.mode = mStream) (free : u.hold = false) (kept : u.keep = true) (full : u.start + u.need ≤ s.dev.cap.have) :
    Runs .streamBlockClose s fun e => e.mem = s.dev.mem ∧ e.cap.blocks = s.dev.cap.blocks + 1 ∧
      (∃ w, e.cap.moving = s.dev.cap.moving ++ [w] ∧ w.samples = u.need ∧ w.closed = true ∧ w.index = u.index) ∧
      ∃ v, e.cap.unit = some v ∧ v.kind = .block ∧ v.start = u.start + u.need ∧ v.index = s.dev.cap.blocks := by
  refine runs_of_unheld 11 11 streamBlockClose hu rfl ?_
  obtain ⟨banks, closes⟩ := streamBlockClose_stream isOpen kind mode full
  obtain ⟨w, closed, node, handed⟩ := closeUnit_handsOver u.need 0 0 (some (u.need - 1)) isOpen (by rw [kind]; decide) kept free
  have trimmed := handed.keeps (KeepsUnits.refl _).boundaryTrims
  have next := (startBlock_opens (u.start + u.need) (boundaryTrims (closeUnit s.dev u.need 0 0 (some (u.need - 1)))).1).keeps
    ((KeepsUnits.refl _).restartLive banks 0).showLevel
  obtain ⟨v, opened, block, start, index⟩ := next.unit
  rw [closes]
  exact ⟨next.mem.trans trimmed.mem, next.blocks.trans (congrArg (· + 1) trimmed.blocks),
    ⟨w, next.moving.trans trimmed.moving, closed.samples, closed.closed, closed.index⟩,
    v, opened, block, start, index.trans trimmed.blocks⟩

/-! ### Blocks are freed, and CAP resumes (R194, R196) -/

theorem burstUnit_idle {d : Dev} (moved : d.cap.moving = []) (closed : d.cap.unit = none) : burstUnit d = none := by
  simp only [burstUnit, moved, closed, List.find?_nil, Option.filter_none]

theorem rd64_capStreamRd (v : Nat) (d : Dev) : (capStreamRd v d).rd64 R.CAP_STREAM_RD_LO = v % 2 ^ 64 := by
  rw [capStreamRd, Dev.putB, Dev.rd64_put_ne _ _ _ _ (by decide), Dev.rd64_wr64]

theorem rd_capStreamRd_ne (v : Nat) (d : Dev) (a : Nat) (h : a ∉ [R.CAP_STREAM_RD_LO, R.CAP_STREAM_RD_LO + 4, R.CAP_STATUS]) :
    (capStreamRd v d).rd a = d.rd a := by
  simp only [List.mem_cons, List.not_mem_nil, or_false, not_or] at h
  obtain ⟨lo, hi, status⟩ := h
  rw [capStreamRd, Dev.putB, Dev.rd_put_ne _ F.CAP_STATUS_RING_BLOCKED _ _ status, Dev.rd_wr64_ne _ _ _ _ (by simp [lo, hi])]

/-- The ring shows blocked only where it did so before and a burst still waits. -/
theorem get_capStreamRd_blocked (v : Nat) (d : Dev) (h : d.cap.moving = [] ∧ d.cap.unit = none ∨ d.get F.CAP_STATUS_RING_BLOCKED = 0) :
    (capStreamRd v d).get F.CAP_STATUS_RING_BLOCKED = 0 := by
  rw [capStreamRd, Dev.putB, Dev.get_put_same _ _ _ (by decide)]
  rcases h with ⟨moved, closed⟩ | unblocked
  · have idle : burstUnit (d.wr64 R.CAP_STREAM_RD_LO v) = none := burstUnit_idle moved closed
    rw [idle, Option.any_none, Bool.and_false]
    rfl
  · rw [Dev.flag_of_get_zero ((Dev.get_wr64_ne _ _ _ _ (by decide)).trans unblocked), Bool.false_and]
    rfl

theorem runs_capStreamRd {s : State} (v : Word64) (hu : s.dev.Up) :
    Runs (.capStreamRd v) s fun e => e.rd64 R.CAP_STREAM_RD_LO = v.toNat ∧ e.cap = s.dev.cap ∧ e.mem = s.dev.mem ∧
      RegsOutside [R.CAP_STREAM_RD_LO, R.CAP_STREAM_RD_LO + 4, R.CAP_STATUS] s.dev e ∧
      (s.dev.cap.moving = [] → s.dev.cap.unit = none → e.get F.CAP_STATUS_RING_BLOCKED = 0) ∧
      (s.dev.get F.CAP_STATUS_RING_BLOCKED = 0 → e.get F.CAP_STATUS_RING_BLOCKED = 0) := by
  refine runs_of_live 11 (capStreamRd v.toNat) hu rfl ⟨?_, rfl, rfl, rd_capStreamRd_ne _ _, ?_, ?_⟩
  · rw [rd64_capStreamRd, Nat.mod_eq_of_lt v.isLt]
  · exact fun moved closed => get_capStreamRd_blocked _ _ (.inl ⟨moved, closed⟩)
  · exact fun unblocked => get_capStreamRd_blocked _ _ (.inr unblocked)

theorem overflowResume_free {d : Dev} (full : d.cap.full = true) (room : keptBytes d + 0x400000 ≤ 0x4000000) :
    overflowResume d = { d with cap := { d.cap with resume := true } } := by
  simp only [overflowResume, full, room, decide_true, Bool.and_self, if_true]

theorem overflowResume_occupied {d : Dev} (occupied : 0x4000000 < keptBytes d + 0x400000) : overflowResume d = d := by
  simp only [overflowResume, Nat.not_le.mpr occupied, decide_false, Bool.and_false, Bool.false_eq_true, if_false]

/-- Settles O33: a record or block closes by one operation that hands it over with the samples it is given, and what follows in the
same step (leaves, trims, restarts of RED) leaves memory and the units alone. -/
theorem captureUnits : Obligations.CaptureUnits :=
  ⟨⟨fun _ _ hu isOpen kind mode free kept reached _ => runs_recordClose hu isOpen kind mode free kept reached,
    fun _ _ hu isOpen kind mode _ _ free kept full _ => runs_streamBlockClose hu isOpen kind mode free kept full⟩,
   fun _ v hu => runs_capStreamRd v hu,
   fun _ hu full room => gives_of_unheld 11 11 overflowResume hu rfl (overflowResume_free full room),
   fun _ hu occupied => gives_same_of_unheld 11 11 overflowResume hu rfl (overflowResume_occupied occupied)⟩

end Sys2Proof.Machine
end

section
/-! SUPPORT. O34: body bursts and headers in memory. -/
namespace Sys2Proof.Machine

/-! ### Bytes of a range -/

theorem leNat_leBytes (n v : Nat) : leNat (leBytes n v) = v % 256 ^ n := by
  induction n generalizing v with
  | zero => rw [Nat.pow_zero, Nat.mod_one]; rfl
  | succ n ih => rw [leBytes, leNat, ih, BitVec.toNat_ofNat, Nat.pow_succ' (m := 256), Nat.mod_mul]

theorem length_loadBytes (d : Dev) (a n : Nat) : (d.loadBytes a n).length = n := by
  induction n generalizing a with
  | zero => rfl
  | succ n ih => rw [Dev.loadBytes, List.length_cons, ih]

/-! ### Writes that reach memory -/

/-- From `d` to `e` the bytes at `a` are written, and no other. -/
structure Stores (a : Nat) (bs : List Byte) (d e : Dev) : Prop where
  loads : e.loadBytes a bs.length = bs
  outside : MemoryOutside a bs.length d e

namespace Stores
variable {a : Nat} {bs : List Byte} {d e f : Dev}

/-- Some of the bytes written read as written. -/
theorem middle {xs ys zs : List Byte} (h : Stores a bs d e) (split : bs = xs ++ ys ++ zs) : e.loadBytes (a + xs.length) ys.length = ys := by
  have loads := h.loads
  rw [split, List.length_append, List.length_append, loadBytes_add, loadBytes_add] at loads
  exact (List.append_inj (List.append_inj loads (by simp [length_loadBytes])).1 (length_loadBytes _ _ _)).2

theorem after (k : KeepsMemory d e) (h : Stores a bs e f) : Stores a bs d f := ⟨h.loads, fun i hi => (h.outside i hi).trans (k.byte i)⟩
theorem keeps (h : Stores a bs d e) (k : KeepsMemory e f) : Stores a bs d f :=
  ⟨(k.loadBytes _ _).trans h.loads, fun i hi => (k.byte i).trans (h.outside i hi)⟩

end Stores

theorem clearPoison_eq (d : Dev) (a n : Nat) : ∃ ddr, d.clearPoison a n = { d with ddr } := by
  unfold Dev.clearPoison
  split <;> exact ⟨_, rfl⟩

theorem storeBytes_eq (d : Dev) (a : Nat) (bs : List Byte) : ∃ mem, d.storeBytes a bs = { d with mem } := by
  induction bs generalizing d a with
  | nil => exact ⟨_, rfl⟩
  | cons b bs ih =>
    obtain ⟨mem, h⟩ := ih (d.setByte a b) (a + 1)
    exact ⟨mem, h⟩

/-- A write that reaches its destination changes memory, and which bursts read as uncorrectable (R380). -/
theorem writeOut_eq (d : Dev) (a : Nat) (bs : List Byte) : ∃ mem ddr, d.writeOut a bs = { d with mem, ddr } := by
  obtain ⟨mem, stored⟩ := storeBytes_eq d a bs
  obtain ⟨ddr, cleared⟩ := clearPoison_eq (d.storeBytes a bs) a bs.length
  exact ⟨mem, ddr, by rw [Dev.writeOut, cleared, stored]⟩

@[simp] theorem writeOut_regs (d : Dev) (a : Nat) (bs : List Byte) : (d.writeOut a bs).regs = d.regs := by
  obtain ⟨mem, ddr, h⟩ := writeOut_eq d a bs
  rw [h]
@[simp] theorem writeOut_cap (d : Dev) (a : Nat) (bs : List Byte) : (d.writeOut a bs).cap = d.cap := by
  obtain ⟨mem, ddr, h⟩ := writeOut_eq d a bs
  rw [h]
@[simp] theorem writeOut_crossings (d : Dev) (a : Nat) (bs : List Byte) : (d.writeOut a bs).crossings = d.crossings := by
  obtain ⟨mem, ddr, h⟩ := writeOut_eq d a bs
  rw [h]

theorem writeOut_stores (d : Dev) (a : Nat) (bs : List Byte) : Stores a bs d (d.writeOut a bs) := by
  obtain ⟨ddr, cleared⟩ := clearPoison_eq (d.storeBytes a bs) a bs.length
  have keeps : KeepsMemory (d.storeBytes a bs) (d.writeOut a bs) := by
    rw [Dev.writeOut, cleared]
    exact ⟨rfl, rfl⟩
  exact Stores.keeps ⟨Dev.loadBytes_storeBytes d a bs, fun k hk => Dev.byte_storeBytes_ne d a k bs hk⟩ keeps

theorem KeepsMemory.showLevel (d : Dev) : KeepsMemory d (showLevel d) := ((KeepsMemory.refl d).put _ _).put _ _

theorem rd_showLevel_ne (d : Dev) (a : Nat) (h : a ∉ [R.CAP_SRAM_LEVEL, R.CAP_SRAM_HWM]) : (showLevel d).rd a = d.rd a := by
  simp only [List.mem_cons, List.not_mem_nil, or_false, not_or] at h
  obtain ⟨level, high⟩ := h
  rw [showLevel, Dev.rd_put_ne _ F.CAP_SRAM_HWM_KIB _ _ high, Dev.rd_put_ne _ F.CAP_SRAM_LEVEL_KIB _ _ level]

/-! ### Body bursts (R175) -/

/-- A word of a body depends on capture SRAM alone. -/
theorem KeepsMemory.bodyWord {d e : Dev} (h : KeepsMemory d e) (u : CapUnit) (i w : Nat) : bodyWord e u i w = bodyWord d u i w := by
  simp only [Machine.bodyWord, bodyCodes, getS16, getSample, h.load]

/-- The next 64 bytes of a closed unit's body, in rotation over its inputs. -/
def nextBurst (d : Dev) (u : CapUnit) : List Byte :=
  (List.range 16).flatMap fun w => leBytes 4 (bodyWord d u (u.bursts % u.inputs.length) (16 * (u.bursts / u.inputs.length) + w))

/-- Where they go. -/
def burstPlace (u : CapUnit) : Nat := u.bodyAddr + u.bursts % u.inputs.length * u.inStride + 64 * (u.bursts / u.inputs.length)

theorem length_nextBurst (d : Dev) (u : CapUnit) : (nextBurst d u).length = 64 := by
  rw [nextBurst, List.length_flatMap]
  simp only [length_leBytes]
  rfl

theorem KeepsMemory.nextBurst {d e : Dev} (h : KeepsMemory d e) (u : CapUnit) : nextBurst e u = nextBurst d u := by
  simp only [Machine.nextBurst, h.bodyWord]

section
variable {d : Dev} {u : CapUnit} {us : List CapUnit}

theorem burstUnit_front (moving : d.cap.moving = u :: us) (closed : u.closed = true)
    (more : u.bursts < u.inputs.length * bodyBursts u.mode u.samples) : burstUnit d = some u := by
  have ready : burstsReady d u = u.inputs.length * bodyBursts u.mode u.samples := by rw [burstsReady, closed, if_pos rfl]
  rw [burstUnit, moving, List.find?_cons, ready, decide_eq_true more]

theorem bodyBurst_held (moving : d.cap.moving = u :: us) (closed : u.closed = true) (held : ringHolds d u = true)
    (more : u.bursts < u.inputs.length * bodyBursts u.mode u.samples) :
    bodyBurst d = (d.put F.CAP_STATUS_RING_BLOCKED 1).put F.CAP_STATUS_LAST_CODE 0x0B03 := by
  simp only [bodyBurst, burstUnit_front moving closed more, held, if_true]
  rfl

/-- CAP with these units to move. -/
def withMoving (moving : List CapUnit) (d : Dev) : Dev := { d with cap := { d.cap with moving } }

/-- A burst that the ring does not hold back goes to memory; no header stands in its slot that would be made invalid first (R177). -/
theorem bodyBurst_goes (moving : d.cap.moving = u :: us) (closed : u.closed = true) (free : ringHolds d u = false)
    (fresh : u.bursts ≠ 0 ∨ u.hdrAddr ∉ d.cap.written) (more : u.bursts < u.inputs.length * bodyBursts u.mode u.samples) :
    bodyBurst d = showLevel (withMoving ({ u with bursts := u.bursts + 1 } :: us)
      ((d.putB F.CAP_STATUS_RING_BLOCKED false).writeOut (burstPlace u) (nextBurst d u))) := by
  unfold bodyBurst
  rw [burstUnit_front moving closed more]
  split
  · contradiction
  next v same =>
  obtain rfl := Option.some.inj same
  rw [if_neg (by rw [free]; decide)]
  extract_lets unblocked n ready i b whole bytes stored on
  have noHeader : ready = unblocked := by
    rcases fresh with begun | none
    · exact if_neg begun
    · have stays : invalidateHeader unblocked u = unblocked := if_pos (by simpa [unblocked] using none)
      exact (congrArg (fun e => if u.bursts = 0 then e else unblocked) stays).trans (ite_self _)
  have all : whole = u := congrArg (fun samples => { u with samples }) (if_pos closed)
  have burst : bytes = nextBurst d u := by
    rw [← KeepsMemory.nextBurst ((KeepsMemory.refl d).putB F.CAP_STATUS_RING_BLOCKED false)]
    exact congrArg₂ (fun e x => (List.range 16).flatMap fun w => leBytes 4 (bodyWord e x i (16 * b + w))) noHeader all
  have done : stored = (d.putB F.CAP_STATUS_RING_BLOCKED false).writeOut (burstPlace u) (nextBurst d u) :=
    congrArg₂ (Dev.writeOut · (burstPlace u) ·) noHeader burst
  have front : stored.cap.moving = u :: us := by rw [done, writeOut_cap]; exact moving
  rw [if_pos closed, front, List.replace_cons_self, ← done]
  rfl

/-- It stores the next 64 bytes of the unit's body at their place, and counts. -/
theorem bodyBurst_stores (moving : d.cap.moving = u :: us) (closed : u.closed = true) (free : ringHolds d u = false)
    (fresh : u.bursts ≠ 0 ∨ u.hdrAddr ∉ d.cap.written) (more : u.bursts < u.inputs.length * bodyBursts u.mode u.samples) :
    Stores (burstPlace u) (nextBurst d u) d (bodyBurst d) ∧
      (bodyBurst d).cap = { d.cap with moving := { u with bursts := u.bursts + 1 } :: us } ∧
      RegsOutside [R.CAP_STATUS, R.CAP_SRAM_LEVEL, R.CAP_SRAM_HWM] d (bodyBurst d) := by
  rw [bodyBurst_goes moving closed free fresh more]
  have stores := (writeOut_stores (d.putB F.CAP_STATUS_RING_BLOCKED false) (burstPlace u) (nextBurst d u)).after
    ((KeepsMemory.refl d).putB _ _)
  have cap := writeOut_cap (d.putB F.CAP_STATUS_RING_BLOCKED false) (burstPlace u) (nextBurst d u)
  have regs := writeOut_regs (d.putB F.CAP_STATUS_RING_BLOCKED false) (burstPlace u) (nextBurst d u)
  generalize (d.putB F.CAP_STATUS_RING_BLOCKED false).writeOut (burstPlace u) (nextBurst d u) = e at *
  refine ⟨stores.keeps (.trans ((KeepsMemory.refl e).setCap _) (.showLevel _)), ?_, fun a ha => ?_⟩
  · exact congrArg (fun c : Cap => { c with moving := { u with bursts := u.bursts + 1 } :: us }) cap
  · obtain ⟨status, level⟩ := List.ne_and_not_mem_of_not_mem_cons ha
    rw [rd_showLevel_ne _ _ level, withMoving, Dev.rd, regs]
    exact Dev.rd_put_ne d F.CAP_STATUS_RING_BLOCKED _ _ status

end

theorem runs_bodyBurst {s : State} {u : CapUnit} {us : List CapUnit} (hu : s.dev.Up) (moving : s.dev.cap.moving = u :: us)
    (closed : u.closed = true) (free : ringHolds s.dev u = false) (fresh : u.bursts ≠ 0 ∨ u.hdrAddr ∉ s.dev.cap.written)
    (more : u.bursts < u.inputs.length * bodyBursts u.mode u.samples) :
    Runs .bodyBurst s fun e => e.loadBytes (burstPlace u) 64 = nextBurst s.dev u ∧ MemoryOutside (burstPlace u) 64 s.dev e ∧
      e.cap = { s.dev.cap with moving := { u with bursts := u.bursts + 1 } :: us } ∧
      RegsOutside [R.CAP_STATUS, R.CAP_SRAM_LEVEL, R.CAP_SRAM_HWM] s.dev e := by
  obtain ⟨stores, cap, regs⟩ := bodyBurst_stores moving closed free fresh more
  have length := length_nextBurst s.dev u
  exact runs_of_unheld 11 11 bodyBurst hu rfl ⟨length ▸ stores.loads, length ▸ stores.outside, cap, regs⟩

/-! ### Headers (R176, R189, R191) -/

theorem length_optBytes (n : Nat) (x : Option Nat) : (optBytes n x).length = n := by
  cases x <;> exact length_leBytes _ _

/-- A header of 192 bytes: its magic number, its kind at byte 8, and the CRC of what stands before it (Table 7.5). -/
theorem recordHeader_eq (u : CapUnit) (kind ntrig tlist : Nat) :
    ∃ version rest, version.length = 4 ∧ rest.length = 179 ∧
      recordHeader u kind ntrig tlist = withCrc (leBytes 4 0x52434147 ++ version ++ leBytes 1 kind ++ rest) := by
  refine ⟨leBytes 2 1 ++ leBytes 2 0xC0, ?rest, rfl, ?length, ?eq⟩
  case eq =>
    simp only [recordHeader, List.append_assoc]
    rfl
  case length => simp only [List.length_append, length_leBytes, length_optBytes, tsBytes, intBytes, zeros, List.length_replicate]

/-- At `a` stands a header of that kind, with its CRC, and memory is otherwise as before. -/
structure HeaderWritten (a kind : Nat) (d e : Dev) : Prop where
  magic : e.load a 4 = 0x52434147
  crc : e.load (a + 188) 4 = (crc32 (e.loadBytes a 188)).toNat
  kind : e.load (a + 8) 1 = kind % 256
  outside : MemoryOutside a 192 d e

theorem headerWritten {a ntrig tlist : Nat} {u : CapUnit} (kind : Nat) {d e : Dev} (h : Stores a (recordHeader u kind ntrig tlist) d e) :
    HeaderWritten a kind d e := by
  obtain ⟨version, rest, four, long, header⟩ := recordHeader_eq u kind ntrig tlist
  rw [header] at h
  have magic := h.middle (xs := []) (ys := leBytes 4 0x52434147) (by simp only [withCrc, List.nil_append, List.append_assoc]; rfl)
  have byte8 := h.middle (xs := leBytes 4 0x52434147 ++ version) (ys := leBytes 1 kind) (by simp only [withCrc, List.append_assoc]; rfl)
  have body := h.middle (xs := []) (by rw [List.nil_append]; rfl)
  have crc := h.middle (zs := []) (by rw [List.append_nil]; rfl)
  have outside := h.outside
  simp only [withCrc, List.length_append, length_leBytes, four, long, List.length_nil, Nat.add_zero] at magic byte8 body crc outside
  refine ⟨?_, ?_, ?_, outside⟩
  · rw [Dev.load, magic, leNat_leBytes]
    rfl
  · rw [Dev.load, crc, body, leNat_leBytes]
    exact Nat.mod_eq_of_lt (BitVec.isLt _)
  · rw [Dev.load, byte8, leNat_leBytes, Nat.pow_one]

theorem HeaderWritten.keeps {a kind : Nat} {d e f : Dev} (h : HeaderWritten a kind d e) (k : KeepsMemory e f) : HeaderWritten a kind d f :=
  ⟨(k.load _ _).trans h.magic, by rw [k.load, k.loadBytes, h.crc], (k.load _ _).trans h.kind,
    fun i hi => (k.byte i).trans (h.outside i hi)⟩

theorem HeaderWritten.after {a kind : Nat} {d e f : Dev} (k : KeepsMemory d e) (h : HeaderWritten a kind e f) : HeaderWritten a kind d f :=
  { h with outside := fun i hi => (h.outside i hi).trans (k.byte i) }

theorem says_post {d e : Dev} (h : e.crossings = d.crossings) (i : Island) (num sub arg : Nat) (ts : Option TS) :
    Says i num sub arg ts d (e.post i num sub arg ts) := by
  rw [Says, Dev.post, Dev.post, h]

theorem leafWritten_eq (d : Dev) (leaf : Nat) : ∃ sealing, leafWritten d leaf = { d with sealing } := by
  unfold leafWritten
  split <;> exact ⟨_, rfl⟩

/-- A record's header is written, and then EV_REC_DONE is posted (R176); CAP notes that a header stands there (R177). -/
theorem writeHeader_record (u : CapUnit) (d : Dev) (kind : u.kind = .record) :
    ∃ sealing written, writeHeader u d = (({ d with sealing, cap := { d.cap with written } } : Dev).writeOut u.hdrAddr
      (recordHeader u 1 1 0)).post .c evRecDone 0 u.hdrAddr := by
  unfold writeHeader
  extract_lets cap noted
  obtain ⟨sealing, same⟩ : ∃ sealing, noted = _ := leafWritten_eq _ _
  rw [kind]
  exact ⟨sealing, _, congrArg (fun e : Dev => (e.writeOut u.hdrAddr (recordHeader u 1 1 0)).post .c evRecDone 0 u.hdrAddr) same⟩

/-- An ended acquisition without a segment: its header is written, and then EV_ACQ_DONE is posted (R191). -/
theorem acqHeaderWrite_empty {d : Dev} {a : AcqAcc} {rest : List AcqAcc} (ended : d.cap.ended = a :: rest) (empty : a.segments = 0)
    (ok : a.hdrOk = true) (written : ∀ u ∈ d.cap.moving ++ d.cap.unit.toList, u.acq ≠ a.num) (unsealed : d.sealing.on = false) :
    ∃ u tlist, acqHeaderWrite d = (armEnds (({ d with cap := { d.cap with ended := rest } } : Dev).writeOut a.hdrAddr
      (recordHeader u 2 1 tlist))).post .c evAcqDone 0 a.hdrAddr := by
  have noSegment : ((d.cap.moving ++ d.cap.unit.toList).any fun u => u.acq == a.num && u.kind == .segment) = false := by
    rw [List.any_eq_false]
    intro u hu
    simp [written u hu]
  have noLeaf : takeLeaf { d with cap := { d.cap with ended := rest } } = ({ d with cap := { d.cap with ended := rest } }, 0) :=
    if_neg (by rw [unsealed]; decide)
  unfold acqHeaderWrite
  rw [ended]
  split
  · contradiction
  next b l same =>
  obtain ⟨rfl, rfl⟩ := List.cons.inj same
  rw [noSegment, if_neg Bool.false_ne_true]
  extract_lets cap done said unit tlist
  have quiet : said = done := if_neg (by simp [empty])
  rw [if_neg (by rw [ok]; decide), quiet, noLeaf]
  exact ⟨_, tlist, rfl⟩

/-! ### The commands that write headers -/

theorem headerWrite_moved {d : Dev} {u : CapUnit} {us : List CapUnit} (moving : d.cap.moving = u :: us) (kind : u.kind = .record)
    (closed : u.closed = true) (accepted : u.inputs.length * bodyBursts u.mode u.samples ≤ u.bursts) :
    headerWrite d = showLevel (writeHeader u (withMoving us d)) := by
  have ready : burstsReady d u ≤ u.bursts := by rwa [burstsReady, closed, if_pos rfl]
  simp only [headerWrite, moving, ready, decided, kind]
  rfl

theorem headerWrite_held {d : Dev} {u : CapUnit} {us : List CapUnit} (moved : d.cap.moving = []) (heads : d.cap.heads = u :: us) :
    headerWrite d = writeHeader u { d with cap := { d.cap with heads := us } } := by
  simp only [headerWrite, moved, heads]

/-- What a record's header leaves, on hardware `e` that took the unit from where it waited. -/
theorem writeHeader_written {d e : Dev} {u : CapUnit} (kind : u.kind = .record) (mem : KeepsMemory d e)
    (crossings : e.crossings = d.crossings) :
    HeaderWritten u.hdrAddr 1 d (writeHeader u e) ∧ (writeHeader u e).cap.moving = e.cap.moving ∧
      (writeHeader u e).cap.heads = e.cap.heads ∧ Says .c evRecDone 0 u.hdrAddr none d (writeHeader u e) := by
  obtain ⟨sealing, written, done⟩ := writeHeader_record u e kind
  rw [done]
  have keeps : KeepsMemory d { e with sealing, cap := { e.cap with written } } := mem.trans ⟨rfl, rfl⟩
  have stands := (headerWritten 1 (writeOut_stores { e with sealing, cap := { e.cap with written } } u.hdrAddr (recordHeader u 1 1 0))).after keeps
  refine ⟨stands.keeps ((KeepsMemory.refl _).post _ _ _ _ _), ?_, ?_, says_post ?_ _ _ _ _ _⟩
  · rw [Dev.post_cap, writeOut_cap]
  · rw [Dev.post_cap, writeOut_cap]
  · rw [writeOut_crossings]
    exact crossings

theorem runs_headerWrite_moved {s : State} {u : CapUnit} {us : List CapUnit} (hu : s.dev.Up) (moving : s.dev.cap.moving = u :: us)
    (kind : u.kind = .record) (closed : u.closed = true) (accepted : u.inputs.length * bodyBursts u.mode u.samples ≤ u.bursts) :
    Runs .headerWrite s fun e => e.cap.moving = us ∧ e.load u.hdrAddr 4 = 0x52434147 ∧
      e.load (u.hdrAddr + 188) 4 = (crc32 (e.loadBytes u.hdrAddr 188)).toNat ∧ e.load (u.hdrAddr + 8) 1 = 1 ∧
      MemoryOutside u.hdrAddr 192 s.dev e ∧ Says .c evRecDone 0 u.hdrAddr none s.dev e := by
  refine runs_of_unheld 11 11 headerWrite hu rfl ?_
  rw [headerWrite_moved moving kind closed accepted]
  obtain ⟨stands, left, -, posted⟩ := writeHeader_written (e := withMoving us s.dev) kind ((KeepsMemory.refl s.dev).setCap _) rfl
  have shown := stands.keeps (.showLevel _)
  exact ⟨left, shown.magic, shown.crc, shown.kind, shown.outside, posted⟩

theorem runs_headerWrite_held {s : State} {u : CapUnit} {us : List CapUnit} (hu : s.dev.Up) (moved : s.dev.cap.moving = [])
    (heads : s.dev.cap.heads = u :: us) (kind : u.kind = .record) :
    Runs .headerWrite s fun e => e.cap.heads = us ∧ e.load u.hdrAddr 4 = 0x52434147 ∧
      e.load (u.hdrAddr + 188) 4 = (crc32 (e.loadBytes u.hdrAddr 188)).toNat ∧ e.load (u.hdrAddr + 8) 1 = 1 ∧
      MemoryOutside u.hdrAddr 192 s.dev e ∧ Says .c evRecDone 0 u.hdrAddr none s.dev e := by
  refine runs_of_unheld 11 11 headerWrite hu rfl ?_
  rw [headerWrite_held moved heads]
  obtain ⟨stands, -, left, posted⟩ := writeHeader_written (d := s.dev) kind ((KeepsMemory.refl s.dev).setCap { s.dev.cap with heads := us }) rfl
  exact ⟨left, stands.magic, stands.crc, stands.kind, stands.outside, posted⟩

theorem runs_acqHeaderWrite {s : State} {a : AcqAcc} {rest : List AcqAcc} (hu : s.dev.Up) (ended : s.dev.cap.ended = a :: rest)
    (empty : a.segments = 0) (ok : a.hdrOk = true) (written : ∀ u ∈ s.dev.cap.moving ++ s.dev.cap.unit.toList, u.acq ≠ a.num)
    (unsealed : s.dev.sealing.on = false) :
    Runs .acqHeaderWrite s fun e => e.cap.ended = rest ∧ e.load a.hdrAddr 4 = 0x52434147 ∧ e.load (a.hdrAddr + 8) 1 = 2 ∧
      e.load (a.hdrAddr + 188) 4 = (crc32 (e.loadBytes a.hdrAddr 188)).toNat ∧ MemoryOutside a.hdrAddr 192 s.dev e ∧
      Says .c evAcqDone 0 a.hdrAddr none s.dev e ∧ e.regs = s.dev.regs := by
  refine runs_of_unheld 11 11 acqHeaderWrite hu rfl ?_
  obtain ⟨u, tlist, done⟩ := acqHeaderWrite_empty ended empty ok written unsealed
  rw [done]
  have stores := writeOut_stores { s.dev with cap := { s.dev.cap with ended := rest } } a.hdrAddr (recordHeader u 2 1 tlist)
  have cap := writeOut_cap { s.dev with cap := { s.dev.cap with ended := rest } } a.hdrAddr (recordHeader u 2 1 tlist)
  have regs := writeOut_regs { s.dev with cap := { s.dev.cap with ended := rest } } a.hdrAddr (recordHeader u 2 1 tlist)
  have crossings := writeOut_crossings { s.dev with cap := { s.dev.cap with ended := rest } } a.hdrAddr (recordHeader u 2 1 tlist)
  generalize Dev.writeOut _ a.hdrAddr (recordHeader u 2 1 tlist) = e at *
  have stands := ((headerWritten 2 stores).after ((KeepsMemory.refl s.dev).setCap _)).keeps
    (f := (armEnds e).post .c evAcqDone 0 a.hdrAddr) ⟨rfl, rfl⟩
  exact ⟨congrArg Cap.ended cap, stands.magic, stands.kind, stands.crc, stands.outside, says_post crossings _ _ _ _ _, regs⟩

/-- Settles O34: a burst and a header each reach memory by one write, of what the model puts together from capture SRAM and from the
unit; what else the step does leaves memory alone. -/
theorem captureStores : Obligations.CaptureStores :=
  ⟨⟨fun _ _ _ hu moving closed free fresh more => runs_bodyBurst hu moving closed free fresh more,
    fun _ _ _ hu moving closed held more => gives_of_unheld 11 11 bodyBurst hu rfl (bodyBurst_held moving closed held more)⟩,
   fun _ _ _ hu moving kind closed accepted => runs_headerWrite_moved hu moving kind closed accepted,
   fun _ _ _ hu moved heads kind => runs_headerWrite_held hu moved heads kind,
   fun _ _ _ hu ended empty ok written unsealed => runs_acqHeaderWrite hu ended empty ok written unsealed⟩

end Sys2Proof.Machine
end

section
/-! SUPPORT. O36: the fold of an acquisition into STK's sums, the clear and the abort. -/
namespace Sys2Proof.Machine

/-! ### Memory that a change leaves alone -/

/-- Bytes that stay load as before. -/
theorem load_of_byte {d e : Dev} {a n : Nat} (same : ∀ k, a ≤ k → k < a + n → e.byte k = d.byte k) : e.load a n = d.load a n := by
  have bytes : e.loadBytes a n = d.loadBytes a n := by
    induction n generalizing a with
    | zero => rfl
    | succ n ih =>
      rw [Dev.loadBytes, Dev.loadBytes, same a (by omega) (by omega), ih fun k hk hn => same k (by omega) (by omega)]
  rw [Dev.load, Dev.load, bytes]

theorem storeBytes_stores (d : Dev) (a : Nat) (bs : List Byte) : Stores a bs d (d.storeBytes a bs) :=
  ⟨Dev.loadBytes_storeBytes d a bs, fun k hk => Dev.byte_storeBytes_ne d a k bs hk⟩

/-- A 32-bit signed value that was stored loads as stored. -/
theorem Stores.signed {a : Nat} {x : Int} {d e : Dev} (h : Stores a (intBytes 4 x) d e) (low : -(2 ^ 31) ≤ x) (high : x ≤ 2 ^ 31 - 1) :
    signedOf 32 (e.load a 4) = x := by
  have loads := h.loads
  rw [intBytes, length_leBytes] at loads
  rw [Dev.load, loads, leNat_leBytes, signedOf, encodeSigned]
  split <;> omega

theorem clampInt_between {lo hi : Int} (x : Int) (le : lo ≤ hi) : lo ≤ clampInt lo hi x ∧ clampInt lo hi x ≤ hi := by
  unfold clampInt
  split_ifs <;> omega

/-! ### The fold (R221) -/

/-- What folding a code into the sum at an address makes of it. -/
def sumWith (d : Dev) (a : Nat) (c : Int) : Int := clampInt (-(2 ^ 31)) (2 ^ 31 - 1) (signedOf 32 (d.load a 4) + c)

/-- From `d` to `e` only memory and STK's count of saturated sums may differ. -/
def FoldsOnly (d e : Dev) : Prop := ∃ mem sumSat satFirst, e = { d with mem, stk := { d.stk with sumSat, satFirst } }

theorem FoldsOnly.trans {c d e : Dev} (h : FoldsOnly c d) (k : FoldsOnly d e) : FoldsOnly c e := by
  obtain ⟨_, _, _, rfl⟩ := h
  obtain ⟨_, _, _, rfl⟩ := k
  exact ⟨_, _, _, rfl⟩

section
variable (r : StkRegion) (spilled len cols bins i : Nat) (d : Dev)

/-- With the SUM region alone, folding a code stores its sum. -/
theorem foldSample_sum (j : Nat) (c : Int) :
    Stores (r.base + i * r.perInput + 4 * j) (intBytes 4 (sumWith d (r.base + i * r.perInput + 4 * j) c)) d
        (foldSample (some r, none, none, spilled) len cols bins i d (j, c)) ∧
      FoldsOnly d (foldSample (some r, none, none, spilled) len cols bins i d (j, c)) := by
  have stores := storeBytes_stores d (r.base + i * r.perInput + 4 * j) (intBytes 4 (sumWith d (r.base + i * r.perInput + 4 * j) c))
  obtain ⟨mem, stored⟩ := storeBytes_eq d (r.base + i * r.perInput + 4 * j)
    (intBytes 4 (sumWith d (r.base + i * r.perInput + 4 * j) c))
  rw [stored] at stores
  simp only [foldSample]
  rw [← sumWith, stored]
  split_ifs
  · exact ⟨stores, _, _, _, rfl⟩
  · exact ⟨stores.keeps ⟨rfl, rfl⟩, _, _, _, rfl⟩

/-- From `d` to `e` the codes are folded into the sums of an input's block at `base`, each into its own. -/
structure Folded (base n : Nat) (code : Nat → Int) (d e : Dev) : Prop where
  sums : ∀ j < n, signedOf 32 (e.load (base + 4 * j) 4) = sumWith d (base + 4 * j) (code j)
  outside : MemoryOutside base (4 * n) d e
  only : FoldsOnly d e

/-- Folding one more code keeps the sums before it and changes its own, which none of them has touched. -/
theorem Folded.next {base n : Nat} {code : Nat → Int} {d e f : Dev} (h : Folded base n code d e)
    (stores : Stores (base + 4 * n) (intBytes 4 (sumWith e (base + 4 * n) (code n))) e f) (only : FoldsOnly e f) :
    Folded base (n + 1) code d f := by
  have untouched : sumWith e (base + 4 * n) (code n) = sumWith d (base + 4 * n) (code n) := by
    rw [sumWith, sumWith, load_of_byte fun k low _ => h.outside k (.inr low)]
  have outside := stores.outside
  rw [intBytes, length_leBytes] at outside
  refine ⟨fun j hj => ?_, fun k hk => (outside k (by omega)).trans (h.outside k (by omega)), h.only.trans only⟩
  obtain before | rfl := Nat.lt_succ_iff_lt_or_eq.mp hj
  · rw [load_of_byte fun k _ high => outside k (.inl (by omega)), h.sums j before]
  · have bounds := clampInt_between (lo := -(2 ^ 31)) (hi := 2 ^ 31 - 1) (signedOf 32 (e.load (base + 4 * j) 4) + code j) (by decide)
    rw [← untouched, stores.signed bounds.1 bounds.2]

theorem foldl_foldSample (code : Nat → Int) (n : Nat) :
    Folded (r.base + i * r.perInput) n code d
      (((List.range n).map fun j => (j, code j)).foldl (foldSample (some r, none, none, spilled) len cols bins i) d) := by
  induction n with
  | zero => exact ⟨fun j hj => absurd hj (Nat.not_lt_zero j), fun _ _ => rfl, _, _, _, rfl⟩
  | succ n ih =>
    rw [List.range_succ, List.map_append, List.foldl_append]
    obtain ⟨stores, only⟩ := foldSample_sum r spilled len cols bins i
      (((List.range n).map fun j => (j, code j)).foldl (foldSample (some r, none, none, spilled) len cols bins i) d) n (code n)
    exact ih.next stores only

end

/-- One input's sums, and no other region in use, that fit in STK SRAM stand at its start (R225). -/
theorem stkRegions_sum {d : Dev} {len : Nat} (cols : Nat) (fits : 4 * len ≤ 0x1000000) (sum : d.cfg F.STK_CTRL_SUM = 1)
    (env : d.cfg F.STK_CTRL_ENV = 0) (hist : d.cfg F.STK_CTRL_HIST = 0) :
    stkRegions d len 1 cols = (some ⟨stkBase, 4 * len, false⟩, none, none, 0) := by
  simp [stkRegions, placeRegion, Dev.cfgB, sum, env, hist, fits]

/-- The bytes of a sum that STK SRAM holds lie below Badger SRAM. -/
theorem sum_below_badger {j n : Nat} (hj : j < n) (fits : 4 * n ≤ 0x1000000) : stkBase + 4 * j + 4 ≤ badgerBase := by
  simp only [stkBase, badgerBase]
  omega

/-- The fold of one input's acquisition. -/
theorem foldUnit_single {d : Dev} {u : CapUnit} {i : Nat} (cols : Nat) (inputs : u.inputs = [i]) (fits : 4 * u.samples ≤ 0x1000000)
    (sum : d.cfg F.STK_CTRL_SUM = 1) (env : d.cfg F.STK_CTRL_ENV = 0) (hist : d.cfg F.STK_CTRL_HIST = 0) :
    Folded stkBase u.samples (fun j => (getSample d 1 0 (u.start + j)).toInt) d (foldUnit d u cols) := by
  have folded := foldl_foldSample ⟨stkBase, 4 * u.samples, false⟩ 0 u.samples cols (d.cfg F.STK_HIST_BINS_LOG) 0 d
    (fun j => (getSample d 1 0 (u.start + j)).toInt) u.samples
  rw [Nat.zero_mul, Nat.add_zero] at folded
  simp only [foldUnit, inputs, List.length_singleton, stkRegions_sum cols fits sum env hist, List.range_one, List.foldl_cons, List.foldl_nil]
  exact folded

/-! ### The result header (R226) -/

/-- Both ends of a range that lies in a region lie there. -/
theorem rangeRegion_ends {d : Dev} {a n : Nat} {r : Region} (inside : rangeRegion d a n = some r) :
    regionOf d a = some r ∧ (n ≤ 1 ∨ regionOf d (a + n - 1) = some r) := by
  unfold rangeRegion at inside
  split at inside
  · next first =>
    obtain ⟨ends, same⟩ := Option.ite_none_right_eq_some.mp inside
    obtain rfl := Option.some.inj same
    exact ⟨first, by simpa using ends⟩
  · simp at inside

/-- A range of DRAM or of AQS data SRAM holds no byte of capture, STK or Badger SRAM. -/
theorem inDramOrData_apart {d : Dev} {a n k : Nat} (place : inDramOrData d a n = true) (span : d.ddr.span ≤ dramEnd) (low : dramEnd ≤ k)
    (high : k < dataBase) : k < a ∨ a + n ≤ k := by
  have region (b : Nat) : regionOf d b = some .dram → b < dramEnd := by
    unfold regionOf
    split_ifs <;> simp
    omega
  have data (b : Nat) : regionOf d b = some .data → dataBase ≤ b := by
    simp only [regionOf, Bool.and_eq_true, decide_eq_true_eq]
    split_ifs <;> simp
    omega
  simp only [inDramOrData, Bool.or_eq_true, decide_eq_true_eq] at place
  obtain dram | sram := place
  · obtain ⟨first, short | last⟩ := rangeRegion_ends dram
    · have := region a first
      omega
    · have := region _ last
      omega
  · exact .inl (high.trans_le (data a (rangeRegion_ends sram).1))

theorem storeResult_eq (d : Dev) (a : Nat) (bs : List Byte) : ∃ mem ddr, storeResult d a bs = { d with mem, ddr } := by
  unfold storeResult
  split
  · exact writeOut_eq d a bs
  · exact ⟨_, _, rfl⟩

theorem writeStkHeader_eq (d : Dev) : ∃ mem ddr, writeStkHeader d = { d with mem, ddr } := storeResult_eq _ _ _

theorem byte_writeStkHeader {d : Dev} {k : Nat} (span : d.ddr.span ≤ dramEnd) (low : dramEnd ≤ k) (high : k < dataBase) :
    (writeStkHeader d).byte k = d.byte k := by
  unfold writeStkHeader storeResult
  split
  · next place => exact (writeOut_stores d _ _).outside k (inDramOrData_apart place span low high)
  · rfl

/-! ### The end of a fold (R226) -/

theorem stkBoundary_quiet {d : Dev} (noClear : d.stk.clearReq = false) : stkBoundary d = showReady d := by
  simp [stkBoundary, noClear]

/-- The fold has ended: its acquisition's flags and number are taken, and it is counted. -/
def foldCounted (u : CapUnit) (d : Dev) : Dev :=
  { d with stk := { d.stk with fold := none, flags := orFlags d.stk.flags u.flags, acq := u.acq } }.wr R.STK_COUNT
    (BitVec.ofNat 32 (stkCount d + 1))

/-- The target is reached: DONE, and EV_STK_DONE. -/
def sayTarget (n : Nat) (d : Dev) : Dev :=
  if n = d.cfg F.STK_TARGET_TARGET then (d.putB F.STK_STATUS_DONE true).post .c evStkDone 0 n else d

/-- A unit that drains is OFF once the fold has ended. -/
def endDrain (d : Dev) : Dev := if d.unitState .stk = stDraining then d.setUnit .stk stOff else d

theorem stkFoldFinal_eq {d : Dev} {u : CapUnit} (fold : d.stk.fold = some u) :
    stkFoldFinal d = stkBoundary (endDrain (sayTarget (stkCount (foldUnit d u d.stk.cols) + 1)
      (writeStkHeader (foldCounted u (foldUnit d u d.stk.cols))))) := by
  simp only [stkFoldFinal, fold]
  rfl

/-- From `d` to `e` memory, STK's own state and every register but STK_STATUS stay as they are. -/
structure KeepsStk (d e : Dev) : Prop where
  memory : KeepsMemory d e
  stk : e.stk = d.stk
  rd : RegsOutside [R.STK_STATUS] d e

namespace KeepsStk
variable {c d e : Dev}

theorem refl (d : Dev) : KeepsStk d d := ⟨.refl d, rfl, fun _ _ => rfl⟩
theorem trans (h : KeepsStk c d) (k : KeepsStk d e) : KeepsStk c e :=
  ⟨h.memory.trans k.memory, k.stk.trans h.stk, fun a ha => (k.rd a ha).trans (h.rd a ha)⟩
theorem put (d : Dev) (f : Field) (x : Nat) (status : f.reg = R.STK_STATUS) : KeepsStk d (d.put f x) :=
  ⟨(KeepsMemory.refl d).put f x, rfl, fun a ha => Dev.rd_put_ne d f x a fun same => ha (by simp [same, status])⟩
theorem post (d : Dev) (i : Island) (num sub arg : Nat) (ts : Option TS) : KeepsStk d (d.post i num sub arg ts) :=
  ⟨(KeepsMemory.refl d).post i num sub arg ts, rfl, fun _ _ => rfl⟩
theorem showReady (d : Dev) : KeepsStk d (showReady d) := put d _ _ rfl
theorem endDrain (d : Dev) : KeepsStk d (endDrain d) := by
  unfold Machine.endDrain
  split
  · exact put d _ _ rfl
  · exact refl d
theorem sayTarget (n : Nat) (d : Dev) : KeepsStk d (sayTarget n d) := by
  unfold Machine.sayTarget
  split
  · exact (put d _ _ rfl).trans (post _ _ _ _ _ _)
  · exact refl d
theorem stkCount (h : KeepsStk d e) : stkCount e = stkCount d := congrArg BitVec.toNat (h.rd R.STK_COUNT (by decide))

end KeepsStk

theorem crossings_endDrain (d : Dev) : (endDrain d).crossings = d.crossings := by
  unfold endDrain
  split <;> rfl

/-- DONE stands in STK_STATUS beside READY and STATE. -/
theorem done_showReady (d : Dev) : (showReady d).get F.STK_STATUS_DONE = d.get F.STK_STATUS_DONE :=
  Dev.get_put_other d F.STK_STATUS_READY F.STK_STATUS_DONE _ (by decide) rfl (by decide)

theorem done_endDrain (d : Dev) : (endDrain d).get F.STK_STATUS_DONE = d.get F.STK_STATUS_DONE := by
  unfold endDrain
  split
  · exact Dev.get_put_other d F.STK_STATUS_STATE F.STK_STATUS_DONE _ (by decide) rfl (by decide)
  · rfl

theorem done_sayTarget {d : Dev} {n : Nat} (target : n = d.cfg F.STK_TARGET_TARGET) :
    (sayTarget n d).get F.STK_STATUS_DONE = 1 ∧ Says .c evStkDone 0 n none d (sayTarget n d) := by
  rw [sayTarget, if_pos target]
  exact ⟨Dev.get_put_same d F.STK_STATUS_DONE 1 (by decide), says_post (d.putB_crossings _ _) _ _ _ _ _⟩

/-- Of the fold `f` on hardware `d`, what stands once it is counted and its header is written. -/
structure CountedFold (d f e : Dev) : Prop where
  count : stkCount e = stkCount d + 1
  fold : e.stk.fold = none
  clearReq : e.stk.clearReq = d.stk.clearReq
  cfg : ∀ x, e.cfg x = d.cfg x
  crossings : e.crossings = d.crossings
  sram : ∀ k, dramEnd ≤ k → k < dataBase → e.byte k = f.byte k

theorem stkCount_foldCounted {u : CapUnit} {d : Dev} (room : stkCount d + 1 < 2 ^ 32) : stkCount (foldCounted u d) = stkCount d + 1 := by
  rw [foldCounted, stkCount, Dev.rd_wr_same]
  exact Nat.mod_eq_of_lt room

theorem FoldsOnly.count {d e : Dev} (h : FoldsOnly d e) : stkCount e = stkCount d := by
  obtain ⟨_, _, _, rfl⟩ := h
  rfl

theorem FoldsOnly.counted {d f : Dev} (u : CapUnit) (only : FoldsOnly d f) (span : d.ddr.span ≤ dramEnd) (room : stkCount d + 1 < 2 ^ 32) :
    CountedFold d f (writeStkHeader (foldCounted u f)) := by
  have count := stkCount_foldCounted (u := u) (only.count ▸ room)
  rw [only.count] at count
  obtain ⟨mem, sumSat, satFirst, rfl⟩ := only
  have sram (k : Nat) := byte_writeStkHeader (d := foldCounted u { d with mem, stk := { d.stk with sumSat, satFirst } }) (k := k) span
  obtain ⟨_, _, wrote⟩ := writeStkHeader_eq (foldCounted u { d with mem, stk := { d.stk with sumSat, satFirst } })
  rw [wrote] at sram ⊢
  exact ⟨count, rfl, rfl, fun _ => rfl, rfl, sram⟩

theorem runs_stkFoldFinal {s : State} {u : CapUnit} {i : Nat} (hu : s.dev.Up) (fold : s.dev.stk.fold = some u) (inputs : u.inputs = [i])
    (fits : 4 * u.samples ≤ 0x1000000) (sum : s.dev.cfg F.STK_CTRL_SUM = 1) (env : s.dev.cfg F.STK_CTRL_ENV = 0)
    (hist : s.dev.cfg F.STK_CTRL_HIST = 0) (span : s.dev.ddr.span ≤ dramEnd) (noClear : s.dev.stk.clearReq = false)
    (room : stkCount s.dev + 1 < 2 ^ 32) :
    Runs .stkFoldFinal s fun e => stkCount e = stkCount s.dev + 1 ∧ e.stk.fold = none ∧
      (∀ j, j < u.samples → signedOf 32 (e.load (stkBase + 4 * j) 4) =
        clampInt (-(2 ^ 31)) (2 ^ 31 - 1) (signedOf 32 (s.dev.load (stkBase + 4 * j) 4) + (getSample s.dev 1 0 (u.start + j)).toInt)) ∧
      (∀ a, stkBase + 4 * u.samples ≤ a → a < badgerBase → e.byte a = s.dev.byte a) ∧
      (stkCount s.dev + 1 = s.dev.cfg F.STK_TARGET_TARGET → e.get F.STK_STATUS_DONE = 1 ∧
        Says .c evStkDone 0 (stkCount s.dev + 1) none s.dev e) := by
  have folded := foldUnit_single s.dev.stk.cols inputs fits sum env hist
  have counted := folded.only.counted u span room
  refine runs_of_unheld 13 13 stkFoldFinal hu rfl ?_
  rw [stkFoldFinal_eq fold, folded.only.count]
  generalize writeStkHeader (foldCounted u (foldUnit s.dev u s.dev.stk.cols)) = h at counted ⊢
  have ended := (KeepsStk.sayTarget (stkCount s.dev + 1) h).trans (.endDrain _)
  rw [stkBoundary_quiet (by rw [ended.stk, counted.clearReq, noClear])]
  have shown := ended.trans (.showReady _)
  have sram (k : Nat) (low : stkBase ≤ k) (high : k < badgerBase) :
      (showReady (endDrain (sayTarget (stkCount s.dev + 1) h))).byte k = (foldUnit s.dev u s.dev.stk.cols).byte k :=
    (shown.memory.byte k).trans (counted.sram k ((by decide : dramEnd ≤ stkBase).trans low) (high.trans (by decide)))
  refine ⟨shown.stkCount.trans counted.count, by rw [shown.stk, counted.fold], fun j hj => ?_, fun k low high => ?_, fun target => ?_⟩
  · rw [load_of_byte fun k low high => sram k ((Nat.le_add_right _ _).trans low) (high.trans_le (sum_below_badger hj fits)),
      folded.sums j hj, sumWith]
  · exact (sram k ((Nat.le_add_right _ _).trans low) high).trans (folded.outside k (.inr low))
  · obtain ⟨done, posted⟩ := done_sayTarget (target.trans (counted.cfg _).symm)
    refine ⟨by rw [done_showReady, done_endDrain, done], ?_⟩
    rw [Says, Dev.post, counted.crossings] at posted
    exact (crossings_endDrain _).trans posted

/-! ### CLEAR and ABORT (R227, R62) -/

/-- Outside STACK, with no fold in progress, a clear that is requested begins. -/
theorem stkBoundary_begins {d : Dev} (requested : d.stk.clearReq = true) (idle : d.stk.fold = none) (outside : d.mode ≠ mStack) :
    stkBoundary d = showReady { d with stk := { d.stk with clearReq := false, clearing := true } } := by
  simp [stkBoundary, requested, idle, outside]

theorem stkClear_begins {d : Dev} (idle : d.stk.fold = none) (outside : d.mode ≠ mStack) :
    stkClear d = showReady { d with stk := { d.stk with clearReq := false, clearing := true } } :=
  stkBoundary_begins (d := { d with stk := { d.stk with clearReq := true } }) rfl idle outside

theorem runs_stkClear {s : State} (hu : s.dev.Up) (idle : s.dev.stk.fold = none) (outside : s.dev.mode ≠ mStack) :
    Runs .stkClear s fun e => e.stk = { s.dev.stk with clearReq := false, clearing := true } ∧ e.mem = s.dev.mem ∧
      RegsOutside [R.STK_STATUS] s.dev e := by
  refine runs_of_live 13 stkClear hu rfl ?_
  rw [stkClear_begins idle outside]
  have shown := KeepsStk.showReady { s.dev with stk := { s.dev.stk with clearReq := false, clearing := true } }
  exact ⟨shown.stk, shown.memory.mem, shown.rd⟩

theorem takeWords_eq (d : Dev) (l : List CfgWord) : ∃ eff, takeWords d l = { d with eff } := by
  induction l generalizing d with
  | nil => exact ⟨_, rfl⟩
  | cons w ws ih =>
    obtain ⟨eff, taken⟩ := ih (d.efw w.addr w.val)
    exact ⟨eff, taken⟩

/-- A pending set that is taken changes the configuration in effect, and no longer waits. -/
theorem takeLatched_eq (d : Dev) (u : CfgUnit) : ∃ eff cfgc, takeLatched d u = { d with eff, cfgc } := by
  obtain ⟨eff, taken⟩ := takeWords_eq { d with cfgc := { d.cfgc with latched := d.cfgc.latched.filter (fun w => w.tgt != u) } }
    (d.cfgc.latched.filter (fun w => w.tgt == u))
  exact ⟨eff, _, taken⟩

/-- STK as a clear leaves it, before the pending configuration is taken. -/
def stkCleared (d : Dev) : Dev := (({ d with stk := {} }.wr R.STK_COUNT 0).wr R.STK_REJECT 0).putB F.STK_STATUS_DONE false

/-- A clear that ends first clears its regions. -/
theorem stkClearDone_eq {d : Dev} (clearing : d.stk.clearing = true) :
    ∃ e, stkClearDone d = showReady (writeStkHeader ((takeLatched (stkCleared e) .stk).putB F.STK_STATUS_SPILL false)) := by
  unfold stkClearDone
  rw [if_neg (by simp [clearing])]
  exact ⟨_, rfl⟩

theorem stkCleared_reads (d : Dev) : (stkCleared d).rd R.STK_COUNT = 0 ∧ (stkCleared d).rd R.STK_REJECT = 0 ∧
    (stkCleared d).get F.STK_STATUS_DONE = 0 := by
  refine ⟨?_, ?_, Dev.get_put_same _ F.STK_STATUS_DONE 0 (by decide)⟩
  · rw [stkCleared, Dev.putB, Dev.rd_put_ne _ _ _ _ (by decide), Dev.rd_wr_ne _ _ _ _ (by decide), Dev.rd_wr_same]
  · rw [stkCleared, Dev.putB, Dev.rd_put_ne _ _ _ _ (by decide), Dev.rd_wr_same]

theorem runs_stkClearDone {s : State} (hu : s.dev.Up) (clearing : s.dev.stk.clearing = true) :
    Runs .stkClearDone s fun e => e.rd R.STK_COUNT = 0 ∧ e.rd R.STK_REJECT = 0 ∧ e.get F.STK_STATUS_DONE = 0 ∧ e.stk.len = none ∧
      e.stk.clearing = false := by
  refine runs_of_unheld 13 13 stkClearDone hu rfl ?_
  obtain ⟨e, done⟩ := stkClearDone_eq clearing
  obtain ⟨count, reject, notDone⟩ := stkCleared_reads e
  obtain ⟨eff, cfgc, taken⟩ := takeLatched_eq (stkCleared e) .stk
  obtain ⟨mem, ddr, wrote⟩ := writeStkHeader_eq (({ stkCleared e with eff, cfgc } : Dev).putB F.STK_STATUS_SPILL false)
  rw [done, taken, wrote]
  have shown := (KeepsStk.put ({ stkCleared e with eff, cfgc, mem, ddr } : Dev) F.STK_STATUS_SPILL 0 rfl).trans (.showReady _)
  have stays := Dev.get_put_other (stkCleared e) F.STK_STATUS_SPILL F.STK_STATUS_DONE 0 (by decide) rfl (by decide)
  exact ⟨(shown.rd _ (by decide)).trans count, (shown.rd _ (by decide)).trans reject, (done_showReady _).trans (stays.trans notDone),
    congrArg Stk.len shown.stk, congrArg Stk.clearing shown.stk⟩

theorem stkAbort_on {d : Dev} (on : d.unitState .stk = stOn) :
    stkAbort d = showReady ({ d with stk := { d.stk with fold := none, len := if stkCount d = 0 then none else d.stk.len } }.setUnit .stk
      stAborting) := by
  rw [stkAbort, if_neg (by rw [on]; decide)]

theorem runs_stkAbort {s : State} (hu : s.dev.Up) (on : s.dev.unitState .stk = stOn) :
    Runs .stkAbort s fun e => e.unitState .stk = stAborting ∧ e.stk.fold = none ∧ stkCount e = stkCount s.dev ∧ e.mem = s.dev.mem ∧
      RegsOutside [R.STK_STATUS] s.dev e := by
  refine runs_of_live 13 stkAbort hu rfl ?_
  rw [stkAbort_on on]
  generalize emptied : ({ s.dev with stk := { s.dev.stk with
    fold := none, len := if stkCount s.dev = 0 then none else s.dev.stk.len } } : Dev) = d
  have shown := (KeepsStk.put d F.STK_STATUS_STATE stAborting rfl).trans (.showReady _)
  have aborting : (showReady (d.setUnit .stk stAborting)).unitState .stk = stAborting :=
    (Dev.get_put_other _ F.STK_STATUS_READY F.STK_STATUS_STATE _ (by decide) rfl (by decide)).trans
      (Dev.get_put_same d F.STK_STATUS_STATE stAborting (by decide))
  subst emptied
  exact ⟨aborting, congrArg Stk.fold shown.stk, shown.stkCount, shown.memory.mem, shown.rd⟩

/-- Settles O36: the fold by induction on its samples, each stored where none before it was; the header it ends with lies outside STK
SRAM. A clear and an abort change STK's own state and status. -/
theorem stackFolding : Obligations.StackFolding :=
  ⟨fun _ _ _ hu fold inputs _ fits sum env hist span noClear room =>
      runs_stkFoldFinal hu fold inputs fits sum env hist span noClear room,
    fun _ hu idle outside => runs_stkClear hu idle outside,
    fun _ hu clearing => runs_stkClearDone hu clearing,
    fun _ hu on => runs_stkAbort hu on⟩

end Sys2Proof.Machine
end

section
/-! SUPPORT. O5, O6, O7: the fields of an instruction word, and the decoder against the encoder. -/
namespace Sys2Proof.Machine

/-! ### What the decoder reads of a word of each format (Table 9.2) -/

/-- The low bits of a number that ends in an immediate. -/
theorem mod_two_pow_low {x hi j k : Nat} (imm : BitVec j) (hx : x = hi * 2 ^ j + imm.toNat) (hk : k ≤ j) :
    x % 2 ^ k = imm.toNat % 2 ^ k := by
  obtain ⟨m, hm⟩ := Nat.pow_dvd_pow 2 hk
  rw [hx, hm, Nat.mul_left_comm, Nat.mul_add_mod]

theorem ofNat_low {x hi j k : Nat} (imm : BitVec j) (hx : x = hi * 2 ^ j + imm.toNat) (hk : k ≤ j) : BitVec.ofNat k x = imm.setWidth k :=
  BitVec.eq_of_toNat_eq (by rw [BitVec.toNat_ofNat, BitVec.toNat_setWidth, mod_two_pow_low imm hx hk])

section
variable {op : Nat} (hop : op < 64) (d a b : Fin 16)
include hop

theorem toNat_encU (imm : BitVec 22) : (encU op d imm).toNat = (op * 2 ^ 4 + d.val) * 2 ^ 22 + imm.toNat := by
  rw [encU, BitVec.toNat_ofNat, Nat.mod_eq_of_lt] <;> omega
theorem toNat_encI (imm : BitVec 18) : (encI op d a imm).toNat = ((op * 2 ^ 4 + d.val) * 2 ^ 4 + a.val) * 2 ^ 18 + imm.toNat := by
  rw [encI, BitVec.toNat_ofNat, Nat.mod_eq_of_lt] <;> omega
theorem toNat_encC (blk : BitVec 5) (woff : BitVec 17) :
    (encC op d blk woff).toNat = ((op * 2 ^ 4 + d.val) * 2 ^ 5 + blk.toNat) * 2 ^ 17 + woff.toNat := by
  rw [encC, BitVec.toNat_ofNat, Nat.mod_eq_of_lt] <;> omega
theorem toNat_encR : (encR op d a b).toNat = (((op * 2 ^ 4 + d.val) * 2 ^ 4 + a.val) * 2 ^ 4 + b.val) * 2 ^ 14 := by
  rw [encR, BitVec.toNat_ofNat, Nat.mod_eq_of_lt] <;> omega

theorem encU_op (imm : BitVec 22) : (encU op d imm).toNat / 2 ^ 26 = op := by rw [toNat_encU hop]; omega
theorem encU_d (imm : BitVec 22) : Fin.ofNat 16 ((encU op d imm).toNat / 2 ^ 22) = d := by
  rw [toNat_encU hop, Fin.ext_iff, Fin.val_ofNat]; omega
theorem encU_mod (imm : BitVec 22) {k : Nat} (hk : k ≤ 22) : (encU op d imm).toNat % 2 ^ k = imm.toNat % 2 ^ k :=
  mod_two_pow_low imm (toNat_encU hop d imm) hk
theorem encU_ofNat (imm : BitVec 22) {k : Nat} (hk : k ≤ 22) : BitVec.ofNat k (encU op d imm).toNat = imm.setWidth k :=
  ofNat_low imm (toNat_encU hop d imm) hk
theorem encU_zero_imm : (encU op d 0).toNat % 2 ^ 22 = 0 := encU_mod hop d 0 le_rfl
theorem encU_zero : (encU op 0 0).toNat % 2 ^ 26 = 0 := by rw [toNat_encU hop]; simp; omega

theorem encI_op (imm : BitVec 18) : (encI op d a imm).toNat / 2 ^ 26 = op := by rw [toNat_encI hop]; omega
theorem encI_d (imm : BitVec 18) : Fin.ofNat 16 ((encI op d a imm).toNat / 2 ^ 22) = d := by
  rw [toNat_encI hop, Fin.ext_iff, Fin.val_ofNat]; omega
theorem encI_a (imm : BitVec 18) : Fin.ofNat 16 ((encI op d a imm).toNat / 2 ^ 18) = a := by
  rw [toNat_encI hop, Fin.ext_iff, Fin.val_ofNat]; omega
theorem encI_mod (imm : BitVec 18) {k : Nat} (hk : k ≤ 18) : (encI op d a imm).toNat % 2 ^ k = imm.toNat % 2 ^ k :=
  mod_two_pow_low imm (toNat_encI hop d a imm) hk
theorem encI_ofNat (imm : BitVec 18) {k : Nat} (hk : k ≤ 18) : BitVec.ofNat k (encI op d a imm).toNat = imm.setWidth k :=
  ofNat_low imm (toNat_encI hop d a imm) hk

theorem encR_op : (encR op d a b).toNat / 2 ^ 26 = op := by rw [toNat_encR hop]; omega
theorem encR_d : Fin.ofNat 16 ((encR op d a b).toNat / 2 ^ 22) = d := by rw [toNat_encR hop, Fin.ext_iff, Fin.val_ofNat]; omega
theorem encR_a : Fin.ofNat 16 ((encR op d a b).toNat / 2 ^ 18) = a := by rw [toNat_encR hop, Fin.ext_iff, Fin.val_ofNat]; omega
theorem encR_b : Fin.ofNat 16 ((encR op d a b).toNat / 2 ^ 14) = b := by rw [toNat_encR hop, Fin.ext_iff, Fin.val_ofNat]; omega
theorem encR_zero : (encR op d a b).toNat % 2 ^ 14 = 0 := by rw [toNat_encR hop]; omega
theorem encR_zero_b : (encR op d a 0).toNat % 2 ^ 18 = 0 := by rw [toNat_encR hop]; simp; omega

theorem encC_op (blk : BitVec 5) (woff : BitVec 17) : (encC op d blk woff).toNat / 2 ^ 26 = op := by rw [toNat_encC hop]; omega
theorem encC_d (blk : BitVec 5) (woff : BitVec 17) : Fin.ofNat 16 ((encC op d blk woff).toNat / 2 ^ 22) = d := by
  rw [toNat_encC hop, Fin.ext_iff, Fin.val_ofNat]; omega
theorem encC_blk (blk : BitVec 5) (woff : BitVec 17) : BitVec.ofNat 5 ((encC op d blk woff).toNat / 2 ^ 17) = blk :=
  BitVec.eq_of_toNat_eq (by rw [toNat_encC hop, BitVec.toNat_ofNat]; omega)
theorem encC_woff (blk : BitVec 5) (woff : BitVec 17) : BitVec.ofNat 17 (encC op d blk woff).toNat = woff :=
  BitVec.eq_of_toNat_eq (by rw [toNat_encC hop, BitVec.toNat_ofNat]; omega)

end

/-- The mask of a WAIT is an immediate of 18 bits whose upper two are 0. -/
theorem encW_eq_encI (op : Nat) (d a : Fin 16) (mask : BitVec 16) : encW op d a mask = encI op d a (mask.setWidth 18) := by
  rw [encW, encI, BitVec.toNat_setWidth_of_le (by decide)]

/-! ### Operands that are narrower than the immediate they stand in -/

section
variable {op : Nat} (hop : op < 64) (d a : Fin 16) {k : Nat}
include hop

theorem encI_narrow (hk : k ≤ 18) (imm : BitVec k) : BitVec.ofNat k (encI op d a (imm.setWidth 18)).toNat = imm := by
  rw [encI_ofNat hop d a _ hk, BitVec.setWidth_setWidth_of_le _ hk, BitVec.setWidth_eq]
theorem encI_narrow_mod (hk : k ≤ 18) (imm : BitVec k) : (encI op d a (imm.setWidth 18)).toNat % 2 ^ 18 = imm.toNat := by
  rw [encI_mod hop d a _ le_rfl, Nat.mod_eq_of_lt (BitVec.isLt _), BitVec.toNat_setWidth_of_le hk]
theorem encI_number {v : Nat} (hv : v < 2 ^ 18) : (encI op d a (BitVec.ofNat 18 v)).toNat % 2 ^ 18 = v := by
  rw [encI_mod hop d a _ le_rfl, BitVec.toNat_ofNat, Nat.mod_mod, Nat.mod_eq_of_lt hv]

theorem encU_narrow (hk : k ≤ 22) (imm : BitVec k) : BitVec.ofNat k (encU op d (imm.setWidth 22)).toNat = imm := by
  rw [encU_ofNat hop d _ hk, BitVec.setWidth_setWidth_of_le _ hk, BitVec.setWidth_eq]
theorem encU_narrow_mod (hk : k ≤ 22) (imm : BitVec k) : (encU op d (imm.setWidth 22)).toNat % 2 ^ 22 = imm.toNat := by
  rw [encU_mod hop d _ le_rfl, Nat.mod_eq_of_lt (BitVec.isLt _), BitVec.toNat_setWidth_of_le hk]
theorem encU_number {v : Nat} (hv : v < 2 ^ 22) : (encU op d (BitVec.ofNat 22 v)).toNat % 2 ^ 22 = v := by
  rw [encU_mod hop d _ le_rfl, BitVec.toNat_ofNat, Nat.mod_mod, Nat.mod_eq_of_lt hv]

end

/-- A number below m, where m divides 2^k, read off the low k bits of a word. -/
theorem fin_ofNat_of_mod {x k m : Nat} [NeZero m] (q : Fin m) (hx : x % 2 ^ k = q.val) (hm : m ∣ 2 ^ k) : Fin.ofNat m x = q := by
  rw [Fin.ext_iff, Fin.val_ofNat, ← Nat.mod_mod_of_dvd x hm, hx, Nat.mod_eq_of_lt q.isLt]

/-! ### An instruction's word decodes to it -/

theorem aqsDecode_encode {n : Fin 8} {i : Instr} (hn : aqsContext i = some n) :
    ∃ w, aqsEncode i = some w ∧ (wellFormed i = true → aqsDecode n w = some i) := by
  cases i with
  | nop m | ret m | arm m | disarm m | force m | halt m | bkpt m =>
    cases hn
    refine ⟨_, rfl, fun _ => ?_⟩
    simp only [aqsDecode, -Nat.reducePow, encU_op, encU_zero, Nat.reduceLT, if_true]
  | add m d a b | sub m d a b | and m d a b | or m d a b | xor m d a b | shl m d a b | shr m d a b | sar m d a b | mul m d a b
  | fadd m d a b | cmp m a b =>
    cases hn
    refine ⟨_, rfl, fun _ => ?_⟩
    simp only [aqsDecode, -Nat.reducePow, encR_op, encR_d, encR_a, encR_b, Nat.reduceLT, Nat.reduceAdd, encR_zero, decide_true,
      Bool.and_true, if_true]
  | jr m a | cfgl m d a =>
    cases hn
    refine ⟨_, rfl, fun _ => ?_⟩
    simp only [aqsDecode, -Nat.reducePow, encR_op, encR_d, encR_a, Nat.reduceLT, Nat.reduceAdd, encR_zero_b, decide_true, Bool.and_true,
      if_true]
  | addi m d a imm | andi m d a imm | ori m d a imm | xori m d a imm | ld m d a imm | ldw m d a imm | st m d a imm | stw m d a imm
  | csrri m d a imm | csrwi m d a imm | cmpi m a imm =>
    cases hn
    refine ⟨_, rfl, fun _ => ?_⟩
    simp only [aqsDecode, -Nat.reducePow, encI_op, encI_d, encI_a, encI_ofNat, Nat.reduceLT, le_refl, BitVec.setWidth_eq, if_true]
  | movi m d imm | movh m d imm | loop m d imm | call m imm | waitc m imm =>
    cases hn
    refine ⟨_, rfl, fun _ => ?_⟩
    simp only [aqsDecode, -Nat.reducePow, encU_op, encU_d, encU_ofNat, Nat.reduceLT, le_refl, BitVec.setWidth_eq, if_true]
  | csrr m d blk woff | csrw m d blk woff =>
    cases hn
    refine ⟨_, rfl, fun _ => ?_⟩
    simp only [aqsDecode, -Nat.reducePow, encC_op, encC_d, encC_blk, encC_woff, Nat.reduceLT]
  | br m cond imm =>
    cases hn
    refine ⟨_, rfl, fun wf => ?_⟩
    have notF : Fin.ofNat 16 cond.toNat ≠ 15 := by
      have := cond.isLt
      intro isF
      have value : cond.toNat % 16 = 15 := congrArg Fin.val isF
      simp only [wellFormed, bne_iff_ne, ne_eq] at wf
      exact wf (BitVec.eq_of_toNat_eq (by rw [BitVec.toNat_ofNat]; omega))
    have code : BitVec.ofNat 4 (Fin.ofNat 16 cond.toNat).val = cond :=
      BitVec.eq_of_toNat_eq (by rw [BitVec.toNat_ofNat, Fin.val_ofNat]; omega)
    simp only [aqsDecode, -Nat.reducePow, encU_op, encU_d, encU_ofNat, Nat.reduceLT, le_refl, BitVec.setWidth_eq, code, if_pos notF]
  | shli m d a k | shri m d a k | sari m d a k =>
    cases hn
    refine ⟨_, rfl, fun _ => ?_⟩
    simp only [aqsDecode, -Nat.reducePow, encI_op, encI_d, encI_a, encI_narrow, encI_narrow_mod, Nat.reduceLT, Nat.reduceAdd,
      Nat.reduceLeDiff, if_pos k.isLt]
  | wait m d a mask =>
    cases hn
    refine ⟨_, rfl, fun _ => ?_⟩
    simp only [aqsDecode, -Nat.reducePow, encW_eq_encI, encI_op, encI_d, encI_a, encI_narrow, encI_narrow_mod, Nat.reduceLT, Nat.reduceAdd,
      Nat.reduceLeDiff, if_pos mask.isLt]
  | emit m a sub =>
    cases hn
    refine ⟨_, rfl, fun _ => ?_⟩
    simp only [aqsDecode, -Nat.reducePow, encI_op, encI_d, encI_a, encI_narrow, encI_narrow_mod, Nat.reduceLT, Nat.reduceAdd,
      Nat.reduceLeDiff, decide_true, Bool.true_and, decide_eq_true_eq, if_pos sub.isLt]
  | wset m slot x | evr m slot x =>
    cases hn
    refine ⟨_, rfl, fun _ => ?_⟩
    simp only [aqsDecode, -Nat.reducePow, encU_op, encU_d, encU_narrow, encU_narrow_mod, Nat.reduceLT, Nat.reduceAdd, Nat.reduceLeDiff,
      if_pos x.isLt]
  | commit m d | tsr m d =>
    cases hn
    refine ⟨_, rfl, fun _ => ?_⟩
    simp only [aqsDecode, -Nat.reducePow, encU_op, encU_d, encU_zero_imm, Nat.reduceLT, Nat.reduceAdd, if_true]
  | waitt m a rel =>
    cases hn
    refine ⟨_, rfl, fun _ => ?_⟩
    have low := encI_number (op := 0x27) (by decide) 0 a (v := rel.toNat) (by cases rel <;> decide)
    have bit : ((encI 0x27 0 a (BitVec.ofNat 18 rel.toNat)).toNat % 2 == 1) = rel := by
      cases rel <;> simp only [Bool.toNat_false, Bool.toNat_true, beq_eq_false_iff_ne, beq_iff_eq] at low ⊢ <;> omega
    simp only [aqsDecode, -Nat.reducePow, encI_op, encI_d, encI_a, low, bit, Nat.reduceLT, Nat.reduceAdd, decide_true, Bool.true_and,
      decide_eq_true_eq, if_pos rel.toNat_lt]
  | lyq m d a q | dmaq m d a q =>
    cases hn
    refine ⟨_, rfl, fun _ => ?_⟩
    have low (op : Nat) (hop : op < 64) := encI_number hop d a (v := q.val) (by omega)
    simp only [aqsDecode, -Nat.reducePow, encI_op, encI_d, encI_a, low, fin_ofNat_of_mod q (low _ _) (by decide), Nat.reduceLT,
      Nat.reduceAdd, if_pos q.isLt]
  | start m q a =>
    cases hn
    refine ⟨_, rfl, fun _ => ?_⟩
    have low := encI_number (op := 0x33) (by decide) 0 a (v := q.val) (by omega)
    simp only [aqsDecode, -Nat.reducePow, encI_op, encI_d, encI_a, low, fin_ofNat_of_mod q low (by decide), Nat.reduceLT,
      Nat.reduceAdd, decide_true, Bool.true_and, decide_eq_true_eq, if_pos q.isLt]
  | stop m q =>
    cases hn
    refine ⟨_, rfl, fun _ => ?_⟩
    have low := encU_number (op := 0x34) (by decide) 0 (v := q.val) (by omega)
    simp only [aqsDecode, -Nat.reducePow, encU_op, encU_d, low, fin_ofNat_of_mod q low (by decide), Nat.reduceLT,
      Nat.reduceAdd, decide_true, Bool.true_and, decide_eq_true_eq, if_pos q.isLt]
  | mode m how wake arr mode =>
    cases hn
    refine ⟨_, rfl, fun _ => ?_⟩
    have hh := how.toNat_lt
    have hw := wake.toNat_lt
    have low := encU_number (op := 0x30) (by decide) 0 (v := how.toNat * 512 + wake.toNat * 256 + arr.toNat * 16 + mode.toNat) (by omega)
    rw [← modeImm] at low
    have zeros : (encU 0x30 0 (modeImm how wake arr mode)).toNat % 2 ^ 22 / 1024 = 0 ∧
        (encU 0x30 0 (modeImm how wake arr mode)).toNat / 64 % 4 = 0 ∧ (encU 0x30 0 (modeImm how wake arr mode)).toNat / 8 % 2 = 0 := by
      omega
    have hhow : ((encU 0x30 0 (modeImm how wake arr mode)).toNat / 512 % 2 == 1) = how := by
      cases how <;> simp only [Bool.toNat_false, Bool.toNat_true, beq_eq_false_iff_ne, beq_iff_eq] at low ⊢ <;> omega
    have hwake : ((encU 0x30 0 (modeImm how wake arr mode)).toNat / 256 % 2 == 1) = wake := by
      cases wake <;> simp only [Bool.toNat_false, Bool.toNat_true, beq_eq_false_iff_ne, beq_iff_eq] at low ⊢ <;> omega
    have harr : BitVec.ofNat 2 ((encU 0x30 0 (modeImm how wake arr mode)).toNat / 16) = arr :=
      BitVec.eq_of_toNat_eq (by rw [BitVec.toNat_ofNat]; omega)
    have hmode : BitVec.ofNat 3 (encU 0x30 0 (modeImm how wake arr mode)).toNat = mode :=
      BitVec.eq_of_toNat_eq (by rw [BitVec.toNat_ofNat]; omega)
    simp only [aqsDecode, -Nat.reducePow, encU_op, encU_d, Nat.reduceLT, Nat.reduceAdd, zeros, hhow, hwake, harr, hmode, decide_true,
      Bool.and_self, if_true]
  | _ => cases hn

theorem aqsDecode_of_encode {n : Fin 8} {i : Instr} {w : Word} (hn : aqsContext i = some n) (hw : aqsEncode i = some w)
    (wf : wellFormed i = true) : aqsDecode n w = some i := by
  obtain ⟨v, hv, decodes⟩ := aqsDecode_encode hn
  cases hw.symm.trans hv
  exact decodes wf

/-! ### A word is its fields in their places -/

section
variable {w : Word} {op : Nat} (hop : w.toNat / 2 ^ 26 = op)
include hop

theorem encU_fields : encU op (Fin.ofNat 16 (w.toNat / 2 ^ 22)) (BitVec.ofNat 22 w.toNat) = w :=
  BitVec.eq_of_toNat_eq (by simp only [encU, BitVec.toNat_ofNat, Fin.val_ofNat]; omega)
theorem encI_fields : encI op (Fin.ofNat 16 (w.toNat / 2 ^ 22)) (Fin.ofNat 16 (w.toNat / 2 ^ 18)) (BitVec.ofNat 18 w.toNat) = w :=
  BitVec.eq_of_toNat_eq (by simp only [encI, BitVec.toNat_ofNat, Fin.val_ofNat]; omega)
theorem encC_fields : encC op (Fin.ofNat 16 (w.toNat / 2 ^ 22)) (BitVec.ofNat 5 (w.toNat / 2 ^ 17)) (BitVec.ofNat 17 w.toNat) = w :=
  BitVec.eq_of_toNat_eq (by simp only [encC, BitVec.toNat_ofNat, Fin.val_ofNat]; omega)
theorem encR_fields (low : w.toNat % 2 ^ 14 = 0) :
    encR op (Fin.ofNat 16 (w.toNat / 2 ^ 22)) (Fin.ofNat 16 (w.toNat / 2 ^ 18)) (Fin.ofNat 16 (w.toNat / 2 ^ 14)) = w :=
  BitVec.eq_of_toNat_eq (by simp only [encR, BitVec.toNat_ofNat, Fin.val_ofNat]; omega)
theorem encR_fields_zero (low : w.toNat % 2 ^ 18 = 0) :
    encR op (Fin.ofNat 16 (w.toNat / 2 ^ 22)) (Fin.ofNat 16 (w.toNat / 2 ^ 18)) 0 = w :=
  BitVec.eq_of_toNat_eq (by simp only [encR, BitVec.toNat_ofNat, Fin.val_ofNat, Fin.val_zero]; omega)
theorem encU_fields_zero_imm (low : w.toNat % 2 ^ 22 = 0) : encU op (Fin.ofNat 16 (w.toNat / 2 ^ 22)) 0 = w :=
  BitVec.eq_of_toNat_eq (by simp only [encU, BitVec.toNat_ofNat, Fin.val_ofNat, BitVec.ofNat_eq_ofNat]; omega)
theorem encU_fields_zero (low : w.toNat % 2 ^ 26 = 0) : encU op 0 0 = w :=
  BitVec.eq_of_toNat_eq (by simp only [encU, BitVec.toNat_ofNat, Fin.val_zero, BitVec.ofNat_eq_ofNat]; omega)

end

/-- An operand that is as wide as the bits that are not 0 stands for the whole immediate. -/
theorem setWidth_ofNat_low {x j k : Nat} (low : x % 2 ^ j < 2 ^ k) (hk : k ≤ j) : (BitVec.ofNat k x).setWidth j = BitVec.ofNat j x :=
  BitVec.eq_of_toNat_eq (by
    rw [BitVec.toNat_setWidth_of_le hk, BitVec.toNat_ofNat, BitVec.toNat_ofNat, ← Nat.mod_mod_of_dvd x (Nat.pow_dvd_pow 2 hk),
      Nat.mod_eq_of_lt low])
theorem ofNat_finOfNat_low {x j m : Nat} [NeZero m] (low : x % 2 ^ j < m) (hm : m ∣ 2 ^ j) :
    BitVec.ofNat j (Fin.ofNat m x).val = BitVec.ofNat j x :=
  BitVec.eq_of_toNat_eq (by
    rw [BitVec.toNat_ofNat, BitVec.toNat_ofNat, Fin.val_ofNat, ← Nat.mod_mod_of_dvd x hm, Nat.mod_eq_of_lt low, Nat.mod_mod])

/-! ### A word that decodes is its instruction's -/

theorem encode_decode {n : Fin 8} {w : Word} {i : Instr} (h : aqsDecode n w = some i) :
    aqsEncode i = some w ∧ aqsContext i = some n ∧ wellFormed i = true := by
  unfold aqsDecode at h
  simp only [Bool.and_eq_true, decide_eq_true_eq] at h
  split at h <;> rename_i hop <;> simp only [Option.ite_none_right_eq_some, Option.some.injEq, reduceCtorEq] at h
  case h_1 | h_29 | h_45 | h_46 | h_47 | h_53 | h_54 =>
    obtain ⟨low, rfl⟩ := h
    exact ⟨congrArg some (encU_fields_zero hop low), rfl, rfl⟩
  case h_2 | h_3 | h_4 | h_5 | h_6 | h_7 | h_8 | h_9 | h_10 | h_26 =>
    obtain ⟨low, rfl⟩ := h
    exact ⟨congrArg some (encR_fields hop low), rfl, rfl⟩
  case h_11 =>
    obtain ⟨⟨hd, low⟩, rfl⟩ := h
    exact ⟨congrArg some (hd ▸ encR_fields hop low), rfl, rfl⟩
  case h_12 | h_13 | h_14 | h_15 | h_22 | h_23 | h_24 | h_25 | h_34 | h_35 =>
    subst h
    exact ⟨congrArg some (encI_fields hop), rfl, rfl⟩
  case h_19 =>
    obtain ⟨hd, rfl⟩ := h
    exact ⟨congrArg some (hd ▸ encI_fields hop), rfl, rfl⟩
  case h_16 | h_17 | h_18 =>
    obtain ⟨low, rfl⟩ := h
    exact ⟨congrArg some ((congrArg _ (setWidth_ofNat_low low (by decide))).trans (encI_fields hop)), rfl, rfl⟩
  case h_38 =>
    obtain ⟨low, rfl⟩ := h
    have word := (congrArg _ (setWidth_ofNat_low low (by decide))).trans (encI_fields hop)
    exact ⟨congrArg some ((encW_eq_encI _ _ _ _).trans word), rfl, rfl⟩
  case h_50 =>
    obtain ⟨⟨hd, low⟩, rfl⟩ := h
    exact ⟨congrArg some ((congrArg _ (setWidth_ofNat_low low (by decide))).trans (hd ▸ encI_fields hop)), rfl, rfl⟩
  case h_41 | h_42 =>
    obtain ⟨low, rfl⟩ := h
    exact ⟨congrArg some ((congrArg _ (setWidth_ofNat_low low (by decide))).trans (encU_fields hop)), rfl, rfl⟩
  case h_20 | h_21 | h_31 =>
    subst h
    exact ⟨congrArg some (encU_fields hop), rfl, rfl⟩
  case h_28 | h_40 =>
    obtain ⟨hd, rfl⟩ := h
    exact ⟨congrArg some (hd ▸ encU_fields hop), rfl, rfl⟩
  case h_27 =>
    obtain ⟨notF, rfl⟩ := h
    have code : Fin.ofNat 16 (BitVec.ofNat 4 (Fin.ofNat 16 (w.toNat / 2 ^ 22)).val).toNat = Fin.ofNat 16 (w.toNat / 2 ^ 22) := by
      simp only [Fin.ext_iff, Fin.val_ofNat, BitVec.toNat_ofNat]; omega
    refine ⟨congrArg some (code.symm ▸ encU_fields hop), rfl, bne_iff_ne.mpr fun is15 => notF ?_⟩
    rw [← code, is15]
    rfl
  case h_30 =>
    obtain ⟨⟨hd, low⟩, rfl⟩ := h
    have word := congrArg (encR 0x1E · (Fin.ofNat 16 (w.toNat / 2 ^ 18)) 0) hd
    exact ⟨congrArg some (word.symm.trans (encR_fields_zero hop low)), rfl, rfl⟩
  case h_36 =>
    obtain ⟨low, rfl⟩ := h
    exact ⟨congrArg some (encR_fields_zero hop low), rfl, rfl⟩
  case h_32 | h_33 =>
    subst h
    exact ⟨congrArg some (encC_fields hop), rfl, rfl⟩
  case h_37 | h_43 =>
    obtain ⟨low, rfl⟩ := h
    exact ⟨congrArg some (encU_fields_zero_imm hop low), rfl, rfl⟩
  case h_39 =>
    obtain ⟨⟨hd, low⟩, rfl⟩ := h
    have bit : BitVec.ofNat 18 (w.toNat % 2 == 1).toNat = BitVec.ofNat 18 w.toNat := by
      apply BitVec.eq_of_toNat_eq
      rcases Nat.mod_two_eq_zero_or_one w.toNat with h2 | h2 <;> simp only [h2, BitVec.toNat_ofNat] <;> simp <;> omega
    exact ⟨congrArg some ((congrArg _ bit).trans (hd ▸ encI_fields hop)), rfl, rfl⟩
  case h_44 | h_49 =>
    obtain ⟨low, rfl⟩ := h
    exact ⟨congrArg some ((congrArg _ (ofNat_finOfNat_low low (by decide))).trans (encI_fields hop)), rfl, rfl⟩
  case h_51 =>
    obtain ⟨⟨hd, low⟩, rfl⟩ := h
    exact ⟨congrArg some ((congrArg _ (ofNat_finOfNat_low low (by decide))).trans (hd ▸ encI_fields hop)), rfl, rfl⟩
  case h_52 =>
    obtain ⟨⟨hd, low⟩, rfl⟩ := h
    exact ⟨congrArg some ((congrArg _ (ofNat_finOfNat_low low (by decide))).trans (hd ▸ encU_fields hop)), rfl, rfl⟩
  case h_48 =>
    obtain ⟨⟨⟨⟨hd, high⟩, six⟩, three⟩, rfl⟩ := h
    have imm : modeImm (w.toNat / 512 % 2 == 1) (w.toNat / 256 % 2 == 1) (BitVec.ofNat 2 (w.toNat / 16)) (BitVec.ofNat 3 w.toNat) =
        BitVec.ofNat 22 w.toNat := by
      have bit (k : Nat) : (w.toNat / k % 2 == 1).toNat = w.toNat / k % 2 := by
        rcases Nat.mod_two_eq_zero_or_one (w.toNat / k) with h2 | h2 <;> rw [h2] <;> rfl
      refine BitVec.eq_of_toNat_eq ?_
      simp only [modeImm, bit, BitVec.toNat_ofNat]
      omega
    exact ⟨congrArg some ((congrArg _ imm).trans (hd ▸ encU_fields hop)), rfl, rfl⟩

/-! ### Words that are no instruction (R234) -/

theorem aqsDecode_reserved_opcode (n : Fin 8) {w : Word} (h : w.toNat / 2 ^ 26 = 0 ∨ 0x37 ≤ w.toNat / 2 ^ 26) :
    aqsDecode n w = none := by
  unfold aqsDecode
  dsimp only
  split
  case h_55 => rfl
  all_goals omega

theorem aqsDecode_reserved_condition (n : Fin 8) {w : Word} (hop : w.toNat / 2 ^ 26 = 0x1B) (cond : w.toNat / 2 ^ 22 % 16 = 15) :
    aqsDecode n w = none := by
  have isF : Fin.ofNat 16 (w.toNat / 2 ^ 22) = 15 := Fin.ext cond
  simp only [aqsDecode, -Nat.reducePow, hop, isF, ne_eq, not_true_eq_false, if_false]

/-- Settles O5, an instruction at a time: the decoder reads back the fields that the encoder placed. -/
theorem aqsDecodeEncode : Obligations.AqsDecodeEncode := fun _ _ => aqsDecode_encode

/-- Settles O6: a word that decodes is its instruction's, so a set bit that must be 0 makes it none. -/
theorem aqsReservedWords : Obligations.AqsReservedWords := by
  refine ⟨fun n _ => aqsDecode_reserved_opcode n, fun n _ => aqsDecode_reserved_condition n, fun _ _ _ => encode_decode,
    fun s n hu run idle none => ?_⟩
  have acts : illegalOp n s.dev = s.dev.faults n 0x0A01 (s.dev.ctx n).pc := by
    rw [illegalOp, if_pos (by simp [mayRun, run, idle, none])]
    rfl
  change State.act (live 10 (unheld 10 (illegalOp n))) s = _
  rw [State.act, live_up hu, unheld_up hu, acts]

/-- Settles O7: the words are those instructions' own, or have a reserved opcode, condition 0xF, or a set bit of NOP. -/
theorem aqsWorkedWords : Obligations.AqsWorkedWords := by
  constructor
  · intro n p hp
    simp only [List.mem_cons, List.not_mem_nil, or_false] at hp
    rcases hp with rfl | rfl | rfl | rfl | rfl | rfl | rfl | rfl | rfl | rfl | rfl <;> exact aqsDecode_of_encode rfl rfl rfl
  · intro n w hw
    simp only [List.mem_cons, List.not_mem_nil, or_false] at hw
    rcases hw with rfl | rfl | rfl | rfl
    · exact aqsDecode_reserved_opcode n (by decide)
    · exact aqsDecode_reserved_opcode n (by decide)
    · rfl
    · exact aqsDecode_reserved_condition n (by decide) (by decide)

end Sys2Proof.Machine
end

section
/-! SUPPORT. The contexts of AQS: their registers, how an instruction ends, and when one is issued. -/
namespace Sys2Proof.Machine

/-! ### The state of a context (R232) -/

@[simp] theorem Dev.ctx_setCtx (d : Dev) (n : Fin 8) (c : Ctx) : (d.setCtx n c).ctx n = c :=
  Vector.getElem_set_self n.isLt

@[simp] theorem Ctx.reg_zero (x : Ctx) : x.reg 0 = 0 := rfl
@[simp] theorem Ctx.setReg_zero (x : Ctx) (v : Word64) : x.setReg 0 v = x := rfl

theorem Ctx.setReg_eq (x : Ctx) (j : Fin 16) (v : Word64) : ∃ g, x.setReg j v = { x with g := g } := by
  by_cases h : j = 0
  · exact ⟨x.g, if_pos h⟩
  · exact ⟨x.g.set j.val v, if_neg h⟩

theorem Ctx.reg_setReg (x : Ctx) (d j : Fin 16) (v : Word64) : (x.setReg d v).reg j = if j = d ∧ d ≠ 0 then v else x.reg j := by
  by_cases hd : d = 0
  · subst hd; simp
  · by_cases hj : j = d
    · subst hj
      have new : (x.g.set j.val v).get j = v := Vector.getElem_set_self j.isLt
      simp [Ctx.reg, Ctx.setReg, hd, new]
    · have old : (x.g.set d.val v).get j = x.g.get j := Vector.getElem_set_ne d.isLt j.isLt fun e => hj (Fin.ext e.symm)
      simp [Ctx.reg, Ctx.setReg, hd, hj, old]

section
variable (x : Ctx) (j : Fin 16) (v : Word64)

@[simp] theorem Ctx.setReg_run : (x.setReg j v).run = x.run := by obtain ⟨g, h⟩ := x.setReg_eq j v; rw [h]
@[simp] theorem Ctx.setReg_single : (x.setReg j v).single = x.single := by obtain ⟨g, h⟩ := x.setReg_eq j v; rw [h]
@[simp] theorem Ctx.setReg_pc : (x.setReg j v).pc = x.pc := by obtain ⟨g, h⟩ := x.setReg_eq j v; rw [h]
@[simp] theorem Ctx.setReg_late : (x.setReg j v).late = x.late := by obtain ⟨g, h⟩ := x.setReg_eq j v; rw [h]

end

/-! ### The end of an instruction (R229, R242, R254) -/

/-- Without a STOP or a STEP, the instruction's end leaves the context RUNNING. -/
theorem jump_eq_goes {c : Ctx} (run : c.run ≠ .stopping) (single : c.single = false) (n : Fin 8) (pc : BitVec 19) (d : Dev) :
    jump n c pc d = d.goes n c pc := by
  simp [jump, Dev.goes, Ctx.next, run, single]

theorem finish_eq_goes {c : Ctx} (run : c.run ≠ .stopping) (single : c.single = false) (n : Fin 8) (d : Dev) :
    finish n c d = d.goes n c (c.pc + 1) :=
  jump_eq_goes run single n (c.pc + 1) d

section
variable (d : Dev) (n : Fin 8) (c : Ctx) (pc : BitVec 19)

@[simp] theorem Dev.goes_mem : (d.goes n c pc).mem = d.mem := rfl
@[simp] theorem Dev.rd_goes (a : Nat) : (d.goes n c pc).rd a = d.rd a := rfl
@[simp] theorem Dev.rd64_goes (a : Nat) : (d.goes n c pc).rd64 a = d.rd64 a := rfl
@[simp] theorem Dev.get_goes (f : Field) : (d.goes n c pc).get f = d.get f := rfl

end

theorem lateFault_none {d : Dev} {n : Fin 8} (late : (d.ctx n).late = none) : lateFault n d = d := by simp [lateFault, late]

/-- An instruction in progress ends, with no posted write of the context timed out. -/
theorem completes_eq_goes {c : Ctx} (run : c.run = .running) (single : c.single = false) (late : c.late = none) (n : Fin 8) (d : Dev) :
    completes n c d = d.goes n c (c.pc + 1) := by
  rw [completes, finish_eq_goes (by simp [run]) single, lateFault_none (by simpa [Dev.goes] using late)]

/-! ### Issue (R229, R236) -/

theorem Dev.Issues.issues {d : Dev} {n : Fin 8} {i : Instr} {w : Word} (h : d.Issues n i) (hw : aqsEncode i = some w) :
    issues d n w = true := by
  obtain ⟨run, busy, -, -, word⟩ := h
  simp [Machine.issues, mayRun, run, busy, Option.some.inj (word.symm.trans hw)]

theorem Dev.Issues.run {d : Dev} {n : Fin 8} {i : Instr} (h : d.Issues n i) : (d.ctx n).run = .running := h.1
theorem Dev.Issues.single {d : Dev} {n : Fin 8} {i : Instr} (h : d.Issues n i) : (d.ctx n).single = false := by
  obtain ⟨-, -, single, -⟩ := h; exact single

theorem Dev.Issues.context {d : Dev} {n : Fin 8} {i : Instr} (h : d.Issues n i) : aqsContext i = some n := by
  obtain ⟨-, -, -, context, -⟩ := h; exact context

/-- The end of an instruction in its slot: the context goes on at the next word. -/
theorem Dev.Issues.finish {d : Dev} {n : Fin 8} {i : Instr} (h : d.Issues n i) {c : Ctx} (e : Dev) (run : c.run = (d.ctx n).run)
    (single : c.single = (d.ctx n).single) (pc : c.pc = (d.ctx n).pc) : finish n c e = e.goes n c ((d.ctx n).pc + 1) := by
  rw [finish_eq_goes (by simp [run, h.run]) (by rw [single, h.single]), pc]

/-- The end of an instruction that goes elsewhere. -/
theorem Dev.Issues.jump {d : Dev} {n : Fin 8} {i : Instr} (h : d.Issues n i) {c : Ctx} (e : Dev) (run : c.run = (d.ctx n).run)
    (single : c.single = (d.ctx n).single) (pc : BitVec 19) : jump n c pc e = e.goes n c pc :=
  jump_eq_goes (by simp [run, h.run]) (by rw [single, h.single]) n pc e

theorem sequential_issued {d : Dev} {n : Fin 8} {w : Word} (f : Ctx → Dev → Dev) (issued : issues d n w = true)
    (more : (d.ctx n).pc ≠ lastPc) : sequential n w f d = f (d.ctx n) d := by
  simp [sequential, issued, more]

theorem sequential_last {d : Dev} {n : Fin 8} {w : Word} (f : Ctx → Dev → Dev) (issued : issues d n w = true)
    (last : (d.ctx n).pc = lastPc) : sequential n w f d = d.faults n 0x0A02 lastPc := by
  simp only [sequential, issued, last, Bool.not_true, Bool.false_eq_true, if_false, if_true]
  exact congrArg (fun pc => ctxFault n 0x0A02 pc d) last

/-- An instruction that goes on in sequence leaves what its effect makes of the hardware. -/
theorem gives_of_sequential {i : Instr} {s : State} {n : Fin 8} {w : Word} {f : Ctx → Dev → Dev} {d : Dev} (up : s.dev.Up)
    (issued : s.dev.Issues n i) (more : (s.dev.ctx n).pc ≠ lastPc) (h : exec i s = s.act (live 10 (unheld 10 (sequential n w f))))
    (hw : aqsEncode i = some w) (hd : f (s.dev.ctx n) s.dev = d) : Gives i s d :=
  gives_of_unheld 10 10 _ up h ((sequential_issued f (issued.issues hw) more).trans hd)

/-- An instruction that only changes its context. -/
theorem gives_of_local {i : Instr} {s : State} {n : Fin 8} {w : Word} {f : Ctx → Ctx} (up : s.dev.Up)
    (issued : s.dev.Issues n i) (more : (s.dev.ctx n).pc ≠ lastPc) (h : exec i s = s.act (live 10 (unheld 10 (local' n w f))))
    (hw : aqsEncode i = some w) (run : (f (s.dev.ctx n)).run = (s.dev.ctx n).run) (single : (f (s.dev.ctx n)).single = (s.dev.ctx n).single)
    (pc : (f (s.dev.ctx n)).pc = (s.dev.ctx n).pc) : Gives i s (s.dev.goes n (f (s.dev.ctx n)) ((s.dev.ctx n).pc + 1)) :=
  gives_of_sequential (f := fun c d => finish n (f c) d) up issued more h hw (issued.finish s.dev run single pc)

theorem runs_of_sequential {i : Instr} {s : State} {n : Fin 8} {w : Word} {f : Ctx → Dev → Dev} {p : Dev → Prop} (up : s.dev.Up)
    (issued : s.dev.Issues n i) (more : (s.dev.ctx n).pc ≠ lastPc) (h : exec i s = s.act (live 10 (unheld 10 (sequential n w f))))
    (hw : aqsEncode i = some w) (hp : p (f (s.dev.ctx n) s.dev)) : Runs i s p :=
  runs_of_unheld 10 10 _ up h (by rw [sequential_issued f (issued.issues hw) more]; exact hp)

end Sys2Proof.Machine
end

section
/-! SUPPORT. O14: STOP of a context whose posted write has timed out. -/
namespace Sys2Proof.Machine

theorem Gives.unique {c : Instr} {s : State} {d e : Dev} (hd : Gives c s d) (he : Gives c s e) : d = e := by
  cases hd.symm.trans he
  rfl

/-- Context 2 is about to issue STOP of context 3, which waits, and one of whose posted writes has timed out. -/
def lateWait : Dev :=
  (({ pwr := { kUp := true, qUp := true, up := true } } : Dev).store programBase 4 (encU 0x34 0 3).toNat).setCtx 2 { run := .running }
    |>.setCtx 3 { run := .waiting, busy := .waitCyc 9, late := some 5 }

/-- The instruction boundary that STOP makes is where the time-out faults context 3. -/
theorem lateWait_faulted : ((aqsStop 2 3 lateWait).ctx 3).run = .faulted := by decide +kernel

/-- Refutes O14: its second clause has a waiting context STOPPED after STOP, whatever else it has pending, but a posted write that has
timed out faults the context at that boundary (R242). -/
theorem not_aqsContextControl : ¬ Obligations.AqsContextControl := by
  rintro ⟨-, stopWaiting, -⟩
  have up : lateWait.Up := ⟨rfl, rfl, rfl, rfl, rfl⟩
  have stopped := stopWaiting ⟨lateWait, []⟩ 2 3 up (by unfold Dev.Issues; decide +kernel) (by decide +kernel) (by decide)
    (by decide +kernel)
  have faulted : Gives (.stop 2 3) ⟨lateWait, []⟩ (aqsStop 2 3 lateWait) := gives_of_unheld 10 10 _ up rfl rfl
  have same := congrArg (fun d => (d.ctx 3).run) (stopped.unique faulted)
  rw [lateWait_faulted] at same
  exact absurd same (by decide +kernel)

end Sys2Proof.Machine
end

section
/-! SUPPORT. O11: a register read of island H while it is in reset. -/
namespace Sys2Proof.Machine

/-- Every island but H is released, PERST_N is low, and a read of PCIE_STATUS by context 2 is in progress. -/
def readsInReset : Dev :=
  ({ pwr := { kUp := true, qUp := true, up := true } } : Dev).setCtx 2 { run := .running, busy := .csr R.PCIE_STATUS 1 }

/-- The registers of the PCIe endpoint do not respond: the read stays in progress. -/
theorem csrReadDone_readsInReset : csrReadDone 2 readsInReset = readsInReset := by
  have silent : responds readsInReset R.PCIE_STATUS = false := by decide +kernel
  have busy : (readsInReset.ctx 2).busy = .csr R.PCIE_STATUS 1 := by decide +kernel
  simp only [csrReadDone, busy, silent, Bool.not_false, Bool.or_true, Bool.true_or, if_true]

/-- Refutes O11: its third clause has the read of any register that the context reaches complete on CSR_READ_DONE, but a register of
block 18 gives no response while PERST_N holds island H in reset (R242). -/
theorem not_aqsRegisterBus : ¬ Obligations.AqsRegisterBus := by
  rintro ⟨-, -, readDone, -⟩
  have up : readsInReset.Up := ⟨rfl, rfl, rfl, rfl, rfl⟩
  have unchanged : Gives (.csrReadDone 2) ⟨readsInReset, []⟩ readsInReset := gives_of_unheld 10 10 _ up rfl csrReadDone_readsInReset
  obtain ⟨r, ix, found, single⟩ : ∃ r ix, findReg R.PCIE_STATUS = some (r, ix) ∧ r.part = .single := ⟨_, _, rfl, by decide +kernel⟩
  obtain ⟨done, -⟩ := (readDone ⟨readsInReset, []⟩ 2 1 R.PCIE_STATUS r ix ⟨up, nofun, by decide +kernel, by decide +kernel,
    by decide +kernel, by decide +kernel⟩ found single (by decide +kernel) (by decide +kernel) (by decide +kernel) (by decide +kernel) rfl
    rfl).of_exec unchanged
  have same := congrArg (fun a : Aqs => (a.ctxs.get 2).busy) done
  have idle : ∀ x pc, ((readsInReset.goes 2 x pc).ctx 2).busy = .idle := fun _ _ => by rw [Dev.goes, Dev.ctx_setCtx]
  have busy : (readsInReset.ctx 2).busy = .csr R.PCIE_STATUS 1 := by decide +kernel
  exact absurd (busy.symm.trans (same.trans (idle _ _))) (by decide)

end Sys2Proof.Machine
end

section
/-! SUPPORT. O13: the slots that WAIT takes, and the other waits of AQS. -/
namespace Sys2Proof.Machine

/-! ### The lowest ready slot (R249) -/

theorem readySlot_eq_some {x : Ctx} {mask : BitVec 16} {k : Fin 16} (masked : mask.getLsbD k.val = true) (counts : (x.watch.get k).cnt ≠ 0)
    (lowest : ∀ j : Fin 16, j < k → mask.getLsbD j.val = true → (x.watch.get j).cnt = 0) : readySlot x mask = some k := by
  refine List.find?_eq_some_iff_getElem.mpr ⟨by simpa only [masked, Bool.true_and, decide_eq_true_eq], k.val,
    by rw [List.length_ofFn]; exact k.isLt, List.getElem_ofFn _, fun j below => ?_⟩
  have idle := lowest ⟨j, below.trans k.isLt⟩ below
  rw [List.getElem_ofFn]
  cases masked : mask.getLsbD j with
  | false => simp only [id_eq, masked, Bool.false_and, Bool.not_false]
  | true => simp only [id_eq, masked, Bool.true_and, ne_eq, idle masked, not_true_eq_false, decide_false, Bool.not_false]

theorem readySlot_eq_none {x : Ctx} {mask : BitVec 16} (none : ∀ j : Fin 16, mask.getLsbD j.val = true → (x.watch.get j).cnt = 0) :
    readySlot x mask = .none :=
  List.find?_eq_none.mpr fun j _ ready => by
    obtain ⟨masked, counts⟩ := Bool.and_eq_true_iff.mp ready
    exact of_decide_eq_true counts (none j masked)

/-- What WAIT makes of its context when it takes slot k. -/
theorem takeSlot_eq (x : Ctx) (g k : Fin 16) : takeSlot x g k =
    { x.setReg g (BitVec.ofNat 64 k.val) with
      z := false, c := decide ((x.watch.get k).cnt ≠ 1), v := (x.watch.get k).ovr,
      watch := x.watch.set k.val { x.watch.get k with cnt := (x.watch.get k).cnt - 1, ovr := false },
      latch := ⟨(x.watch.get k).num, (x.watch.get k).sub, BitVec.ofNat 4 k.val, (x.watch.get k).arg, (x.watch.get k).ts⟩ } := by
  have more : ((x.watch.get k).cnt - 1 ≠ 0) = ((x.watch.get k).cnt ≠ 1) := by rw [ne_eq, sub_eq_zero]
  by_cases hg : g = 0
  · simp only [takeSlot, more, Ctx.setReg, if_pos hg]
  · simp only [takeSlot, more, Ctx.setReg, if_neg hg]

@[simp] theorem takeSlot_run (x : Ctx) (g k : Fin 16) : (takeSlot x g k).run = x.run := by rw [takeSlot_eq]; simp
@[simp] theorem takeSlot_single (x : Ctx) (g k : Fin 16) : (takeSlot x g k).single = x.single := by rw [takeSlot_eq]; simp
@[simp] theorem takeSlot_pc (x : Ctx) (g k : Fin 16) : (takeSlot x g k).pc = x.pc := by rw [takeSlot_eq]; simp

@[simp] theorem waitOut_run (x : Ctx) (g : Fin 16) : (waitOut x g).run = x.run := x.setReg_run g 16
@[simp] theorem waitOut_single (x : Ctx) (g : Fin 16) : (waitOut x g).single = x.single := x.setReg_single g 16
@[simp] theorem waitOut_pc (x : Ctx) (g : Fin 16) : (waitOut x g).pc = x.pc := x.setReg_pc g 16

/-- A WAITING context that is not stepped goes on after its wait. -/
theorem finish_waiting {d : Dev} {n : Fin 8} {c : Ctx} (waiting : (d.ctx n).run = .waiting) (free : (d.ctx n).single = false)
    (run : c.run = (d.ctx n).run) (single : c.single = (d.ctx n).single) (pc : c.pc = (d.ctx n).pc) :
    finish n c d = d.goes n c ((d.ctx n).pc + 1) := by
  rw [finish_eq_goes (by simp [run, waiting]) (by rw [single, free]), pc]

/-! ### The instructions -/

section
variable {s : State} {n : Fin 8} (up : s.dev.Up)
include up

/-- WAIT and WAIT_WAKE take the lowest ready slot (R249, R250). -/
theorem gives_wait_slot {g k : Fin 16} {mask : BitVec 16} (ready : readySlot (s.dev.ctx n) mask = some k) {c : Instr}
    (command : (∃ a, c = .wait n g a mask ∧ s.dev.Issues n c ∧ (s.dev.ctx n).pc ≠ lastPc) ∨
      (∃ t, c = .waitWake n ∧ (s.dev.ctx n).busy = .waitEv g mask t ∧ (s.dev.ctx n).run = .waiting ∧ (s.dev.ctx n).single = false)) :
    Gives c s (s.dev.goes n (takeSlot (s.dev.ctx n) g k) ((s.dev.ctx n).pc + 1)) := by
  obtain ⟨a, rfl, issued, more⟩ | ⟨t, rfl, busy, waiting, free⟩ := command
  · exact gives_of_sequential up issued more rfl rfl (by simpa only [ready] using issued.finish _ (by simp) (by simp) (by simp))
  · exact gives_of_unheld 10 10 (waitWake n) up rfl
      (by simpa only [waitWake, busy, ready] using finish_waiting waiting free (by simp) (by simp) (by simp))

/-- WAIT with no slot ready: it begins to wait, or times out at once (R250). -/
theorem gives_wait_none {g a : Fin 16} {mask : BitVec 16} (issued : s.dev.Issues n (.wait n g a mask)) (more : (s.dev.ctx n).pc ≠ lastPc)
    (ready : readySlot (s.dev.ctx n) mask = none) :
    Gives (.wait n g a mask) s (if a = 0 then s.dev.setCtx n { s.dev.ctx n with busy := .waitEv g mask none, run := .waiting }
      else if (s.dev.ctx n).reg a = 0 then s.dev.goes n (waitOut (s.dev.ctx n) g) ((s.dev.ctx n).pc + 1)
      else s.dev.setCtx n { s.dev.ctx n with
        busy := .waitEv g mask (some (s.dev.aqs.tick.toNat + ((s.dev.ctx n).reg a).toNat)), run := .waiting }) := by
  refine gives_of_sequential up issued more rfl rfl ?_
  simp only [ready, waits, issued.finish s.dev (waitOut_run _ g) (waitOut_single _ g) (waitOut_pc _ g)]

theorem gives_waitTimeout {g : Fin 16} {mask : BitVec 16} {t : Nat} (busy : (s.dev.ctx n).busy = .waitEv g mask (some t))
    (waiting : (s.dev.ctx n).run = .waiting) (free : (s.dev.ctx n).single = false) (due : t ≤ s.dev.aqs.tick.toNat)
    (ready : readySlot (s.dev.ctx n) mask = none) :
    Gives (.waitTimeout n) s (s.dev.goes n (waitOut (s.dev.ctx n) g) ((s.dev.ctx n).pc + 1)) := by
  refine gives_of_unheld 10 10 (waitTimeout n) up rfl ?_
  simpa only [waitTimeout, busy, due, ready, Option.isNone_none, decide_true, Bool.and_self, if_true] using
    finish_waiting waiting free (by simp) (by simp) (by simp)

/-- WAITT of a tick that has come goes on; of a later one it waits (R247, R251). -/
theorem gives_waitt {a : Fin 16} {rel : Bool} (issued : s.dev.Issues n (.waitt n a rel)) (more : (s.dev.ctx n).pc ≠ lastPc) :
    Gives (.waitt n a rel) s
      (if (if rel then (s.dev.ctx n).reg a = 0 else ((s.dev.ctx n).reg a).toNat ≤ s.dev.aqs.tick.toNat) then
        s.dev.goes n { s.dev.ctx n with c := true } ((s.dev.ctx n).pc + 1)
      else s.dev.setCtx n { s.dev.ctx n with
        busy := .waitTick (((s.dev.ctx n).reg a).toNat + if rel then s.dev.aqs.tick.toNat else 0), run := .waiting }) := by
  refine gives_of_sequential up issued more rfl rfl ?_
  have past : (((s.dev.ctx n).reg a).toNat + (if rel then s.dev.aqs.tick.toNat else 0) ≤ s.dev.aqs.tick.toNat) =
      (if rel then (s.dev.ctx n).reg a = 0 else ((s.dev.ctx n).reg a).toNat ≤ s.dev.aqs.tick.toNat) := by
    cases rel
    · simp
    · simp [← BitVec.toNat_inj]
  simp only [past, waits, issued.finish s.dev (c := { s.dev.ctx n with c := true }) rfl rfl rfl]

theorem gives_waittDone {t : Nat} (busy : (s.dev.ctx n).busy = .waitTick t) (waiting : (s.dev.ctx n).run = .waiting)
    (free : (s.dev.ctx n).single = false) : Gives (.waittDone n) s
      (if t ≤ s.dev.aqs.tick.toNat then s.dev.goes n { s.dev.ctx n with c := false } ((s.dev.ctx n).pc + 1) else s.dev) := by
  refine gives_of_unheld 10 10 (waittDone n) up rfl ?_
  rw [← finish_waiting waiting free (c := { s.dev.ctx n with c := false }) rfl rfl rfl]
  simp only [waittDone, busy]

theorem gives_waitc {k : BitVec 22} (issued : s.dev.Issues n (.waitc n k)) (more : (s.dev.ctx n).pc ≠ lastPc) :
    Gives (.waitc n k) s (if k.toNat ≤ 8 then s.dev.goes n (s.dev.ctx n) ((s.dev.ctx n).pc + 1)
      else s.dev.setCtx n { s.dev.ctx n with busy := .waitCyc k.toNat, run := .waiting }) := by
  refine gives_of_sequential up issued more rfl rfl ?_
  simp only [waits, issued.finish s.dev (c := s.dev.ctx n) rfl rfl rfl]

theorem gives_waitcDone {k : Nat} (busy : (s.dev.ctx n).busy = .waitCyc k) (waiting : (s.dev.ctx n).run = .waiting)
    (free : (s.dev.ctx n).single = false) : Gives (.waitcDone n) s (s.dev.goes n (s.dev.ctx n) ((s.dev.ctx n).pc + 1)) :=
  gives_of_unheld 10 10 (waitcDone n) up rfl (by simpa only [waitcDone, busy] using finish_waiting waiting free rfl rfl rfl)

end

/-- What EVR reads of the latch, in numbers (Table 9.4). -/
theorem latchPart_eq (l : EvLatch) (sel : BitVec 2) : latchPart l sel = BitVec.ofNat 64 (match sel.toNat with
    | 0 => l.num.toNat + l.sub.toNat * 2 ^ 16 + l.slot.toNat * 2 ^ 32
    | 1 => l.arg.toNat
    | 2 => TS.ticks l.ts
    | _ => TS.frac l.ts) := by
  obtain rfl | rfl | rfl | rfl : sel = 0 ∨ sel = 1 ∨ sel = 2 ∨ sel = 3 := by decide +revert
  · rfl
  · exact (BitVec.ofNat_toNat 64 l.arg ▸ BitVec.setWidth_eq l.arg).symm
  · exact BitVec.eq_of_toNat_eq (by simp [latchPart, TS.ticks, Nat.shiftRight_eq_div_pow])
  · rfl

/-- Settles O13: WAIT turns on the lowest ready slot of its mask; the other waits on the tick copy and the cycle count. -/
theorem aqsWaits : Obligations.AqsWaits := by
  refine ⟨fun s n g k mask up masked counts lowest c command => ?_, fun s n g a mask up issued more none => ?_,
    fun s n g mask t up busy waiting free due none => ?_, fun s n a rel up issued more => gives_waitt up issued more,
    fun s n t up busy waiting free => gives_waittDone up busy waiting free, fun s n k up issued more => gives_waitc up issued more,
    fun s n k up busy waiting free => gives_waitcDone up busy waiting free, fun s n k ev up issued more => ?_,
    fun s n g sel up issued more => ?_, fun s n g up issued more => ?_, fun s n a sub up issued more => ?_⟩
  · rw [← takeSlot_eq]
    exact gives_wait_slot up (readySlot_eq_some masked counts lowest) command
  · exact gives_wait_none up issued more (readySlot_eq_none none)
  · exact gives_waitTimeout up busy waiting free due (readySlot_eq_none none)
  · exact gives_of_local (f := fun x => { x with watch := x.watch.set k.val { num := ev } }) up issued more rfl rfl rfl rfl rfl
  · have read := gives_of_local (f := fun x => x.setReg g (latchPart x.latch sel)) up issued more rfl rfl (by simp) (by simp) (by simp)
    simp only [latchPart_eq] at read
    exact read
  · refine gives_of_sequential up issued more rfl rfl ?_
    exact issued.finish s.dev (by simp) (by simp) (by simp)
  · refine gives_of_sequential up issued more rfl rfl ?_
    exact issued.finish _ rfl rfl rfl

end Sys2Proof.Machine
end

section
/-! SUPPORT. The flags of AQS's sums and differences, as facts about signed and unsigned values (R235). -/
namespace Sys2Proof.Machine

theorem add_eq_ofInt (a b : Word64) : a + b = BitVec.ofInt 64 (a.toInt + b.toInt) :=
  BitVec.eq_of_toInt_eq (by rw [BitVec.toInt_add, BitVec.toInt_ofInt])
theorem sub_eq_ofInt (a b : Word64) : a - b = BitVec.ofInt 64 (a.toInt - b.toInt) :=
  BitVec.eq_of_toInt_eq (by rw [BitVec.toInt_sub, BitVec.toInt_ofInt])

/-- A value of less than 65 bits and the signed value of its 64 bits differ by one wrap at most. -/
theorem toInt_ofInt_near {x : Int} (low : -2 ^ 64 ≤ x) (high : x < 2 ^ 64) :
    (BitVec.ofInt 64 x).toInt = x ∨ (BitVec.ofInt 64 x).toInt = x - 2 ^ 64 ∨ (BitVec.ofInt 64 x).toInt = x + 2 ^ 64 := by
  have lo := (BitVec.ofInt 64 x).le_toInt
  have hi := (BitVec.ofInt 64 x).toInt_lt
  have wrap := BitVec.toInt_ofInt x (n := 64)
  rw [Int.bmod_def] at wrap
  omega

theorem fits64_eq_false_iff (x : Int) : fits64 x = false ↔ x < -2 ^ 63 ∨ 2 ^ 63 ≤ x := by
  simp only [fits64, Bool.and_eq_false_iff, decide_eq_false_iff_not]
  omega

section
variable (a b : Word64)

/-- Adding operands of one sign overflows when the result has the other. -/
theorem aluAdd_v : (aluAdd a b).v = !fits64 (a.toInt + b.toInt) := by
  have := a.toInt_lt; have := a.le_toInt
  have := b.toInt_lt; have := b.le_toInt
  have := (a + b).toInt_lt; have := (a + b).le_toInt
  have near := toInt_ofInt_near (x := a.toInt + b.toInt) (by omega) (by omega)
  rw [← add_eq_ofInt] at near
  rw [Bool.eq_iff_iff]
  simp only [aluAdd, alu, BitVec.msb_eq_toInt, Bool.and_eq_true, beq_iff_eq, decide_eq_decide, bne_iff_ne, ne_eq, Bool.not_eq_true',
    fits64_eq_false_iff]
  omega

/-- Subtracting an operand of the other sign overflows when the result has the sign of the second. -/
theorem aluSub_v : (aluSub a b).v = !fits64 (a.toInt - b.toInt) := by
  have := a.toInt_lt; have := a.le_toInt
  have := b.toInt_lt; have := b.le_toInt
  have := (a - b).toInt_lt; have := (a - b).le_toInt
  have near := toInt_ofInt_near (x := a.toInt - b.toInt) (by omega) (by omega)
  rw [← sub_eq_ofInt] at near
  rw [Bool.eq_iff_iff]
  simp only [aluSub, alu, BitVec.msb_eq_toInt, Bool.and_eq_true, decide_eq_decide, bne_iff_ne, ne_eq, Bool.not_eq_true',
    fits64_eq_false_iff]
  omega

theorem aluSub_z : (aluSub a b).z = decide (a = b) := by
  rw [Bool.eq_iff_iff]
  simp only [aluSub, alu, beq_iff_eq, decide_eq_true_eq]
  exact sub_eq_zero

theorem aluSub_n : (aluSub a b).n = decide ((a - b).toInt < 0) :=
  BitVec.msb_eq_toInt (x := a - b)

/-- N and V differ after a comparison of a lesser with a greater signed value. -/
theorem aluSub_lt : ((aluSub a b).n != (aluSub a b).v) = decide (a.toInt < b.toInt) := by
  have := a.toInt_lt; have := a.le_toInt
  have := b.toInt_lt; have := b.le_toInt
  have := (a - b).toInt_lt; have := (a - b).le_toInt
  have near := toInt_ofInt_near (x := a.toInt - b.toInt) (by omega) (by omega)
  rw [← sub_eq_ofInt] at near
  rw [aluSub_n, aluSub_v]
  cases h : fits64 (a.toInt - b.toInt)
  · rw [fits64_eq_false_iff] at h
    simp only [Bool.not_false, Bool.bne_true, ← decide_not, decide_eq_decide]
    omega
  · have fit := (fits64_eq_false_iff _).not.mp (by rw [h]; decide)
    simp only [Bool.not_true, Bool.bne_false, decide_eq_decide]
    omega

theorem aluSub_ge : ((aluSub a b).n == (aluSub a b).v) = decide (b.toInt ≤ a.toInt) := by
  have lt := congrArg Bool.not (aluSub_lt a b)
  rw [bne, Bool.not_not, ← decide_not] at lt
  exact lt.trans (decide_eq_decide.mpr Int.not_lt)

theorem aluSub_gt : (!(aluSub a b).z && (aluSub a b).n == (aluSub a b).v) = decide (b.toInt < a.toInt) := by
  rw [aluSub_ge, aluSub_z, Bool.eq_iff_iff]
  simp only [Bool.and_eq_true, Bool.not_eq_true', decide_eq_false_iff_not, decide_eq_true_eq, ← BitVec.toInt_inj]
  omega

theorem aluSub_le : ((aluSub a b).z || (aluSub a b).n != (aluSub a b).v) = decide (a.toInt ≤ b.toInt) := by
  rw [aluSub_lt, aluSub_z, Bool.eq_iff_iff]
  simp only [Bool.or_eq_true, decide_eq_true_eq, ← BitVec.toInt_inj]
  omega

theorem aluSub_hi : ((aluSub a b).c && !(aluSub a b).z) = decide (b.toNat < a.toNat) := by
  rw [aluSub_z, Bool.eq_iff_iff]
  simp only [aluSub, alu, Bool.and_eq_true, Bool.not_eq_true', decide_eq_false_iff_not, decide_eq_true_eq, ← BitVec.toNat_inj]
  omega

theorem aluSub_ls : (!(aluSub a b).c || (aluSub a b).z) = decide (a.toNat ≤ b.toNat) := by
  rw [aluSub_z, Bool.eq_iff_iff]
  simp only [aluSub, alu, Bool.or_eq_true, Bool.not_eq_true', decide_eq_false_iff_not, decide_eq_true_eq, ← BitVec.toNat_inj]
  omega

/-- After a comparison the conditions hold as their names say (Table 9.3). -/
theorem condition_aluSub (x : Ctx) : ∀ code : Fin 15, condition (x.setFlags (aluSub a b)) (BitVec.ofNat 4 code.val) = some
    (match code.val with
      | 0 => true | 1 => decide (a = b) | 2 => decide (a ≠ b) | 3 => decide (a.toInt < b.toInt) | 4 => decide (b.toInt ≤ a.toInt)
      | 5 => decide (a.toNat < b.toNat) | 6 => decide (b.toNat ≤ a.toNat) | 7 => decide ((a - b).toInt < 0)
      | 8 => decide (0 ≤ (a - b).toInt) | 9 => !fits64 (a.toInt - b.toInt) | 10 => fits64 (a.toInt - b.toInt)
      | 11 => decide (b.toInt < a.toInt) | 12 => decide (a.toInt ≤ b.toInt) | 13 => decide (b.toNat < a.toNat)
      | _ => decide (a.toNat ≤ b.toNat))
  | 0 => rfl
  | 1 => congrArg some (aluSub_z a b)
  | 2 => congrArg some ((congrArg Bool.not (aluSub_z a b)).trans decide_not.symm)
  | 3 => congrArg some (aluSub_lt a b)
  | 4 => congrArg some (aluSub_ge a b)
  | 5 => congrArg some (decide_not.symm.trans (decide_eq_decide.mpr Nat.not_le))
  | 6 => rfl
  | 7 => congrArg some (aluSub_n a b)
  | 8 => congrArg some ((congrArg Bool.not (aluSub_n a b)).trans (decide_not.symm.trans (decide_eq_decide.mpr Int.not_lt)))
  | 9 => congrArg some (aluSub_v a b)
  | 10 => congrArg some ((congrArg Bool.not (aluSub_v a b)).trans (Bool.not_not _))
  | 11 => congrArg some (aluSub_gt a b)
  | 12 => congrArg some (aluSub_le a b)
  | 13 => congrArg some (aluSub_hi a b)
  | 14 => congrArg some (aluSub_ls a b)

end

end Sys2Proof.Machine
end

section
/-! SUPPORT. O9: branch targets and control transfers of AQS. -/
namespace Sys2Proof.Machine

/-! ### Targets (R236) -/

theorem branchTarget_eq_some {pc t : BitVec 19} {imm : BitVec 22} (h : (t.toNat : Int) = pc.toNat + imm.toInt) :
    branchTarget pc imm = some t := by
  have inRange : (0 : Int) ≤ t.toNat ∧ (t.toNat : Int) ≤ 524287 := by omega
  simp only [branchTarget, ← h, if_pos inRange, Int.toNat_natCast, BitVec.ofNat_toNat, BitVec.setWidth_eq]

theorem branchTarget_eq_none {pc : BitVec 19} {imm : BitVec 22}
    (h : (pc.toNat : Int) + imm.toInt < 0 ∨ 524287 < (pc.toNat : Int) + imm.toInt) : branchTarget pc imm = none :=
  if_neg fun ⟨low, high⟩ => by omega

theorem pcOf_eq (v : Word64) : pcOf v = if v.toNat ≤ 524287 then some (BitVec.ofNat 19 v.toNat) else none := by
  rw [pcOf, BitVec.ofNat_toNat]

/-- Every code but 0xF is a condition (Table 9.3). -/
theorem condition_isSome (x : Ctx) {code : BitVec 4} (h : code ≠ 15) : ∃ taken, condition x code = some taken := by
  obtain ⟨k, rfl⟩ : ∃ k : Fin 15, code = BitVec.ofNat 4 k.val := by decide +revert
  fin_cases k <;> exact ⟨_, rfl⟩

/-! ### The instructions -/

section
variable {s : State} {n : Fin 8} (up : s.dev.Up)
include up

theorem gives_br {cond : BitVec 4} {imm : BitVec 22} {taken : Bool} {t : BitVec 19} (issued : s.dev.Issues n (.br n cond imm))
    (holds : condition (s.dev.ctx n) cond = some taken) (target : branchTarget (s.dev.ctx n).pc imm = some t)
    (more : taken = true ∨ (s.dev.ctx n).pc ≠ lastPc) :
    Gives (.br n cond imm) s (s.dev.goes n (s.dev.ctx n) (if taken then t else (s.dev.ctx n).pc + 1)) := by
  refine gives_of_unheld 10 10 (aqsBr n cond imm) up rfl ?_
  simp only [aqsBr, issued.issues rfl, Bool.not_true, Bool.false_eq_true, if_false, holds, target]
  cases taken with
  | true => exact issued.jump s.dev rfl rfl t
  | false => exact (if_neg (more.resolve_left Bool.false_ne_true)).trans (issued.finish s.dev rfl rfl rfl)

/-- A branch to no PC faults whether it would be taken or not. -/
theorem gives_br_fault {cond : BitVec 4} {imm : BitVec 22} (issued : s.dev.Issues n (.br n cond imm)) (valid : cond ≠ 15)
    (target : branchTarget (s.dev.ctx n).pc imm = none) : Gives (.br n cond imm) s (s.dev.faults n 0x0A02 (s.dev.ctx n).pc) := by
  obtain ⟨taken, holds⟩ := condition_isSome (s.dev.ctx n) valid
  refine gives_of_unheld 10 10 (aqsBr n cond imm) up rfl ?_
  simp only [aqsBr, issued.issues rfl, Bool.not_true, Bool.false_eq_true, if_false, holds, target]
  rfl

theorem gives_call {imm : BitVec 22} {t : BitVec 19} (issued : s.dev.Issues n (.call n imm)) (more : (s.dev.ctx n).pc ≠ lastPc)
    (target : branchTarget (s.dev.ctx n).pc imm = some t) :
    Gives (.call n imm) s (if (s.dev.ctx n).stack.length < 16 then
        s.dev.goes n { s.dev.ctx n with stack := (s.dev.ctx n).stack ++ [(s.dev.ctx n).pc + 1] } t
      else s.dev.faults n 0x0A0A (s.dev.ctx n).pc) := by
  refine gives_of_sequential up issued more rfl rfl ?_
  simp only [target]
  by_cases room : (s.dev.ctx n).stack.length < 16
  · rw [if_neg (Nat.not_le.mpr room), if_pos room]
    exact issued.jump (c := { s.dev.ctx n with stack := (s.dev.ctx n).stack ++ [(s.dev.ctx n).pc + 1] }) s.dev rfl rfl t
  · rw [if_pos (Nat.not_lt.mp room), if_neg room]
    rfl

theorem gives_ret {st : List (BitVec 19)} {t : BitVec 19} (issued : s.dev.Issues n (.ret n))
    (stack : (s.dev.ctx n).stack = st ++ [t]) : Gives (.ret n) s (s.dev.goes n { s.dev.ctx n with stack := st } t) := by
  refine gives_of_unheld 10 10 (aqsRet n) up rfl ?_
  simp only [aqsRet, issued.issues rfl, Bool.not_true, Bool.false_eq_true, if_false, stack, List.getLast?_concat, List.dropLast_concat]
  exact issued.jump (c := { s.dev.ctx n with stack := st }) s.dev rfl rfl t

theorem gives_ret_empty (issued : s.dev.Issues n (.ret n)) (stack : (s.dev.ctx n).stack = []) :
    Gives (.ret n) s (s.dev.faults n 0x0A0B (s.dev.ctx n).pc) := by
  refine gives_of_unheld 10 10 (aqsRet n) up rfl ?_
  simp only [aqsRet, issued.issues rfl, Bool.not_true, Bool.false_eq_true, if_false, stack, List.getLast?_nil]
  rfl

theorem gives_jr {a : Fin 16} (issued : s.dev.Issues n (.jr n a)) :
    Gives (.jr n a) s (if ((s.dev.ctx n).reg a).toNat ≤ 524287 then s.dev.goes n (s.dev.ctx n) (BitVec.ofNat 19 ((s.dev.ctx n).reg a).toNat)
      else s.dev.faults n 0x0A02 (s.dev.ctx n).pc) := by
  refine gives_of_unheld 10 10 (aqsJr n a) up rfl ?_
  simp only [aqsJr, issued.issues rfl, Bool.not_true, Bool.false_eq_true, if_false, pcOf_eq]
  by_cases isPc : ((s.dev.ctx n).reg a).toNat ≤ 524287
  · simp only [if_pos isPc]
    exact issued.jump s.dev rfl rfl _
  · simp only [if_neg isPc]
    rfl

theorem gives_loop {g : Fin 16} {imm : BitVec 22} {t : BitVec 19} (issued : s.dev.Issues n (.loop n g imm))
    (more : (s.dev.ctx n).pc ≠ lastPc) (target : branchTarget (s.dev.ctx n).pc imm = some t) :
    Gives (.loop n g imm) s (s.dev.goes n ((s.dev.ctx n).setReg g ((s.dev.ctx n).reg g - 1))
      (if (s.dev.ctx n).reg g = 1 then (s.dev.ctx n).pc + 1 else t)) := by
  refine gives_of_unheld 10 10 (aqsLoop n g imm) up rfl ?_
  simp only [aqsLoop, issued.issues rfl, Bool.not_true, Bool.false_eq_true, if_false, target, if_neg more]
  by_cases last : (s.dev.ctx n).reg g = 1
  · rw [if_neg (not_not.mpr (sub_eq_zero.mpr last)), if_pos last]
    exact issued.finish s.dev (by simp) (by simp) (by simp)
  · rw [if_pos (sub_ne_zero.mpr last), if_neg last]
    exact issued.jump s.dev (by simp) (by simp) t

end

/-- Settles O9, one rule for each control transfer and the table of conditions after a comparison. -/
theorem aqsControlTransfer : Obligations.AqsControlTransfer :=
  ⟨fun _ _ _ _ _ _ up issued holds target more => gives_br up issued holds (branchTarget_eq_some target) more,
   fun _ _ _ _ up issued valid outside => gives_br_fault up issued valid (branchTarget_eq_none outside),
   fun _ _ _ _ up issued more target => gives_call up issued more (branchTarget_eq_some target),
   fun _ _ _ _ up issued stack => gives_ret up issued stack,
   fun _ _ up issued stack => gives_ret_empty up issued stack,
   fun _ _ _ up issued => gives_jr up issued,
   fun _ _ _ _ _ up issued more target => gives_loop up issued more (branchTarget_eq_some target),
   fun x a b code => condition_aluSub a b x code⟩

end Sys2Proof.Machine
end

section
/-! SUPPORT. O8: issue, and AQS's arithmetic in integers. -/
namespace Sys2Proof.Machine

/-! ### Issue (R229) -/

/-- An instruction of AQS whose word is not the one at the PC of a context with a slot to use does nothing. -/
theorem exec_aqs_other {i : Instr} {n : Fin 8} {w : Word} (hn : aqsContext i = some n) (hw : aqsEncode i = some w) :
    ∃ f : Dev → Dev, (∀ s, exec i s = s.act (live 10 (unheld 10 f))) ∧ ∀ d, issues d n w = false → f d = d := by
  cases i with
  | br | ret | jr | loop | nop | add | sub | and | or | xor | shl | shr | sar | mul | cmp | addi | andi | ori | xori | shli | shri | sari
  | cmpi | movi | movh | ld | ldw | st | stw | fadd | call | csrr | csrw | csrri | csrwi | cfgl | commit | wait | waitt | waitc | wset | evr
  | tsr | lyq | arm | disarm | force | mode | dmaq | emit | start | stop | halt | bkpt =>
    obtain rfl := Option.some.inj hn
    obtain rfl := Option.some.inj hw
    exact ⟨_, fun _ => rfl, fun _ other => if_pos (congrArg Bool.not other)⟩
  | _ => cases hn

theorem live_unheld_eq {d : Dev} {f : Dev → Dev} (h : f d = d) (b o : Nat) : live b (unheld o f) d = d := by
  simp only [live, unheld, h, ite_self]

/-! ### Results (R235, Table 9.4) -/

theorem ofInt_add_toNat (a b : Word64) : a + b = BitVec.ofInt 64 (a.toNat + b.toNat) := by
  rw [← Int.natCast_add, BitVec.ofInt_natCast, BitVec.ofNat_add, BitVec.ofNat_toNat, BitVec.ofNat_toNat, BitVec.setWidth_eq,
    BitVec.setWidth_eq]

theorem ofInt_mul_toNat (a b : Word64) : a * b = BitVec.ofInt 64 (a.toNat * b.toNat) := by
  rw [← Int.natCast_mul, BitVec.ofInt_natCast, BitVec.ofNat_mul, BitVec.ofNat_toNat, BitVec.ofNat_toNat, BitVec.setWidth_eq,
    BitVec.setWidth_eq]

theorem ofInt_toNat {r : Word64} {k : Nat} (h : r.toNat = k) : r = BitVec.ofInt 64 k := by
  rw [BitVec.ofInt_natCast, ← h, BitVec.ofNat_toNat, BitVec.setWidth_eq]

theorem shl_eq_ofInt (a : Word64) (k : Nat) : a <<< k = BitVec.ofInt 64 (a.toNat * 2 ^ k) :=
  BitVec.eq_of_toNat_eq (by
    rw [BitVec.toNat_shiftLeft, Nat.shiftLeft_eq]
    exact_mod_cast (BitVec.toNat_ofNat (a.toNat * 2 ^ k) 64).symm)

theorem shr_eq_ofInt (a : Word64) (k : Nat) : a >>> k = BitVec.ofInt 64 (a.toNat / 2 ^ k) := by
  exact_mod_cast ofInt_toNat (r := a >>> k) (by rw [BitVec.toNat_ushiftRight, Nat.shiftRight_eq_div_pow])

theorem sar_eq_ofInt (a : Word64) (k : Nat) : a.sshiftRight k = BitVec.ofInt 64 (a.toInt / 2 ^ k) := by
  rw [BitVec.sshiftRight, Int.shiftRight_eq_div_pow]; norm_cast

theorem toInt_sext {k : Nat} (h : k ≤ 64) (imm : BitVec k) : (sext imm).toInt = imm.toInt := BitVec.toInt_signExtend_of_le h
theorem toNat_zext {k : Nat} (h : k ≤ 64) (imm : BitVec k) : (zext imm).toNat = imm.toNat :=
  BitVec.toNat_setWidth_of_le h

/-- A result with the flags that the operation gives it. -/
theorem take_alu (x : Ctx) (d : Fin 16) {r : Word64} {v : Int} (h : r = BitVec.ofInt 64 v) (carry overflow : Bool) :
    x.take d (alu r carry overflow) = x.result d v carry overflow := by
  subst h; rfl

section
variable (x : Ctx) (d : Fin 16) (a b : Word64)

theorem take_aluAdd {v : Int} (h : a + b = BitVec.ofInt 64 v) :
    x.take d (aluAdd a b) = x.result d v (decide (2 ^ 64 ≤ a.toNat + b.toNat)) (!fits64 (a.toInt + b.toInt)) := by
  rw [← aluAdd_v]; exact take_alu x d h _ _

theorem take_aluSub : x.take d (aluSub a b) =
    x.result d (a.toInt - b.toInt) (decide (b.toNat ≤ a.toNat)) (!fits64 (a.toInt - b.toInt)) := by
  rw [← aluSub_v]; exact take_alu x d (sub_eq_ofInt a b) _ _

theorem take_aluMul : x.take d (aluMul a b) =
    x.result d (a.toNat * b.toNat) (decide (2 ^ 64 ≤ a.toNat * b.toNat)) (!fits64 (a.toInt * b.toInt)) := by
  have overflow : (decide (a.toInt * b.toInt < -(2 ^ 63)) || decide (2 ^ 63 ≤ a.toInt * b.toInt)) = !fits64 (a.toInt * b.toInt) := by
    rw [Bool.eq_iff_iff]
    simp only [Bool.or_eq_true, decide_eq_true_eq, Bool.not_eq_true', fits64_eq_false_iff]
  rw [← overflow]; exact take_alu x d (ofInt_mul_toNat a b) _ _

theorem shiftedOut (k i : Nat) : (k != 0 && a.getLsbD i) = decide (k ≠ 0 ∧ a.toNat / 2 ^ i % 2 = 1) := by
  rw [BitVec.getLsbD, Nat.testBit_eq_decide_div_mod_eq, Bool.decide_and, decide_not, bne, beq_eq_decide]

theorem take_aluShl (k : Nat) : x.take d (aluShl a k) =
    x.result d (a.toNat * 2 ^ k) (decide (k ≠ 0 ∧ a.toNat / 2 ^ (64 - k) % 2 = 1)) false := by
  rw [← shiftedOut]
  exact take_alu x d (shl_eq_ofInt a k) _ _

theorem take_aluShr (k : Nat) : x.take d (aluShr a k) =
    x.result d (a.toNat / 2 ^ k) (decide (k ≠ 0 ∧ a.toNat / 2 ^ (k - 1) % 2 = 1)) false := by
  rw [← shiftedOut]
  exact take_alu x d (shr_eq_ofInt a k) _ _

theorem take_aluSar (k : Nat) : x.take d (aluSar a k) =
    x.result d (a.toInt / 2 ^ k) (decide (k ≠ 0 ∧ a.toNat / 2 ^ (k - 1) % 2 = 1)) false := by
  rw [← shiftedOut]
  exact take_alu x d (sar_eq_ofInt a k) _ _

end

theorem movh_eq (r : Word64) (imm : BitVec 22) : r <<< 22 ||| zext imm = BitVec.ofNat 64 (r.toNat * 2 ^ 22 + imm.toNat) := by
  refine BitVec.eq_of_toNat_eq ?_
  have high : r.toNat <<< 22 % 2 ^ 64 = (r.toNat % 2 ^ 42) <<< 22 := by rw [Nat.shiftLeft_eq, Nat.shiftLeft_eq]; omega
  rw [BitVec.toNat_or, BitVec.toNat_shiftLeft, toNat_zext (by decide), BitVec.toNat_ofNat, high, ← Nat.shiftLeft_add_eq_or_of_lt imm.isLt,
    Nat.shiftLeft_eq]
  omega

theorem take_addi (x : Ctx) (d : Fin 16) (a : Word64) (imm : BitVec 18) : x.take d (aluAdd a (sext imm)) =
    x.result d (a.toInt + imm.toInt) (decide (2 ^ 64 ≤ a.toNat + (BitVec.ofInt 64 imm.toInt).toNat)) (!fits64 (a.toInt + imm.toInt)) := by
  rw [take_aluAdd x d a _ (add_eq_ofInt a _), toInt_sext (by decide)]; rfl

theorem setFlags_cmpi (x : Ctx) (a : Word64) (imm : BitVec 18) : x.setFlags (aluSub a (sext imm)) =
    x.result 0 (a.toInt - imm.toInt) (decide ((BitVec.ofInt 64 imm.toInt).toNat ≤ a.toNat)) (!fits64 (a.toInt - imm.toInt)) := by
  have flags := take_aluSub x 0 a (sext imm)
  rwa [toInt_sext (by decide)] at flags

theorem take_aluLogic (x : Ctx) (d : Fin 16) {r : Word64} {k : Nat} (h : r.toNat = k) :
    x.take d (aluLogic r) = x.result d k false false :=
  take_alu x d (ofInt_toNat h) false false

/-- The arithmetic instructions, as the statement reads them off Table 9.4, only change their context. -/
theorem arithmetic_local {i : Instr} {n : Fin 8} {x y : Ctx} (hn : aqsContext i = some n) (h : arithmetic x i = some y) :
    ∃ w f, (∀ s, exec i s = s.act (live 10 (unheld 10 (local' n w f)))) ∧ aqsEncode i = some w ∧ f x = y := by
  cases i with
  | nop | movi =>
    obtain rfl := Option.some.inj hn
    exact ⟨_, _, fun _ => rfl, rfl, Option.some.inj h⟩
  | movh =>
    obtain rfl := Option.some.inj hn
    exact ⟨_, _, fun _ => rfl, rfl, (congrArg (x.setReg _) (movh_eq _ _)).trans (Option.some.inj h)⟩
  | add =>
    obtain rfl := Option.some.inj hn
    exact ⟨_, _, fun _ => rfl, rfl, (take_aluAdd x _ _ _ (ofInt_add_toNat _ _)).trans (Option.some.inj h)⟩
  | addi =>
    obtain rfl := Option.some.inj hn
    exact ⟨_, _, fun _ => rfl, rfl, (take_addi x _ _ _).trans (Option.some.inj h)⟩
  | sub | cmp =>
    obtain rfl := Option.some.inj hn
    exact ⟨_, _, fun _ => rfl, rfl, (take_aluSub x _ _ _).trans (Option.some.inj h)⟩
  | cmpi =>
    obtain rfl := Option.some.inj hn
    exact ⟨_, _, fun _ => rfl, rfl, (setFlags_cmpi x _ _).trans (Option.some.inj h)⟩
  | mul =>
    obtain rfl := Option.some.inj hn
    exact ⟨_, _, fun _ => rfl, rfl, (take_aluMul x _ _ _).trans (Option.some.inj h)⟩
  | and =>
    obtain rfl := Option.some.inj hn
    exact ⟨_, _, fun _ => rfl, rfl, (take_aluLogic x _ (BitVec.toNat_and ..)).trans (Option.some.inj h)⟩
  | or =>
    obtain rfl := Option.some.inj hn
    exact ⟨_, _, fun _ => rfl, rfl, (take_aluLogic x _ (BitVec.toNat_or ..)).trans (Option.some.inj h)⟩
  | xor =>
    obtain rfl := Option.some.inj hn
    exact ⟨_, _, fun _ => rfl, rfl, (take_aluLogic x _ (BitVec.toNat_xor ..)).trans (Option.some.inj h)⟩
  | andi =>
    obtain rfl := Option.some.inj hn
    exact ⟨_, _, fun _ => rfl, rfl, (take_aluLogic x _ (by rw [BitVec.toNat_and, toNat_zext (by decide)])).trans (Option.some.inj h)⟩
  | ori =>
    obtain rfl := Option.some.inj hn
    exact ⟨_, _, fun _ => rfl, rfl, (take_aluLogic x _ (by rw [BitVec.toNat_or, toNat_zext (by decide)])).trans (Option.some.inj h)⟩
  | xori =>
    obtain rfl := Option.some.inj hn
    exact ⟨_, _, fun _ => rfl, rfl, (take_aluLogic x _ (by rw [BitVec.toNat_xor, toNat_zext (by decide)])).trans (Option.some.inj h)⟩
  | shl | shli =>
    obtain rfl := Option.some.inj hn
    exact ⟨_, _, fun _ => rfl, rfl, (take_aluShl x _ _ _).trans (Option.some.inj h)⟩
  | shr | shri =>
    obtain rfl := Option.some.inj hn
    exact ⟨_, _, fun _ => rfl, rfl, (take_aluShr x _ _ _).trans (Option.some.inj h)⟩
  | sar | sari =>
    obtain rfl := Option.some.inj hn
    exact ⟨_, _, fun _ => rfl, rfl, (take_aluSar x _ _ _).trans (Option.some.inj h)⟩
  | _ => cases h

theorem Ctx.setReg_frame (x : Ctx) (g : Fin 16) (v : Word64) :
    (x.setReg g v).run = x.run ∧ (x.setReg g v).single = x.single ∧ (x.setReg g v).pc = x.pc :=
  ⟨x.setReg_run g v, x.setReg_single g v, x.setReg_pc g v⟩

/-- The arithmetic itself neither stops nor moves the context. -/
theorem arithmetic_frame {i : Instr} {x y : Ctx} (h : arithmetic x i = some y) : y.run = x.run ∧ y.single = x.single ∧ y.pc = x.pc := by
  cases i with
  | nop =>
    obtain rfl := Option.some.inj h
    exact ⟨rfl, rfl, rfl⟩
  | movi | movh | add | sub | mul | cmp | and | or | xor | shl | shr | sar | addi | cmpi | andi | ori | xori | shli | shri | sari =>
    obtain rfl := Option.some.inj h
    exact x.setReg_frame _ _
  | _ => cases h

/-- Settles O8, from the shape that all arithmetic instructions share: their word and a function of their context. -/
theorem aqsIssueAndArithmetic : Obligations.AqsIssueAndArithmetic := by
  refine ⟨⟨fun s i n w hn hw other => ?_, fun s n i x up issued last result => ?_⟩, fun s n i x up issued more result => ?_,
    fun x d j v => x.reg_setReg d j v, fun x => x.reg_zero⟩
  · obtain ⟨f, meaning, idle⟩ := exec_aqs_other hn hw
    rw [Gives, meaning, State.act, live_unheld_eq (idle s.dev other)]
  · obtain ⟨w, f, meaning, word, -⟩ := arithmetic_local issued.context result
    exact gives_of_unheld 10 10 _ up (meaning s) (sequential_last _ (issued.issues word) last)
  · obtain ⟨w, f, meaning, word, rfl⟩ := arithmetic_local issued.context result
    obtain ⟨run, single, pc⟩ := arithmetic_frame result
    exact gives_of_local up issued more (meaning s) word run single pc

end Sys2Proof.Machine
end

section
/-! SUPPORT. O10: loads, stores and FADD of AQS. -/
namespace Sys2Proof.Machine

/-! ### Regions (R39, R268) -/

theorem regionOf_data {d : Dev} {a : Nat} (h : regionOf d a = some .data) : d.ddr.span ≤ a ∧ dataBase ≤ a ∧ a < dataBase + 0x200000 := by
  unfold regionOf at h
  split_ifs at h <;> simp_all

theorem regionOf_data_of {d : Dev} {a : Nat} (mapped : d.ddr.span ≤ a) (low : dataBase ≤ a) (high : a < dataBase + 0x200000) :
    regionOf d a = some .data := by
  have above (top : Nat) (h : top ≤ dataBase) : ¬ a < top := by omega
  simp only [regionOf, Nat.not_lt.mpr mapped, above (captureBase + 0x4000000) (by decide), above (stkBase + 0x1000000) (by decide),
    above (badgerBase + 0x800000) (by decide), above (programBase + 0x200000) (by decide), low, high, decide_true, decide_false,
    Bool.and_false, Bool.and_self, Bool.false_eq_true, if_false, if_true]

theorem regionOf_program {d : Dev} {a : Nat} (h : regionOf d a = some .program) : programBase ≤ a ∧ a < programBase + 0x200000 := by
  unfold regionOf at h
  split_ifs at h <;> simp_all

theorem regionOf_dram {d : Dev} {a : Nat} (h : a < d.ddr.span) : regionOf d a = some .dram := if_pos h

/-- DRAM addresses beyond what the stripe maps are holes. -/
theorem regionOf_unmapped {d : Dev} {a : Nat} (unmapped : d.ddr.span ≤ a) (low : a < dramEnd) : regionOf d a = none := by
  have below (base : Nat) (high : dramEnd ≤ base) : ¬ base ≤ a := by omega
  simp only [regionOf, Nat.not_lt.mpr unmapped, below captureBase (by decide), below stkBase (by decide), below badgerBase (by decide),
    below programBase (by decide), below dataBase (by decide), below tableBase (by decide), decide_false, Bool.false_and,
    Bool.false_eq_true, if_false]

/-- A store into data SRAM changes memory alone. -/
theorem fabricStore_data {d : Dev} {a : Nat} (h : regionOf d a = some .data) (bs : List Byte) : fabricStore d a bs = d.storeBytes a bs := by
  obtain ⟨mapped, low, -⟩ := regionOf_data h
  obtain ⟨mem, stored⟩ := storeBytes_eq d a bs
  have kept : d.writeOut a bs = d.storeBytes a bs := by
    rw [Dev.writeOut, Dev.clearPoison, if_pos (by rw [stored]; exact mapped)]
  have above : ¬ a < programBase + 0x200000 := Nat.not_lt.mpr low
  simp only [fabricStore, kept, above, decide_false, Bool.false_and, Bool.false_eq_true, if_false]

/-! ### A load or store in its slot (R237) -/

/-- Instruction i is the load or store `op` of register g at [Ga + imm]. -/
def Accesses (i : Instr) (op : MemOp) (n : Fin 8) (g a : Fin 16) (imm : BitVec 18) : Prop :=
  ∃ code, (∀ s, exec i s = s.act (live 10 (unheld 10 (aqsMemory op code n g a imm)))) ∧ aqsEncode i = some (encI code g a imm)

section
variable (n : Fin 8) (g a : Fin 16) (imm : BitVec 18)

theorem accesses_ld : Accesses (.ld n g a imm) .ld n g a imm := ⟨_, fun _ => rfl, rfl⟩
theorem accesses_ldw : Accesses (.ldw n g a imm) .ldw n g a imm := ⟨_, fun _ => rfl, rfl⟩
theorem accesses_st : Accesses (.st n g a imm) .st n g a imm := ⟨_, fun _ => rfl, rfl⟩
theorem accesses_stw : Accesses (.stw n g a imm) .stw n g a imm := ⟨_, fun _ => rfl, rfl⟩

end

section
variable {s : State} {n : Fin 8} {g a : Fin 16} {imm : BitVec 18} {i : Instr} {op : MemOp} (up : s.dev.Up)
  (access : Accesses i op n g a imm) (issued : s.dev.Issues n i) (more : (s.dev.ctx n).pc ≠ lastPc)
include up access issued more

theorem gives_access_hole (hole : regionOf s.dev ((s.dev.ctx n).address a imm) = none) :
    Gives i s (s.dev.faults n 0x0A04 (s.dev.ctx n).pc) := by
  obtain ⟨code, meaning, word⟩ := access
  refine gives_of_sequential up issued more (meaning s) word ?_
  simp only [hole, ite_self]
  rfl

section
variable {r : Region} (region : regionOf s.dev ((s.dev.ctx n).address a imm) = some r) (below : (s.dev.ctx n).address a imm < 2 ^ 48)
include region below

theorem gives_access_misaligned (misaligned : (s.dev.ctx n).address a imm % op.size ≠ 0) :
    Gives i s (s.dev.faults n 0x0A03 (s.dev.ctx n).pc) := by
  obtain ⟨code, meaning, word⟩ := access
  refine gives_of_sequential up issued more (meaning s) word ?_
  simp only [region, if_pos below, if_pos misaligned]
  rfl

variable (aligned : (s.dev.ctx n).address a imm % op.size = 0)
include aligned

theorem gives_load (load : op.isLoad = true) (sram : r = .data ∨ r = .program) :
    Gives i s (s.dev.goes n ((s.dev.ctx n).setReg g (BitVec.ofNat 64 (s.dev.load ((s.dev.ctx n).address a imm) op.size)))
      ((s.dev.ctx n).pc + 1)) := by
  obtain ⟨code, meaning, word⟩ := access
  refine gives_of_sequential up issued more (meaning s) word ?_
  rw [← issued.finish s.dev (Ctx.setReg_run _ _ _) (Ctx.setReg_single _ _ _) (Ctx.setReg_pc _ _ _)]
  obtain rfl | rfl := sram <;>
  simp only [region, if_pos below, aligned, ne_eq, not_true_eq_false, if_false, load, if_true, memoryAccess]

theorem gives_store_program (store : op.isLoad = false) (program : r = .program) :
    Gives i s (s.dev.faults n 0x0A05 (s.dev.ctx n).pc) := by
  subst program
  obtain ⟨code, meaning, word⟩ := access
  refine gives_of_sequential up issued more (meaning s) word ?_
  simp only [region, if_pos below, aligned, ne_eq, not_true_eq_false, if_false, store, Bool.false_eq_true]
  rfl

theorem gives_access_dram (dram : r = .dram) :
    Gives i s (s.dev.setCtx n { s.dev.ctx n with busy := .fabric op g ((s.dev.ctx n).address a imm) }) := by
  subst dram
  obtain ⟨code, meaning, word⟩ := access
  refine gives_of_sequential up issued more (meaning s) word ?_
  simp only [region, if_pos below, aligned, ne_eq, not_true_eq_false, if_false, begins]

theorem runs_store (store : op.isLoad = false) (data : r = .data) :
    Runs i s fun e => e = (s.dev.storeBytes ((s.dev.ctx n).address a imm) (leBytes op.size ((s.dev.ctx n).reg g).toNat)).goes n
      (s.dev.ctx n) ((s.dev.ctx n).pc + 1) := by
  subst data
  obtain ⟨code, meaning, word⟩ := access
  refine runs_of_sequential up issued more (meaning s) word ?_
  simp only [region, if_pos below, aligned, ne_eq, not_true_eq_false, if_false, store, Bool.false_eq_true, memoryAccess,
    fabricStore_data region]
  exact issued.finish _ rfl rfl rfl

end

end

/-- What a store of a number leaves behind, with the context gone on. -/
theorem stores_goes {d e : Dev} {n : Fin 8} {c : Ctx} {pc : BitVec 19} {a k v : Nat} (h : e = (d.storeBytes a (leBytes k v)).goes n c pc) :
    e.load a k = v % 256 ^ k ∧ MemoryOutside a k d e ∧ e = { d.goes n c pc with mem := e.mem } := by
  have stores : Stores a (leBytes k v) d e := (storeBytes_stores d a _).keeps (h ▸ ⟨rfl, rfl⟩)
  have loads := stores.loads
  have outside := stores.outside
  rw [length_leBytes] at loads outside
  refine ⟨by rw [Dev.load, loads, leNat_leBytes], outside, ?_⟩
  obtain ⟨mem, stored⟩ := storeBytes_eq d a (leBytes k v)
  rw [h, stored]
  rfl

section
variable {s : State} {n : Fin 8} (up : s.dev.Up)
include up

/-! ### FADD (R239) -/

theorem runs_fadd {g a b : Fin 16} (issued : s.dev.Issues n (.fadd n g a b)) (more : (s.dev.ctx n).pc ≠ lastPc)
    (data : regionOf s.dev ((s.dev.ctx n).reg a).toNat = some .data) (aligned : ((s.dev.ctx n).reg a).toNat % 8 = 0) :
    Runs (.fadd n g a b) s fun e => e = (s.dev.storeBytes ((s.dev.ctx n).reg a).toNat (leBytes 8
        (BitVec.ofNat 64 (s.dev.load ((s.dev.ctx n).reg a).toNat 8) + (s.dev.ctx n).reg b).toNat)).goes n
      ((s.dev.ctx n).setReg g (BitVec.ofNat 64 (s.dev.load ((s.dev.ctx n).reg a).toNat 8))) ((s.dev.ctx n).pc + 1) := by
  refine runs_of_sequential up issued more rfl rfl ?_
  obtain ⟨-, -, high⟩ := regionOf_data data
  have below : ((s.dev.ctx n).reg a).toNat < 2 ^ 48 := high.trans (by decide)
  simp only [below, data, and_self, not_true_eq_false, if_false, aligned, ne_eq]
  exact issued.finish _ (Ctx.setReg_run _ _ _) (Ctx.setReg_single _ _ _) (Ctx.setReg_pc _ _ _)

/-! ### Accesses through the fabric (R237) -/

section
variable (run : (s.dev.ctx n).run = .running) (single : (s.dev.ctx n).single = false) (late : (s.dev.ctx n).late = none)
include run single late

theorem gives_fabricLoad {g : Fin 16} {a : Nat} (busy : (s.dev.ctx n).busy = .fabric .ld g a)
    (region : regionOf s.dev a = some .stk ∨ regionOf s.dev a = some .badger ∨ regionOf s.dev a = some .table)
    (whole : noHole s.dev a 8 = true) : Gives (.fabricAccessDone n) s
      (s.dev.goes n ((s.dev.ctx n).setReg g (BitVec.ofNat 64 (s.dev.load a 8))) ((s.dev.ctx n).pc + 1)) := by
  refine gives_of_unheld 10 10 (fabricAccessDone n) up rfl ?_
  have served : regionOf s.dev a ≠ some .dram ∧ regionOf s.dev a ≠ some .capture := by
    obtain h | h | h := region <;> simp [h]
  simp only [fabricAccessDone, busy, served.1, served.2, decide_false, MemOp.isLoad, MemOp.size, Bool.and_false, Bool.false_and,
    Bool.or_self, Bool.false_eq_true, if_false, whole, Bool.not_true, memoryAccess, if_true]
  rw [completes_eq_goes (by simp [run]) (by simp [single]) (by simp [late]), Ctx.setReg_pc]

theorem gives_answered {g : Fin 16} {op : MemOp} {v : Word64} (busy : (s.dev.ctx n).busy = .answered op g v) :
    Gives (.fabricAccessDone n) s
      (s.dev.goes n (if op.isLoad then (s.dev.ctx n).setReg g v else s.dev.ctx n) ((s.dev.ctx n).pc + 1)) := by
  refine gives_of_unheld 10 10 (fabricAccessDone n) up rfl ?_
  simp only [fabricAccessDone, busy]
  cases op.isLoad with
  | true =>
    simp only [if_true]
    rw [completes_eq_goes (by simp [run]) (by simp [single]) (by simp [late]), Ctx.setReg_pc]
  | false => exact completes_eq_goes run single late n s.dev

end

/-- A time-out of an access to memory is precise: what it asked of DRAM is withdrawn (R237). -/
theorem gives_memTimeout {g : Fin 16} {op : MemOp} {a : Nat} (busy : (s.dev.ctx n).busy = .fabric op g a) :
    Gives (.memTimeout n) s ((withdraw n s.dev).faults n 0x0A06 (s.dev.ctx n).pc) := by
  refine gives_of_unheld 10 10 (memTimeout n) up rfl ?_
  simp only [memTimeout, busy]
  rfl

end

/-- The loads, as the statement lists them with their sizes. -/
theorem accesses_of_mem_loads {n : Fin 8} {g a : Fin 16} {imm : BitVec 18} {p : Instr × Nat}
    (h : p ∈ [(Instr.ld n g a imm, 8), (Instr.ldw n g a imm, 4)]) : ∃ op, Accesses p.1 op n g a imm ∧ op.size = p.2 ∧ op.isLoad = true := by
  obtain rfl | rfl : p = _ ∨ p = _ := by simpa using h
  · exact ⟨.ld, accesses_ld n g a imm, rfl, rfl⟩
  · exact ⟨.ldw, accesses_ldw n g a imm, rfl, rfl⟩

theorem accesses_of_mem_stores {n : Fin 8} {g a : Fin 16} {imm : BitVec 18} {p : Instr × Nat}
    (h : p ∈ [(Instr.st n g a imm, 8), (Instr.stw n g a imm, 4)]) :
    ∃ op, Accesses p.1 op n g a imm ∧ op.size = p.2 ∧ op.isLoad = false := by
  obtain rfl | rfl : p = _ ∨ p = _ := by simpa using h
  · exact ⟨.st, accesses_st n g a imm, rfl, rfl⟩
  · exact ⟨.stw, accesses_stw n g a imm, rfl, rfl⟩

theorem accesses_of_mem {n : Fin 8} {g a : Fin 16} {imm : BitVec 18} {p : Instr × Nat}
    (h : p ∈ [(Instr.ld n g a imm, 8), (Instr.ldw n g a imm, 4), (Instr.st n g a imm, 8), (Instr.stw n g a imm, 4)]) :
    ∃ op, Accesses p.1 op n g a imm ∧ op.size = p.2 := by
  obtain loads | stores : p ∈ [(Instr.ld n g a imm, 8), (Instr.ldw n g a imm, 4)] ∨
      p ∈ [(Instr.st n g a imm, 8), (Instr.stw n g a imm, 4)] := List.mem_append.mp h
  · obtain ⟨op, access, size, -⟩ := accesses_of_mem_loads loads
    exact ⟨op, access, size⟩
  · obtain ⟨op, access, size, -⟩ := accesses_of_mem_stores stores
    exact ⟨op, access, size⟩

/-- Program and data SRAM lie below 2^48, where addresses are decoded. -/
theorem sram_below {d : Dev} {a : Nat} (h : regionOf d a = some .data ∨ regionOf d a = some .program) : a < 2 ^ 48 := by
  obtain data | program := h
  · exact (regionOf_data data).2.2.trans (by decide)
  · exact (regionOf_program program).2.trans (by decide)

/-- Settles O10: a load or store turns on the region of its address; what the fabric serves completes later. -/
theorem aqsMemoryAccess : Obligations.AqsMemoryAccess := by
  refine ⟨fun s n g a imm p hp up issued more sram aligned => ?_, fun s n g a imm p hp up issued more data aligned => ?_,
    fun s n g a imm p hp up issued more span => ⟨fun low unmapped => ?_, fun region below misaligned => ?_⟩,
    fun s n g a imm up issued more aligned program => ?_, fun s n g a imm up issued more aligned mapped span => ?_,
    fun s n g a up run single late busy region whole => gives_fabricLoad up run single late busy region whole,
    fun s n g op v up run single late busy => gives_answered up run single late busy,
    fun s n g op a up busy => gives_memTimeout up busy, fun s n g a b up issued more data aligned => ?_⟩
  · obtain ⟨op, access, size, load⟩ := accesses_of_mem_loads hp
    rw [← size] at aligned ⊢
    obtain data | program := sram
    · exact gives_load up access issued more data (sram_below (.inl data)) aligned load (.inl rfl)
    · exact gives_load up access issued more program (sram_below (.inr program)) aligned load (.inr rfl)
  · obtain ⟨op, access, size, store⟩ := accesses_of_mem_stores hp
    rw [← size] at aligned ⊢
    obtain ⟨e, ran, h⟩ := runs_store up access issued more data (sram_below (.inl data)) aligned store rfl
    obtain ⟨load, outside, rest⟩ := stores_goes h
    exact ⟨e, ran, by rw [load, Nat.pow_mul], outside, rest⟩
  · obtain ⟨op, access, -⟩ := accesses_of_mem hp
    exact gives_access_hole up access issued more (regionOf_unmapped unmapped low)
  · obtain ⟨op, access, size⟩ := accesses_of_mem hp
    obtain ⟨r, region⟩ := Option.ne_none_iff_exists'.mp region
    exact gives_access_misaligned up access issued more region below (size ▸ misaligned)
  · exact gives_store_program up (accesses_st n g a imm) issued more program (sram_below (.inr program)) aligned rfl rfl
  · have below : (s.dev.ctx n).address a imm < 2 ^ 48 := (mapped.trans_le span).trans (by decide)
    exact gives_access_dram up (accesses_ld n g a imm) issued more (regionOf_dram mapped) below aligned rfl
  · obtain ⟨e, ran, h⟩ := runs_fadd up issued more data aligned
    obtain ⟨load, outside, rest⟩ := stores_goes h
    refine ⟨e, ran, ?_, outside, rest⟩
    rw [load, BitVec.toNat_add, BitVec.toNat_ofNat]
    omega

end Sys2Proof.Machine
end

section
/-! SUPPORT. O12: the bus requests of AQS with nothing in flight, and how what CFGC, BEAVER and T answer ends an instruction. -/
namespace Sys2Proof.Machine

/-! ### Nothing in flight (R36, R38) -/

section
variable {d : Dev} {n : Fin 8}

theorem inFlight_none (posted : d.aqs.posted = []) (block : Nat) : inFlight d n block = false := by
  simp [inFlight, myPosted, posted]
theorem cfgInFlight_none (posted : d.aqs.posted = []) : cfgInFlight d n = false := by simp [cfgInFlight, myPosted, posted]
theorem yields_none (urgent : d.aqs.urgent = []) (block : Nat) : yields d n block = false := by simp [yields, urgent]
theorem served_none (urgent : d.aqs.urgent = []) (block : Nat) : served n block d = d := by
  have same : d.aqs.urgent.erase (n, block) = d.aqs.urgent := by rw [urgent]; rfl
  simp only [served, same]

end

/-- The contexts see of a step of the hardware only what it does to AQS. -/
theorem goes_aqs {d e : Dev} (h : e.aqs = d.aqs) (n : Fin 8) (c : Ctx) (pc : BitVec 19) : (e.goes n c pc).aqs = (d.goes n c pc).aqs := by
  simp only [Dev.goes, Dev.setCtx, h]

section
variable (x : Ctx) (g : Fin 16) (code high : Nat)

@[simp] theorem Ctx.coded_run : (x.coded g code high).run = x.run := x.setReg_run _ _
@[simp] theorem Ctx.coded_single : (x.coded g code high).single = x.single := x.setReg_single _ _
@[simp] theorem Ctx.coded_pc : (x.coded g code high).pc = x.pc := x.setReg_pc _ _
@[simp] theorem Ctx.coded_late : (x.coded g code high).late = x.late := x.setReg_late _ _

end

/-- An instruction in progress of a RUNNING context ends with the context `c`, and the hardware as it is then. -/
theorem completes_of {d : Dev} {n : Fin 8} (run : (d.ctx n).run = .running) (single : (d.ctx n).single = false)
    (late : (d.ctx n).late = none) (e : Dev) {c : Ctx} (hrun : c.run = (d.ctx n).run) (hsingle : c.single = (d.ctx n).single)
    (hlate : c.late = (d.ctx n).late) (hpc : c.pc = (d.ctx n).pc) : completes n c e = e.goes n c ((d.ctx n).pc + 1) := by
  rw [completes_eq_goes (hrun.trans run) (hsingle.trans single) (hlate.trans late), hpc]

/-! ### COMMIT (R272, R274) -/

theorem showCfgc_eq (d : Dev) : ∃ regs, showCfgc d = { d with regs } := ⟨_, rfl⟩

theorem cfgCommit_full {d : Dev} (n : Fin 8) (full : 8 ≤ d.cfgc.commits.length) : cfgCommit (.ctx n) d = (d, 0x0114, 0) := if_pos full

/-- A commit of a context takes the staging set and the next sequence number. -/
theorem cfgCommit_room {d : Dev} (n : Fin 8) (room : d.cfgc.commits.length < 8) : ∃ regs halves cfgc,
    cfgCommit (.ctx n) d = ({ d with regs, halves, cfgc }, 0, d.cfgc.next) ∧ cfgc.staged = [] ∧
      cfgc.commits.length = d.cfgc.commits.length + 1 :=
  ⟨_, _, _, if_neg (Nat.not_le.mpr room), rfl, List.length_append⟩

/-! ### A block of one record (R244, R270, R271) -/

/-- Every part of a block whose ends lie in data SRAM lies there. -/
theorem blockSpace_data {d : Dev} {a k m : Nat} (low : regionOf d a = some .data) (high : regionOf d (a + k) = some .data) (pos : 0 < m)
    (le : m ≤ k + 1) : blockSpace d a m = true := by
  obtain ⟨mapped, base, -⟩ := regionOf_data low
  obtain ⟨-, -, top⟩ := regionOf_data high
  have last : regionOf d (a + m - 1) = some .data := regionOf_data_of (by omega) (by omega) (by omega)
  have whole : rangeRegion d a m = some .data := by simp [rangeRegion, low, last]
  simp only [blockSpace, sram_below (.inl low), whole, decide_true, Bool.true_or, Bool.and_self]

/-- The row of FOX_SEQ_COUNT. -/
def seqCountRow : RegRow := ⟨R.FOX_SEQ_COUNT, [], 1, 0, 0xFFFFFFFF, 0, 0, 0, 0, 0, true, .single⟩

theorem findReg_seqCount : findReg R.FOX_SEQ_COUNT = some (seqCountRow, []) := by decide +kernel

/-- A count of at least 1 is in the range of FOX_SEQ_COUNT, and no bit of it is reserved. -/
theorem clampBy_seqCount {v : Nat} (pos : v ≠ 0) (lt : v < 2 ^ 32) :
    clampBy (singleRules seqCountRow.off) (andNat v seqCountRow.rw) = (v, []) ∧ andNat v (rowBits seqCountRow) = v := by
  have all : andNat v 0xFFFFFFFF = v := by
    rw [andNat, show BitVec.ofNat 32 0xFFFFFFFF = BitVec.allOnes 32 from rfl, BitVec.and_allOnes, BitVec.toNat_ofNat, Nat.mod_eq_of_lt lt]
  have rules : singleRules seqCountRow.off = [inRange 31 0 1 (2 ^ 32 - 1)] := rfl
  have inside : (inRange 31 0 1 (2 ^ 32 - 1)).2 v = v := by
    have clamped : clampNat 1 (2 ^ 32 - 1) v = v := by rw [clampNat, if_neg (by omega), if_neg (by omega)]
    have field : bitsOf v 31 0 = v := by rw [bitsOf]; omega
    change setBits v 31 0 (clampNat 1 (2 ^ 32 - 1) (bitsOf v 31 0)) = v
    rw [field, clamped, setBits, field]
    omega
  refine ⟨?_, all⟩
  rw [rules, show andNat v seqCountRow.rw = v from all]
  simp only [clampBy, inside, if_true]

/-- CFGC with a count for FOX_SEQ_COUNT alone in its staging set, under the next sequence number. -/
def seqCountStaged (d : Dev) (v : Nat) : Cfgc :=
  { (takeSeq d).1.cfgc with staged := [⟨R.FOX_SEQ_COUNT, BitVec.ofNat 32 v, d.cfgc.next⟩] }

/-- Staging a count for FOX_SEQ_COUNT alone takes the next sequence number. -/
theorem cfgWrite_seqCount {d : Dev} {v : Nat} (n : Fin 8) (pos : v ≠ 0) (lt : v < 2 ^ 32) (empty : d.cfgc.staged = []) : ∃ regs cfgc,
    cfgWrite (.ctx n) R.FOX_SEQ_COUNT v d = ({ d with regs, cfgc }, 0) ∧
      cfgc.staged = [⟨R.FOX_SEQ_COUNT, BitVec.ofNat 32 v, d.cfgc.next⟩] := by
  obtain ⟨clamped, reserved⟩ := clampBy_seqCount pos lt
  have allowed (e : Dev) : sealedWrite e (.ctx n) R.FOX_SEQ_COUNT = false := by
    have untrimmed : (isTrim R.FOX_SEQ_COUNT || (spareBank R.FOX_SEQ_COUNT).isSome) = false := by decide
    rw [sealedWrite, untrimmed, Bool.and_false]
  have cfg : seqCountRow.cfg = true := rfl
  have part : seqCountRow.part = .single := rfl
  have write : cfgWrite (.ctx n) R.FOX_SEQ_COUNT v d = (showCfgc { (takeSeq d).1 with cfgc := seqCountStaged d v }, 0) := by
    have taken : (takeSeq d).1.cfgc.staged = [] := empty
    have seq : (takeSeq d).2 = d.cfgc.next := rfl
    have nothing (e : Dev) : reportAll d.cfgc.next R.FOX_SEQ_COUNT v v [] e = e := rfl
    simp only [cfgWrite, findReg_seqCount, cfg, Bool.not_true, Bool.false_eq_true, if_false, allowed, part, taken, seq, List.any_nil,
      Bool.not_false, Bool.true_and, List.length_nil, show ¬ 4096 ≤ 0 by decide, decide_false, clamped, reserved, if_true,
      List.nil_append, nothing, stageWord, List.filter_nil, hostCode, reduceCtorEq, Dev.setCfgc, seqCountStaged]
  obtain ⟨regs, shown⟩ := showCfgc_eq { (takeSeq d).1 with cfgc := seqCountStaged d v }
  exact ⟨regs, seqCountStaged d v, write.trans (by rw [shown]; rfl), rfl⟩

/-- `stageRecords`, with what it loads, assigns, reports and writes as parameters: one record of it unfolds without running them. -/
def stageBy (load : Dev → Nat → Nat → Nat) (isReg : Nat → Bool) (take : Dev → Dev × Nat)
    (report : Dev → Nat → Nat → Nat → Nat → Bool → Nat → Nat → Dev) (write : Nat → Nat → Dev → Dev × Nat) (a : Nat) :
    Nat → Nat → Dev → Nat → Bool → Dev × Nat × Nat
  | 0, _, d, staged, skipped => (d, if skipped then 0x0113 else 0, staged)
  | left + 1, j, d, staged, skipped =>
    let rec0 := a + 16 + 8 * j
    let block := load d rec0 2
    let field := load d (rec0 + 2) 2
    let v := load d (rec0 + 4) 4
    let reg := block * 0x100000 + 4 * field
    if 21 < block || 0x8000 ≤ field || !isReg reg then
      let (d, seq) := take d
      stageBy load isReg take report write a left (j + 1) (report d (seq % 65536) field v 0 false (block % 32) 0x0107) staged true
    else
      let (d, code) := write reg v d
      if code = 0x0112 then (d, 0x0112, staged)
      else if code = 0 then stageBy load isReg take report write a left (j + 1) d (staged + 1) skipped
      else stageBy load isReg take report write a left (j + 1) d staged true

theorem stageRecords_eq_stageBy (r : Requester) : stageRecords r = stageBy Dev.load isCfgReg takeSeq fileReport (cfgWrite r) := by
  delta stageRecords stageBy
  rfl

/-- One record that is staged. -/
theorem stageBy_one {load isReg take report write a} {d e : Dev} {block field v : Nat} (hb : load d (a + 16) 2 = block)
    (hf : load d (a + 18) 2 = field) (hv : load d (a + 20) 4 = v) (inBlock : block ≤ 21) (low : field < 0x8000)
    (register : isReg (block * 0x100000 + 4 * field) = true) (written : write (block * 0x100000 + 4 * field) v d = (e, 0)) :
    stageBy load isReg take report write a 1 0 d 0 false = (e, 0, 1) := by
  simp only [stageBy, Nat.mul_zero, Nat.add_zero, Nat.add_assoc, Nat.reduceAdd, hb, hf, hv, Nat.not_lt.mpr inBlock, Nat.not_le.mpr low,
    register, decide_false, Bool.not_true, Bool.or_self, Bool.false_eq_true, if_false, written, Nat.reduceEqDiff, if_true]

/-- A block of one record that stages a count for FOX_SEQ_COUNT. -/
theorem stageBlock_seqCount {d : Dev} {a : Nat} (n : Fin 8) (aligned : a % 8 = 0) (low : regionOf d a = some .data)
    (high : regionOf d (a + 23) = some .data) (format : d.load (a + 4) 2 = 1) (version : d.load (a + 6) 2 = 0) (len : d.load (a + 8) 4 = 24)
    (block : d.load (a + 16) 2 = R.FOX_SEQ_COUNT / 0x100000) (field : d.load (a + 18) 2 = R.FOX_SEQ_COUNT % 0x100000 / 4)
    (pos : d.load (a + 20) 4 ≠ 0) (empty : d.cfgc.staged = []) : ∃ regs cfgc,
    stageBlock (.ctx n) a 4096 d = ({ d with regs, cfgc }, 0, 1) ∧
      cfgc.staged = [⟨R.FOX_SEQ_COUNT, BitVec.ofNat 32 (d.load (a + 20) 4), d.cfgc.next⟩] := by
  have lt : d.load (a + 20) 4 < 2 ^ 32 := (leNat_lt _).trans_eq (by rw [length_loadBytes]; rfl)
  obtain ⟨regs, cfgc, staged, taken⟩ := cfgWrite_seqCount n pos lt empty
  refine ⟨regs, cfgc, ?_, taken⟩
  have register : isCfgReg R.FOX_SEQ_COUNT = true := by simp only [isCfgReg, findReg_seqCount]; rfl
  have records : stageRecords (.ctx n) a 1 0 d 0 false = ({ d with regs, cfgc }, 0, 1) := by
    rw [stageRecords_eq_stageBy]
    have address : R.FOX_SEQ_COUNT / 0x100000 * 0x100000 + 4 * (R.FOX_SEQ_COUNT % 0x100000 / 4) = R.FOX_SEQ_COUNT := by decide
    exact stageBy_one block field rfl (by decide) (by decide) (by rw [address]; exact register) (by rw [address]; exact staged)
  have one : min 4096 ((24 - 16) / 8) = 1 := by decide
  simp only [stageBlock, aligned, blockSpace_data low high (show 0 < 16 by decide) (by decide),
    blockSpace_data low high (show 0 < 24 by decide) (by decide), format, version, len, ne_eq,
    not_true_eq_false, Nat.reduceMod, Nat.reduceLT, Nat.reduceMul, Nat.reduceAdd, decide_false, Bool.not_true, Bool.or_self,
    Bool.false_eq_true, if_false, one, records]

end Sys2Proof.Machine
end

section
/-! SUPPORT. O12: what BEAVER and T answer, and the instructions that wait for it. -/
namespace Sys2Proof.Machine

/-! ### A chain handed over (R388) -/

/-- The registers of a channel and the one of the engine lie apart. -/
theorem beaverRegs_apart (n : Nat) : R.BEAVER_CH_n_STATUS n ∉ [R.BEAVER_CH_n_HEAD_LO n, R.BEAVER_CH_n_HEAD_LO n + 4] ∧
    R.BEAVER_CH_n_STATUS n ∉ [R.BEAVER_CH_n_CUR_LO n, R.BEAVER_CH_n_CUR_LO n + 4] ∧
    R.BEAVER_STATUS ∉ [R.BEAVER_CH_n_CUR_LO n, R.BEAVER_CH_n_CUR_LO n + 4] ∧ R.BEAVER_CH_n_STATUS n ≠ R.BEAVER_STATUS := by
  simp only [R.BEAVER_CH_n_STATUS, R.BEAVER_CH_n_HEAD_LO, R.BEAVER_CH_n_CUR_LO, R.BEAVER_STATUS, List.mem_cons, List.not_mem_nil, or_false]
  omega

/-- Writing HEAD does not bear on whether a chain is accepted. -/
theorem handoverCode_wr64_head (ch : Fin 32) (k v : Nat) (d : Dev) :
    handoverCode ch k (d.wr64 (R.BEAVER_CH_n_HEAD_LO ch) v) = handoverCode ch k d := by
  obtain ⟨apart, -⟩ := beaverRegs_apart ch
  have run : chanRun (d.wr64 (R.BEAVER_CH_n_HEAD_LO ch) v) ch = chanRun d ch := Dev.get_wr64_ne _ _ _ _ apart
  have enabled : chanEnabled (d.wr64 (R.BEAVER_CH_n_HEAD_LO ch) v) ch = chanEnabled d ch := rfl
  have names : schedNames (d.wr64 (R.BEAVER_CH_n_HEAD_LO ch) v) ch = schedNames d ch := rfl
  simp only [handoverCode, run, enabled, names]

theorem showBeaver_eq (d : Dev) : ∃ x, showBeaver d = d.put F.BEAVER_STATUS_STATE x := ⟨_, rfl⟩

section
variable (ch : Fin 32) (d : Dev)

@[simp] theorem chanStart_aqs : (chanStart ch d).aqs = d.aqs := rfl
@[simp] theorem chanStart_mem : (chanStart ch d).mem = d.mem := rfl

theorem rd64_cur_chanStart : (chanStart ch d).rd64 (R.BEAVER_CH_n_CUR_LO ch) = d.rd64 (R.BEAVER_CH_n_CUR_LO ch) := by
  obtain ⟨-, status, engine, -⟩ := beaverRegs_apart ch
  obtain ⟨x, shown⟩ := showBeaver_eq (((d.setChan ch {}).put (F.BEAVER_CH_n_STATUS_RUN ch) runRunning).setUnit (.beaver ch) stOn)
  rw [chanStart, shown, Dev.rd64_put_ne _ _ _ _ engine, Dev.setUnit, Dev.rd64_put_ne _ _ _ _ status, Dev.rd64_put_ne _ _ _ _ status]
  rfl

theorem run_chanStart : (chanStart ch d).get (F.BEAVER_CH_n_STATUS_RUN ch) = runRunning := by
  obtain ⟨-, -, -, engine⟩ := beaverRegs_apart ch
  obtain ⟨x, shown⟩ := showBeaver_eq (((d.setChan ch {}).put (F.BEAVER_CH_n_STATUS_RUN ch) runRunning).setUnit (.beaver ch) stOn)
  rw [chanStart, shown, Dev.get_put_ne _ _ _ _ engine, Dev.setUnit,
    Dev.get_put_other _ (UnitId.state (.beaver ch)) (F.BEAVER_CH_n_STATUS_RUN ch) _ ⟨Nat.zero_le 1, show 1 < 32 by decide⟩ rfl
      (.inr (show 1 < 4 by decide)),
    Dev.get_put_same _ _ _ ⟨show 4 ≤ 5 by decide, show 5 < 32 by decide⟩]
  rfl

end

/-- A chain that is accepted starts its channel at its head. -/
theorem chainHandover_accepted {ch : Fin 32} {head : Word64} {d : Dev} (accepted : handoverCode ch head.toNat d = 0) :
    chainHandover ch head d =
      chanStart ch ((d.wr64 (R.BEAVER_CH_n_HEAD_LO ch) head.toNat).wr64 (R.BEAVER_CH_n_CUR_LO ch) head.toNat) := by
  simp only [chainHandover, handoverCode_wr64_head, accepted, ne_eq, not_true_eq_false, if_false]

/-! ### The oldest entry of a queue (R294) -/

theorem ctx_put (d : Dev) (f : Field) (x : Nat) (n : Fin 8) : (d.put f x).ctx n = d.ctx n := rfl
theorem ctx_setLynx (d : Dev) (q : Fin 8) (x : LynxIn) (n : Fin 8) : (d.setLynx q x).ctx n = d.ctx n := rfl

theorem lynxPop_cons {q : Fin 8} {d : Dev} {w0 w1 : Word64} {rest} (queue : (d.lynx.get q).queue = (w0, w1) :: rest) :
    lynxPop q d = ((d.setLynx q { d.lynx.get q with queue := rest }).put (F.LYNX_n_LEVEL_LEVEL q) rest.length, w0, w1) := by
  simp only [lynxPop, queue]

/-! ### The instructions in progress -/

section
variable {s : State} {n : Fin 8} (up : s.dev.Up) (run : (s.dev.ctx n).run = .running) (single : (s.dev.ctx n).single = false)
  (late : (s.dev.ctx n).late = none) (posted : s.dev.aqs.posted = [])
include up run single late posted

theorem gives_cfgl_misaligned {g : Fin 16} {a : Nat} (busy : (s.dev.ctx n).busy = .cfgl g a) (misaligned : a % 8 ≠ 0) :
    Gives (.cfglDone n) s (s.dev.goes n { (s.dev.ctx n).setReg g 0x0111 with z := false } ((s.dev.ctx n).pc + 1)) := by
  have refused : stageBlock (.ctx n) a 4096 s.dev = (s.dev, 0x0111, 0) := by
    simp only [stageBlock, misaligned, ne_eq, not_false_eq_true, decide_true, Bool.true_or, if_true]
  refine gives_of_unheld 10 10 (cfglDone n) up rfl ?_
  simp only [cfglDone, busy, cfgInFlight_none posted, Bool.false_eq_true, if_false, refused]
  exact completes_of run single late s.dev (Ctx.coded_run ..) (Ctx.coded_single ..) (Ctx.coded_late ..) (Ctx.coded_pc ..)

/-- CFGL of a block whose one record is staged returns 1 in the high word. -/
theorem runs_cfgl_staged {g : Fin 16} {a : Nat} (busy : (s.dev.ctx n).busy = .cfgl g a) {regs : Store Word} {cfgc : Cfgc}
    (staged : stageBlock (.ctx n) a 4096 s.dev = ({ s.dev with regs, cfgc }, 0, 1)) : Runs (.cfglDone n) s fun e =>
      e = Dev.goes { s.dev with regs, cfgc } n { (s.dev.ctx n).setReg g (BitVec.ofNat 64 (2 ^ 32)) with z := true }
        ((s.dev.ctx n).pc + 1) := by
  refine runs_of_unheld 10 10 (cfglDone n) up rfl ?_
  simp only [cfglDone, busy, cfgInFlight_none posted, Bool.false_eq_true, if_false, staged]
  exact completes_of run single late _ (Ctx.coded_run ..) (Ctx.coded_single ..) (Ctx.coded_late ..) (Ctx.coded_pc ..)

variable (urgent : s.dev.aqs.urgent = [])
include urgent

theorem runs_dmaqDone {g : Fin 16} {head : Word64} {ch : Fin 32} (busy : (s.dev.ctx n).busy = .dmaq g head ch)
    (accepted : handoverCode ch head.toNat s.dev = 0) : Runs (.dmaqDone n) s fun e =>
      e = (chainHandover ch head s.dev).goes n { (s.dev.ctx n).setReg g 0 with z := true } ((s.dev.ctx n).pc + 1) := by
  have ctx : (chainHandover ch head s.dev).ctx n = s.dev.ctx n := by rw [chainHandover_accepted accepted]; rfl
  refine runs_of_unheld 10 10 (dmaqDone n) up rfl ?_
  simp only [dmaqDone, busy, inFlight_none posted, yields_none urgent, Bool.or_self, Bool.false_eq_true, if_false, served_none urgent,
    accepted, ctx]
  exact completes_of run single late _ (Ctx.coded_run ..) (Ctx.coded_single ..) (Ctx.coded_late ..) (Ctx.coded_pc ..)

theorem gives_lyq_empty {g a : Fin 16} {q : Fin 8} (busy : (s.dev.ctx n).busy = .lyq g a q) (queue : (s.dev.lynx.get q).queue = []) :
    Gives (.lyqDone n) s (s.dev.goes n { s.dev.ctx n with z := true } ((s.dev.ctx n).pc + 1)) := by
  refine gives_of_unheld 10 10 (lyqDone n) up rfl ?_
  simp only [lyqDone, inFlight_none posted, yields_none urgent, Bool.or_self, Bool.false_eq_true, if_false, served_none urgent]
  rw [busy]
  simp only [queue, List.isEmpty_nil, Bool.true_or, if_true]
  exact completes_of run single late s.dev (c := { s.dev.ctx n with z := true }) rfl rfl rfl rfl

theorem runs_lyq_entry {g a : Fin 16} {q : Fin 8} (busy : (s.dev.ctx n).busy = .lyq g a q) {w0 w1 : Word64} {rest : List (Word64 × Word64)}
    (queue : (s.dev.lynx.get q).queue = (w0, w1) :: rest) : Runs (.lyqDone n) s fun e =>
      e = ((s.dev.setLynx q { s.dev.lynx.get q with queue := rest }).put (F.LYNX_n_LEVEL_LEVEL q) rest.length).goes n
        { ((s.dev.ctx n).setReg g w0).setReg a w1 with z := false } ((s.dev.ctx n).pc + 1) := by
  have running : inSreset s.dev 9 = false := by
    obtain ⟨-, -, -, sreset, -⟩ := up
    simp [inSreset, sreset]
  refine runs_of_unheld 10 10 (lyqDone n) up rfl ?_
  simp only [lyqDone, busy, inFlight_none posted, yields_none urgent, Bool.or_self, Bool.false_eq_true, if_false, served_none urgent,
    running, queue, List.isEmpty_cons, lynxPop_cons queue, ctx_put, ctx_setLynx]
  exact completes_of run single late _ (by simp) (by simp) (by simp) (by simp)

end

/-- Settles O12: CFGL, DMAQ and LYQ begin, and what their unit answers ends them; COMMIT takes the staging set in its slot. -/
theorem aqsConfigurationAndDma : Obligations.AqsConfigurationAndDma := by
  refine ⟨fun s n g a ch q p hp up issued more => ?_, fun s n g a up run single late busy posted => ⟨fun misaligned => ?_, ?_⟩,
    fun s n g up issued more posted => ⟨fun full => ?_, fun room => ?_⟩,
    fun s n g head ch up run single late busy posted urgent accepted => ?_,
    fun s n q g a up run single late busy posted urgent => ⟨fun queue => ?_, fun w0 w1 rest queue => ?_⟩⟩
  · obtain rfl | rfl | rfl : p = _ ∨ p = _ ∨ p = _ := by simpa using hp
    · exact gives_of_sequential up issued more rfl rfl rfl
    · exact gives_of_sequential up issued more rfl rfl rfl
    · exact gives_of_sequential up issued more rfl rfl rfl
  · exact gives_cfgl_misaligned up run single late posted busy misaligned
  · intro aligned low high format version len block field pos empty
    obtain ⟨regs, cfgc, staged, taken⟩ := stageBlock_seqCount n aligned low high format version len block field pos empty
    obtain ⟨e, ran, h⟩ := runs_cfgl_staged up run single late posted busy staged
    exact ⟨e, ran, by rw [h]; exact taken, by rw [h]; rfl, by rw [h]; rfl, by rw [h]; rfl⟩
  · refine gives_of_sequential up issued more rfl rfl ?_
    simp only [cfgInFlight_none posted, Bool.false_eq_true, if_false, cfgCommit_full n full]
    exact issued.finish s.dev (Ctx.coded_run ..) (Ctx.coded_single ..) (Ctx.coded_pc ..)
  · obtain ⟨regs, halves, cfgc, commit, empty, count⟩ := cfgCommit_room n room
    refine runs_of_sequential up issued more rfl rfl ?_
    simp only [cfgInFlight_none posted, Bool.false_eq_true, if_false, commit]
    rw [issued.finish _ (Ctx.coded_run ..) (Ctx.coded_single ..) (Ctx.coded_pc ..)]
    refine ⟨?_, empty, count, rfl, rfl⟩
    rw [Ctx.coded, Nat.zero_add]
    rfl
  · obtain ⟨e, ran, h⟩ := runs_dmaqDone up run single late posted urgent busy accepted
    rw [chainHandover_accepted accepted] at h
    subst h
    refine ⟨_, ran, goes_aqs (chanStart_aqs ch _) n _ _, ?_, ?_, ?_⟩
    · rw [Dev.rd64_goes, rd64_cur_chanStart, Dev.rd64_wr64, Nat.mod_eq_of_lt head.isLt]
    · rw [Dev.get_goes, run_chanStart]
    · rw [Dev.goes_mem, chanStart_mem, Dev.wr64_mem, Dev.wr64_mem]
  · exact gives_lyq_empty up run single late posted urgent busy queue
  · obtain ⟨e, ran, h⟩ := runs_lyq_entry up run single late posted urgent busy queue
    subst h
    refine ⟨_, ran, goes_aqs rfl n _ _, ?_, fun b outside => ?_, ?_⟩
    · exact congrArg LynxIn.queue (Vector.getElem_set_self q.isLt)
    · rw [Dev.rd_goes]
      exact Dev.rd_put_ne _ _ _ _ (List.mem_singleton.not.mp outside)
    · rw [Dev.goes_mem, Dev.put_mem]
      rfl

end Sys2Proof.Machine
end

section
/-! SUPPORT. O44: a burst request at its channel, and its service. -/
namespace Sys2Proof.Machine

/-! ### A request arrives (R371, R375, R376) -/

@[simp] theorem chans_setDdrCh (d : Dev) (n : Fin 12) (c : DdrCh) : (d.setDdrCh n c).ddr.chans.get n = c := Vector.getElem_set_self n.isLt

theorem chans_setDdrCh_ne (d : Dev) {n m : Fin 12} (h : m ≠ n) (c : DdrCh) : (d.setDdrCh n c).ddr.chans.get m = d.ddr.chans.get m :=
  Vector.getElem_set_ne n.isLt m.isLt fun e => h (Fin.ext e.symm)

theorem rd_setDdrCh (d : Dev) (n : Fin 12) (c : DdrCh) (a : Nat) : (d.setDdrCh n c).rd a = d.rd a := rfl
theorem mem_setDdrCh (d : Dev) (n : Fin 12) (c : DdrCh) : (d.setDdrCh n c).mem = d.mem := rfl
theorem crossings_setDdrCh (d : Dev) (n : Fin 12) (c : DdrCh) : (d.setDdrCh n c).crossings = d.crossings := rfl
theorem unitState_setDdrCh (d : Dev) (n : Fin 12) (c : DdrCh) (u : UnitId) : (d.setDdrCh n c).unitState u = d.unitState u := rfl

theorem inDram_burst {d : Dev} {a : Nat} (h : a + 64 ≤ d.ddr.span) : inDram d a 64 = true := by
  have first : regionOf d a = some .dram := if_pos (by omega)
  have last : regionOf d (a + 64 - 1) = some .dram := if_pos (by omega)
  simp only [inDram, rangeRegion, first, last, decide_true, Bool.or_true, if_true]

/-- The request as it stands in its channel's queue: at its burst, urgent when CAP presses and it is Class D. -/
def queued (d : Dev) (r : DdrReq) (a : Nat) : DdrReq := { r with addr := a, urgent := r.classD && ddrPressure d }

/-- The channel with that request: its rank is awake. -/
def withRequest (d : Dev) (c : DdrCh) (q : DdrReq) : DdrCh :=
  { c with queue := c.queue ++ [q], classD := c.classD || q.classD, pd := c.pd.set (reqRank d q % 2) false (by omega) }

theorem ddrRequest_eq {d : Dev} {r : DdrReq} {a : Nat} {n : Fin 12} (burst : r.addr / 64 * 64 = a) (channel : (dramMap d a).1 = n)
    (place : a + 64 ≤ d.ddr.span) (room : (d.ddr.chans.get n).queue.length < 64) : ddrRequest r d =
      (d.setDdrCh n (withRequest d (d.ddr.chans.get n) (queued d r a))).put F.DDR_READY_SR
        (setBits (d.get F.DDR_READY_SR) n.val n.val 0) := by
  simp only [ddrRequest, burst, channel, inDram_burst place, Bool.not_true, Bool.false_eq_true, if_false, Nat.not_le.mpr room]
  rfl

/-- A channel with one more request. -/
structure Queued (d : Dev) (n : Fin 12) (q : DdrReq) (e : Dev) : Prop where
  queue : (e.ddr.chans.get n).queue = (d.ddr.chans.get n).queue ++ [q]
  awake : bitsOf (e.get F.DDR_READY_SR) n.val n.val = 0
  others : ∀ m, m ≠ n → e.ddr.chans.get m = d.ddr.chans.get m
  regs : RegsOutside [R.DDR_READY] d e
  mem : e.mem = d.mem
  aqs : e.aqs = d.aqs

theorem ddrRequest_queued {d : Dev} {r : DdrReq} {a : Nat} (burst : r.addr / 64 * 64 = a) (place : a + 64 ≤ d.ddr.span)
    (room : (d.ddr.chans.get (dramMap d a).1).queue.length < 64) : Queued d (dramMap d a).1 (queued d r a) (ddrRequest r d) := by
  rw [ddrRequest_eq burst rfl place room]
  generalize (dramMap d a).1 = n at room
  have small : setBits (d.get F.DDR_READY_SR) n.val n.val 0 < 2 ^ 12 := setBits_lt _ _ _ _ 12 (bitsOf_lt _ 27 16) n.isLt le_rfl
  exact {
    queue := by rw [Dev.put_ddr, chans_setDdrCh]; rfl
    awake := by
      rw [Dev.get_put_same _ _ _ ⟨by decide, by decide⟩]
      change bitsOf (setBits (d.get F.DDR_READY_SR) n.val n.val 0 % 2 ^ 12) n.val n.val = 0
      rw [Nat.mod_eq_of_lt small, bitsOf_setBits_same, Nat.zero_mod]
    others := fun m other => by rw [Dev.put_ddr, chans_setDdrCh_ne d other]
    regs := fun b outside => Dev.rd_put_ne _ _ _ _ (List.mem_singleton.not.mp outside)
    mem := rfl
    aqs := rfl }

/-- A context that waits at a channel is found there. -/
theorem waitsAtDdr_of_queue {d : Dev} {n : Fin 12} {m : Fin 8} {q : DdrReq} (mem : q ∈ (d.ddr.chans.get n).queue) (ctx : q.ctx = some m) :
    waitsAtDdr d m = true := by
  refine List.any_eq_true.mpr ⟨d.ddr.chans.get n, ?_, List.any_eq_true.mpr ⟨q, mem, by simp [ctx]⟩⟩
  exact Vector.mem_toList_iff.mpr (Vector.getElem_mem n.isLt)

/-! ### A burst alone in its channel's queue is served (R376) -/

theorem ddrPick_single {d : Dev} {c : DdrCh} {r : DdrReq} (queue : c.queue = [r]) : ddrPick d c = some r := by
  have free : ([r].zipIdx.filter fun x => !([r].take x.2).any (fun q => q.addr == x.1.addr)).map (·.1) = [r] := rfl
  simp only [ddrPick, queue, free, List.find?_cons, List.find?_nil, List.head?_cons]
  cases r.urgent with
  | true => rfl
  | false => cases r.classD with
    | true => rfl
    | false => cases c.rows.contains (localRow d (dramMap d r.addr).2) <;> rfl

theorem channelDrained_on {d : Dev} {n : Fin 12} (on : d.unitState (.ddr n) = stOn) : channelDrained n d = d := by
  simp [channelDrained, on, stOn, stDraining]

theorem answerCtx_eq (r : DdrReq) (burst : List Byte) (d : Dev) : ∃ aqs, answerCtx r burst d = { d with aqs } := by
  unfold answerCtx
  split
  · exact ⟨_, rfl⟩
  · dsimp only
    split <;> exact ⟨_, rfl⟩

/-- Serving ends with the answer to a context, which changes AQS alone; a channel that is ON stays so. -/
theorem served_end {n : Fin 12} {d : Dev} (on : d.unitState (.ddr n) = stOn) (r : DdrReq) (burst : List Byte) :
    ∃ aqs, channelDrained n (answerCtx r burst d) = { d with aqs } := by
  obtain ⟨aqs, answer⟩ := answerCtx_eq r burst d
  exact ⟨aqs, by rw [answer]; exact channelDrained_on (d := { d with aqs }) on⟩

/-- The channel with its queue empty and the row that the request opened. -/
def servedChan (d : Dev) (n : Fin 12) (r : DdrReq) : DdrCh :=
  { d.ddr.chans.get n with
    queue := []
    rows := localRow d (dramMap d r.addr).2 ::
      (d.ddr.chans.get n).rows.filter (fun x => x.1 ≠ (localRow d (dramMap d r.addr).2).1) }

/-- After a read: what it met, and its burst. -/
def readDone (d : Dev) (n : Fin 12) (r : DdrReq) (o : EccOutcome) : Dev :=
  { ddrEcc n r.addr o (d.setDdrCh n (servedChan d n r)) with
    ddr := { (ddrEcc n r.addr o (d.setDdrCh n (servedChan d n r))).ddr with
      out := d.loadBytes r.addr 64, outPoisoned := o == .uncorrectable } }

/-- Only the DRAM channels and AQS differ. -/
structure DdrAqsOnly (d e : Dev) : Prop where
  regs : e.regs = d.regs
  mem : e.mem = d.mem
  crossings : e.crossings = d.crossings

namespace DdrAqsOnly
variable {d e : Dev} (h : DdrAqsOnly d e)
include h

theorem rd (a : Nat) : e.rd a = d.rd a := by rw [Dev.rd, Dev.rd, h.regs]
theorem rd64 (a : Nat) : e.rd64 a = d.rd64 a := by rw [Dev.rd64, Dev.rd64, h.rd, h.rd]
theorem get (f : Field) : e.get f = d.get f := by rw [Dev.get, Dev.get, h.rd]
theorem reports {b : Dev} {i : Island} {num sub arg : Nat} {ts : Option TS} (posted : Says i num sub arg ts b d) :
  Says i num sub arg ts b e :=
  h.crossings.trans posted

theorem setAqs (aqs : Aqs) : DdrAqsOnly d { e with aqs } := ⟨h.regs, h.mem, h.crossings⟩

end DdrAqsOnly

theorem DdrAqsOnly.setDdr (d : Dev) (ddr : Ddr) : DdrAqsOnly d { d with ddr } := ⟨rfl, rfl, rfl⟩

theorem unitState_ddr (d : Dev) (ddr : Ddr) (u : UnitId) : ({ d with ddr } : Dev).unitState u = d.unitState u := rfl

theorem unitState_readDone (d : Dev) (n : Fin 12) (r : DdrReq) (o : EccOutcome) (u : UnitId) :
    (readDone d n r o).unitState u = (ddrEcc n r.addr o (d.setDdrCh n (servedChan d n r))).unitState u := unitState_ddr ..

theorem readDone_only (d : Dev) (n : Fin 12) (r : DdrReq) (o : EccOutcome) :
    DdrAqsOnly (ddrEcc n r.addr o (d.setDdrCh n (servedChan d n r))) (readDone d n r o) := .setDdr ..

section
variable {d : Dev} {n : Fin 12} {r : DdrReq} (queue : (d.ddr.chans.get n).queue = [r]) (poison : (d.ddr.chans.get n).poison = [])
include queue poison

theorem burstService_read (read : r.write = false) (o : EccOutcome) :
    burstService n o d = channelDrained n (answerCtx r (d.loadBytes r.addr 64) (readDone d n r o)) := by
  have clean : (d.ddr.chans.get n).poison.contains r.addr = false := by rw [poison]; rfl
  have taken : (d.ddr.chans.get n).queue.erase r = [] := by rw [queue, List.erase_cons_head]
  simp only [burstService, ddrPick_single queue, clean, taken, Bool.false_eq_true, if_false, read, Bool.not_false, if_true]
  rfl

theorem burstService_merge (write : r.write = true) (part : r.be ≠ BitVec.allOnes 64) :
    burstService n .ok d = channelDrained n (answerCtx r (d.loadBytes r.addr 64)
      ((d.setDdrCh n (servedChan d n r)).storeBytes r.addr (mergeBytes (d.loadBytes r.addr 64) r.data r.be))) := by
  have clean : (d.ddr.chans.get n).poison.contains r.addr = false := by rw [poison]; rfl
  have taken : (d.ddr.chans.get n).queue.erase r = [] := by rw [queue, List.erase_cons_head]
  simp only [burstService, ddrPick_single queue, clean, taken, Bool.false_eq_true, if_false, write, Bool.not_true, part, ne_eq,
    not_false_eq_true, if_true]
  rfl

theorem burstService_write (write : r.write = true) (full : r.be = BitVec.allOnes 64) (o : EccOutcome) :
    burstService n o d = channelDrained n (answerCtx r (d.loadBytes r.addr 64)
      (((d.setDdrCh n (servedChan d n r)).storeBytes r.addr (r.data.take 64)).setDdrCh n
        { servedChan d n r with poison := (d.ddr.chans.get n).poison.filter fun a => a ≠ r.addr })) := by
  have clean : (d.ddr.chans.get n).poison.contains r.addr = false := by rw [poison]; rfl
  have taken : (d.ddr.chans.get n).queue.erase r = [] := by rw [queue, List.erase_cons_head]
  simp only [burstService, ddrPick_single queue, clean, taken, Bool.false_eq_true, if_false, write, Bool.not_true, full, ne_eq,
    not_true_eq_false]
  rfl

end

/-! ### Errors met by a read (R379, R380) -/

section
variable (d : Dev) (n : Fin 12) (a : Nat)

/-- The registers that an uncorrectable error is reported in lie apart. -/
theorem ueRegs_apart : R.DDR_CH_n_UE_CNT n ∉ [R.DDR_CH_n_UE_ADDR_LO n, R.DDR_CH_n_UE_ADDR_LO n + 4] ∧
    R.DDR_CH_n_STATUS n ∉ [R.DDR_CH_n_UE_ADDR_LO n, R.DDR_CH_n_UE_ADDR_LO n + 4] ∧
    R.DDR_STATUS ∉ [R.DDR_CH_n_UE_ADDR_LO n, R.DDR_CH_n_UE_ADDR_LO n + 4] ∧
    R.DDR_CH_n_UE_CNT n ≠ R.DDR_CH_n_STATUS n ∧ R.DDR_CH_n_UE_CNT n ≠ R.DDR_STATUS ∧ R.DDR_CH_n_STATUS n ≠ R.DDR_STATUS := by
  simp only [R.DDR_CH_n_UE_CNT, R.DDR_CH_n_UE_ADDR_LO, R.DDR_CH_n_STATUS, R.DDR_STATUS, List.mem_cons, List.not_mem_nil, or_false]
  omega

theorem ddrEcc_uncorrectable : ddrEcc n a .uncorrectable d =
    ((((d.count (R.DDR_CH_n_UE_CNT n)).wr64 (R.DDR_CH_n_UE_ADDR_LO n) a).put (F.DDR_CH_n_STATUS_LAST_CODE n) 0x1005).put
      F.DDR_STATUS_LAST_CODE 0x1005).post .q evDdrUe n.val a := rfl

theorem rd_ueCnt_ddrEcc : ((ddrEcc n a .uncorrectable d).rd (R.DDR_CH_n_UE_CNT n)).toNat =
    min ((d.rd (R.DDR_CH_n_UE_CNT n)).toNat + 1) 0xFFFFFFFF := by
  obtain ⟨addr, -, -, status, engine, -⟩ := ueRegs_apart n
  rw [ddrEcc_uncorrectable, Dev.rd_post, Dev.rd_put_ne _ _ _ _ engine, Dev.rd_put_ne _ _ _ _ status, Dev.rd_wr64_ne _ _ _ _ addr, Dev.count,
    Dev.rd_wr_same, BitVec.toNat_ofNat]
  omega

theorem rd64_ueAddr_ddrEcc : (ddrEcc n a .uncorrectable d).rd64 (R.DDR_CH_n_UE_ADDR_LO n) = a % 2 ^ 64 := by
  obtain ⟨-, status, engine, -⟩ := ueRegs_apart n
  rw [ddrEcc_uncorrectable, Dev.rd64, Dev.rd_post, Dev.rd_post, ← Dev.rd64, Dev.rd64_put_ne _ _ _ _ engine, Dev.rd64_put_ne _ _ _ _ status,
    Dev.rd64_wr64]

theorem lastCode_ddrEcc : (ddrEcc n a .uncorrectable d).get (F.DDR_CH_n_STATUS_LAST_CODE n) = 0x1005 := by
  obtain ⟨-, -, -, -, -, engine⟩ := ueRegs_apart n
  rw [ddrEcc_uncorrectable, Dev.get_post, Dev.get_put_ne _ _ _ _ engine,
    Dev.get_put_same _ _ _ ⟨show 16 ≤ 31 by decide, show 31 < 32 by decide⟩]
  rfl

theorem unitState_ddrEcc : (ddrEcc n a .uncorrectable d).unitState (.ddr n) = d.unitState (.ddr n) := by
  obtain ⟨-, addr, -, status, -, engine⟩ := ueRegs_apart n
  rw [ddrEcc_uncorrectable, Dev.unitState, Dev.get_post, Dev.get_put_ne _ F.DDR_STATUS_LAST_CODE (UnitId.state (.ddr n)) _ engine,
    Dev.get_put_other _ (F.DDR_CH_n_STATUS_LAST_CODE n) (UnitId.state (.ddr n)) _ ⟨show 16 ≤ 31 by decide, show 31 < 32 by decide⟩ rfl
      (.inl (show 1 < 16 by decide)), Dev.get_wr64_ne _ _ _ _ addr, Dev.count, Dev.get_wr_ne _ _ _ _ status.symm, Dev.unitState]

theorem ddrEcc_ue_mem : (ddrEcc n a .uncorrectable d).mem = d.mem := by
  rw [ddrEcc_uncorrectable, Dev.post_mem, Dev.put_mem, Dev.put_mem, Dev.wr64_mem, Dev.count_mem]
theorem says_ddrEcc {d' : Dev} (same : d'.crossings = d.crossings) :
    Says .q evDdrUe n.val a none d (ddrEcc n a .uncorrectable d') := by
  rw [ddrEcc_uncorrectable]
  exact says_post (by rw [Dev.put_crossings, Dev.put_crossings, Dev.wr64_crossings, Dev.count_crossings, same]) _ _ _ _ _

end

/-! ### Bytes of a burst -/

theorem getElem_loadBytes (d : Dev) (a n i : Nat) (h : i < (d.loadBytes a n).length) : (d.loadBytes a n)[i] = d.byte (a + i) := by
  induction n generalizing a i with
  | zero => exact absurd h (Nat.not_lt_zero i)
  | succ n ih => cases i with
    | zero => rfl
    | succ i =>
      exact (ih (a + 1) i (Nat.lt_of_succ_lt_succ h)).trans (congrArg d.byte (Nat.add_right_comm a 1 i))

theorem length_mergeBytes {old new : List Byte} (be : Word64) (ho : old.length = 64) (hn : new.length = 64) :
    (mergeBytes old new be).length = 64 := by
  simp [mergeBytes, ho, hn]

/-- An enabled byte is the new one. -/
theorem getElem_mergeBytes {old new : List Byte} (be : Word64) (i : Nat) (ho : i < old.length) (hn : i < new.length)
    (h : i < (mergeBytes old new be).length) : (mergeBytes old new be)[i] = if be.getLsbD i then new[i] else old[i] := by
  simp [mergeBytes]

/-! ### The clauses of O44 -/

section
variable {s : State} {n : Fin 12} {r : DdrReq} (up : s.dev.Up) (queue : (s.dev.ddr.chans.get n).queue = [r])
  (poison : (s.dev.ddr.chans.get n).poison = []) (on : s.dev.unitState (.ddr n) = stOn)
include up queue poison on

theorem runs_burst_write (o : EccOutcome) (write : r.write = true) (full : r.be = BitVec.allOnes 64) (length : r.data.length = 64) :
    Runs (.burstService n o) s fun e => e.loadBytes r.addr 64 = r.data ∧ MemoryOutside r.addr 64 s.dev e ∧
      (e.ddr.chans.get n).queue = [] ∧ e.regs = s.dev.regs ∧ e.crossings = s.dev.crossings := by
  have whole : r.data.take 64 = r.data := List.take_of_length_le length.le
  obtain ⟨mem, stored⟩ := storeBytes_eq (s.dev.setDdrCh n (servedChan s.dev n r)) r.addr r.data
  obtain ⟨loads, outside⟩ := storeBytes_stores (s.dev.setDdrCh n (servedChan s.dev n r)) r.addr r.data
  rw [length, stored] at loads outside
  refine runs_of_unheld 16 16 (burstService n o) up rfl ?_
  rw [burstService_write queue poison write full, whole, stored]
  obtain ⟨aqs, ends⟩ := served_end (n := n) (d := Dev.setDdrCh { s.dev.setDdrCh n (servedChan s.dev n r) with mem } n
    { servedChan s.dev n r with poison := (s.dev.ddr.chans.get n).poison.filter fun a => a ≠ r.addr }) on r (s.dev.loadBytes r.addr 64)
  rw [ends]
  exact ⟨loads, outside, congrArg DdrCh.queue (chans_setDdrCh _ n _), rfl, rfl⟩

/-- A write of part of a burst merges its enabled bytes into the burst (R379). -/
theorem runs_burst_merge (write : r.write = true) (part : r.be ≠ BitVec.allOnes 64) (length : r.data.length = 64) :
    Runs (.burstService n .ok) s fun e =>
      (∀ k : Fin 64, e.byte (r.addr + k.val) = if r.be.getLsbD k.val then r.data.getD k.val 0 else s.dev.byte (r.addr + k.val)) ∧
      MemoryOutside r.addr 64 s.dev e ∧ (e.ddr.chans.get n).queue = [] ∧ e.regs = s.dev.regs := by
  have old := length_loadBytes s.dev r.addr 64
  have merged := length_mergeBytes r.be old length
  have bytes (k : Fin 64) := Dev.byte_storeBytes_mem (s.dev.setDdrCh n (servedChan s.dev n r)) r.addr k.val
    (mergeBytes (s.dev.loadBytes r.addr 64) r.data r.be) (by rw [merged]; exact k.isLt)
  obtain ⟨-, outside⟩ := storeBytes_stores (s.dev.setDdrCh n (servedChan s.dev n r)) r.addr
    (mergeBytes (s.dev.loadBytes r.addr 64) r.data r.be)
  obtain ⟨mem, stored⟩ := storeBytes_eq (s.dev.setDdrCh n (servedChan s.dev n r)) r.addr
    (mergeBytes (s.dev.loadBytes r.addr 64) r.data r.be)
  rw [merged] at outside
  rw [stored] at outside bytes
  refine runs_of_unheld 16 16 (burstService n .ok) up rfl ?_
  rw [burstService_merge queue poison write part, stored]
  obtain ⟨aqs, ends⟩ := served_end (n := n) (d := { s.dev.setDdrCh n (servedChan s.dev n r) with mem }) on r (s.dev.loadBytes r.addr 64)
  rw [ends]
  refine ⟨fun k => (bytes k).trans ?_, outside, congrArg DdrCh.queue (chans_setDdrCh _ n _), rfl⟩
  rw [getElem_mergeBytes r.be k.val (by rw [old]; exact k.isLt) (by rw [length]; exact k.isLt), getElem_loadBytes,
    List.getD_eq_getElem _ _ (by rw [length]; exact k.isLt)]

theorem runs_burst_read (read : r.write = false) : Runs (.burstService n .ok) s fun e =>
    e.ddr.out = s.dev.loadBytes r.addr 64 ∧ e.ddr.outPoisoned = false ∧ (e.ddr.chans.get n).queue = [] ∧ e.mem = s.dev.mem ∧
      e.regs = s.dev.regs ∧ e.crossings = s.dev.crossings := by
  refine runs_of_unheld 16 16 (burstService n .ok) up rfl ?_
  rw [burstService_read queue poison read]
  obtain ⟨aqs, ends⟩ := served_end (n := n) (d := readDone s.dev n r .ok) on r (s.dev.loadBytes r.addr 64)
  rw [ends]
  exact ⟨rfl, rfl, congrArg DdrCh.queue (chans_setDdrCh _ n _), rfl, rfl, rfl⟩

/-- An uncorrectable error of a read is counted and reported, and marks the burst (R380). -/
theorem runs_burst_uncorrectable (read : r.write = false) : Runs (.burstService n .uncorrectable) s fun e => e.ddr.outPoisoned = true ∧
    (e.rd (R.DDR_CH_n_UE_CNT n)).toNat = min ((s.dev.rd (R.DDR_CH_n_UE_CNT n)).toNat + 1) 0xFFFFFFFF ∧
    e.rd64 (R.DDR_CH_n_UE_ADDR_LO n) = r.addr % 2 ^ 64 ∧ e.get (F.DDR_CH_n_STATUS_LAST_CODE n) = 0x1005 ∧
    Says .q evDdrUe n.val r.addr none s.dev e ∧ e.mem = s.dev.mem := by
  have still : (readDone s.dev n r .uncorrectable).unitState (.ddr n) = stOn := by
    rw [unitState_readDone, unitState_ddrEcc, unitState_setDdrCh, on]
  obtain ⟨aqs, ends⟩ := served_end still r (s.dev.loadBytes r.addr 64)
  have only := (readDone_only s.dev n r .uncorrectable).setAqs aqs
  refine runs_of_unheld 16 16 (burstService n .uncorrectable) up rfl ?_
  rw [burstService_read queue poison read, ends]
  refine ⟨rfl, ?_, ?_, ?_, only.reports (says_ddrEcc s.dev n r.addr (crossings_setDdrCh ..)), ?_⟩
  · rw [only.rd, rd_ueCnt_ddrEcc, rd_setDdrCh]
  · rw [only.rd64, rd64_ueAddr_ddrEcc]
  · rw [only.get, lastCode_ddrEcc]
  · rw [only.mem, ddrEcc_ue_mem, mem_setDdrCh]

end

/-- Settles O44: a request joins its channel's queue; one alone there is what the arbiter takes, and is read, written or merged. -/
theorem dramBursts : Obligations.DramBursts := by
  refine ⟨fun s r up ctx aligned place room => ?_, fun s r n op g a up ctx busy apart place room => ?_,
    fun s n r o up queue poison on => ⟨runs_burst_write up queue poison on o, runs_burst_merge up queue poison on,
      runs_burst_read up queue poison on, runs_burst_uncorrectable up queue poison on⟩⟩
  · have arrives : burstArrives r s.dev = ddrRequest r s.dev := by simp only [burstArrives, ctx]
    obtain ⟨queue, awake, others, regs, mem, -⟩ := ddrRequest_queued (r := r)
      (Nat.div_mul_cancel (Nat.dvd_of_mod_eq_zero aligned)) place room
    refine runs_of_live 16 (burstArrives r) up rfl ?_
    rw [arrives]
    exact ⟨queue, awake, others, regs, mem⟩
  · have arrives : burstArrives r s.dev = ddrRequest (accessReq n op ((s.dev.ctx n).reg g) a) s.dev := by
      have fabric : (s.dev.aqs.ctxs.get n).busy = .fabric op g a := busy
      simp only [burstArrives, ctx, fabric, apart, Bool.false_eq_true, if_false]
      rfl
    have burst : (accessReq n op ((s.dev.ctx n).reg g) a).addr / 64 * 64 = a / 64 * 64 := by
      change (a - a % 64) / 64 * 64 = a / 64 * 64
      omega
    obtain ⟨queue, awake, others, regs, mem, aqs⟩ := ddrRequest_queued burst place room
    refine runs_of_live 16 (burstArrives r) up rfl ?_
    rw [arrives]
    exact ⟨queue, waitsAtDdr_of_queue (by rw [queue]; exact List.mem_append_right _ (List.mem_singleton.mpr rfl)) rfl, regs, mem, aqs⟩

end Sys2Proof.Machine
end

section
/-! SUPPORT. O18: a configuration write is staged, a commit is taken and checked, and its unit applies it. -/
namespace Sys2Proof.Machine

/-! ### Registers that show what CFGC holds -/

/-- From `d` to `e` only registers change, and of them only those in `touched`. -/
structure RegsOnly (touched : List Nat) (d e : Dev) : Prop where
  eq : e = { d with regs := e.regs }
  rd : RegsOutside touched d e

namespace RegsOnly
variable {touched : List Nat} {c d e : Dev}

theorem refl (d : Dev) : RegsOnly touched d d := ⟨rfl, fun _ _ => rfl⟩

theorem wr (h : RegsOnly touched d e) {a : Nat} (ha : a ∈ touched) (v : Word) : RegsOnly touched d (e.wr a v) where
  eq := congrArg (Dev.wr · a v) h.eq
  rd b hb := (Dev.rd_wr_ne _ _ _ _ fun same => hb (by rwa [same])).trans (h.rd b hb)

theorem put (h : RegsOnly touched d e) {f : Field} (hf : f.reg ∈ touched) (x : Nat) : RegsOnly touched d (e.put f x) := h.wr hf _
theorem putB (h : RegsOnly touched d e) {f : Field} (hf : f.reg ∈ touched) (x : Bool) : RegsOnly touched d (e.putB f x) := h.wr hf _

theorem cfgc (h : RegsOnly touched d e) : e.cfgc = d.cfgc := (congrArg Dev.cfgc h.eq :)
theorem halves (h : RegsOnly touched d e) : e.halves = d.halves := (congrArg Dev.halves h.eq :)
theorem eff (h : RegsOnly touched d e) : e.eff = d.eff := (congrArg Dev.eff h.eq :)
theorem mem (h : RegsOnly touched d e) : e.mem = d.mem := (congrArg Dev.mem h.eq :)
theorem crossings (h : RegsOnly touched d e) : e.crossings = d.crossings := (congrArg Dev.crossings h.eq :)
theorem ef (h : RegsOnly touched d e) (a : Nat) : e.ef a = d.ef a := by rw [Dev.ef, Dev.ef, h.eff]

end RegsOnly

/-- What CFGC shows of itself stands in CFGC_STATUS. -/
theorem RegsOnly.showCfgc {d e : Dev} (h : RegsOnly [R.CFGC_STATUS] d e) : RegsOnly [R.CFGC_STATUS] d (showCfgc e) :=
  have shown : R.CFGC_STATUS ∈ [R.CFGC_STATUS] := List.mem_singleton_self _
  ((h.put (f := F.CFGC_STATUS_STAGED) shown _).putB (f := F.CFGC_STATUS_BUSY) shown _).putB (f := F.CFGC_STATUS_PENDING) shown _

/-- So does the code of a host's access. -/
theorem RegsOnly.hostCode {d e : Dev} (h : RegsOnly [R.CFGC_STATUS] d e) (q : Requester) (c : Nat) :
    RegsOnly [R.CFGC_STATUS] d (hostCode q c e) := by
  unfold Machine.hostCode
  split
  · exact h.put (f := F.CFGC_STATUS_LAST_CODE) (List.mem_singleton_self _) c
  · exact h

theorem get_showCfgc (d : Dev) : (showCfgc d).get F.CFGC_STATUS_STAGED = d.cfgc.staged.length % 2 ^ 13 ∧
    (showCfgc d).get F.CFGC_STATUS_BUSY = (!d.cfgc.commits.isEmpty).toNat := by
  have bit (b : Bool) : b.toNat % 2 = b.toNat := by cases b <;> rfl
  simp (disch := decide) only [showCfgc, Dev.putB, Dev.get_put_apart, Dev.get_put_same]
  exact ⟨rfl, bit _⟩

theorem get_hostCode_host (c : Nat) (d : Dev) : (hostCode .host c d).get F.CFGC_STATUS_LAST_CODE = c % 2 ^ 16 := by
  rw [hostCode, if_pos rfl, Dev.get_put_same _ _ _ (by decide)]
  rfl

/-! ### Reports of clamps (R276, R277) -/

theorem storeRpt_eq (d : Dev) (i : Nat) (bs : List Byte) : ∃ rpt, storeRpt d i bs = { d with cfgc := { d.cfgc with rpt } } := by
  induction bs generalizing d i with
  | nil => exact ⟨_, rfl⟩
  | cons b bs ih =>
    obtain ⟨rpt, stored⟩ := ih { d with cfgc := { d.cfgc with rpt := Store.set zeroByte d.cfgc.rpt i b } } (i + 1)
    exact ⟨rpt, stored⟩

/-- With room in the report queue a report is written at its end. -/
theorem fileReport_room {d : Dev} (room : ((d.rd R.CFGC_RPT_WR).toNat + 2 ^ 32 - (d.rd R.CFGC_RPT_RD).toNat) % 2 ^ 32 < 4096)
    (seq field req app : Nat) (hi : Bool) (block code : Nat) : ∃ rpt, fileReport d seq field req app hi block code =
      ({ d with cfgc := { d.cfgc with rpt } } : Dev).wr R.CFGC_RPT_WR (BitVec.ofNat 32 ((d.rd R.CFGC_RPT_WR).toNat + 1)) := by
  simp only [fileReport, if_neg (Nat.not_le.mpr room)]
  obtain ⟨rpt, stored⟩ := storeRpt_eq d (16 * ((d.rd R.CFGC_RPT_WR).toNat % 4096)) (leBytes 2 seq ++ leBytes 2 field ++ leBytes 4 req ++
    leBytes 4 app ++ leBytes 4 ((if hi = true then 2 ^ 31 else 0) + block * 2 ^ 16 + code))
  exact ⟨rpt, congrArg (Dev.wr · _ _) stored⟩

/-- A report, filed or lost, leaves the staging set and what is in effect. -/
theorem fileReport_staged (d : Dev) (seq field req app : Nat) (hi : Bool) (block code : Nat) :
    (fileReport d seq field req app hi block code).cfgc.staged = d.cfgc.staged ∧
    (fileReport d seq field req app hi block code).eff = d.eff := by
  by_cases room : ((d.rd R.CFGC_RPT_WR).toNat + 2 ^ 32 - (d.rd R.CFGC_RPT_RD).toNat) % 2 ^ 32 < 4096
  · obtain ⟨rpt, filed⟩ := fileReport_room room seq field req app hi block code
    rw [filed]
    exact ⟨rfl, rfl⟩
  · simp only [fileReport, if_pos (Nat.not_lt.mp room)]
    split <;> exact ⟨rfl, rfl⟩

theorem reportAll_nil (seq a req app : Nat) (d : Dev) : reportAll seq a req app [] d = d := rfl
theorem reportAll_singleton (seq a req app c : Nat) (d : Dev) : reportAll seq a req app [c] d = reportAt d seq a req app c := rfl

/-! ### Masks and clamps -/

theorem andNat_toNat (v : Word) (m : Nat) : andNat v.toNat m = v.toNat &&& m := by
  rw [andNat, BitVec.toNat_and, BitVec.toNat_ofNat, BitVec.toNat_ofNat, ← Nat.and_mod_two_pow, Nat.mod_eq_of_lt]
  exact Nat.lt_of_le_of_lt Nat.and_le_left v.isLt

/-- A count of 0 is below the range of FOX_SEQ_COUNT: 1 stands. -/
theorem clampBy_seqCount_zero : clampBy (singleRules seqCountRow.off) (andNat 0 seqCountRow.rw) = (1, [clRange]) ∧
    andNat 0 (rowBits seqCountRow) = 0 := by decide

/-! ### Configuration writes (R272, R273) -/

/-- The next sequence number is taken, and the staging set becomes `l`. -/
def Dev.restage (d : Dev) (l : List Staged) : Dev := (takeSeq d).1.setCfgc { (takeSeq d).1.cfgc with staged := l }

theorem rd_takeSeq_ne (d : Dev) (a : Nat) (h : a ≠ R.CFGC_SEQ) : (takeSeq d).1.rd a = d.rd a := Dev.rd_wr_ne _ _ _ _ h
theorem rd_takeSeq (d : Dev) : (takeSeq d).1.rd R.CFGC_SEQ = BitVec.ofNat 32 d.cfgc.next := Dev.rd_wr_same _ _ _

/-- The lifecycle, and so what R80 refuses, does not depend on the sequence counter. -/
theorem sealedWrite_takeSeq (d : Dev) (q : Requester) (a : Nat) : sealedWrite (takeSeq d).1 q a = sealedWrite d q a := by
  have lc : (takeSeq d).1.get F.HEDGE_STATUS_LC = d.get F.HEDGE_STATUS_LC :=
    congrArg (fun w : Word => bitsOf w.toNat _ _) (rd_takeSeq_ne d _ (by decide))
  simp only [sealedWrite, Dev.sealedState, lc]

section
variable {d : Dev} {q : Requester} {a : Nat} {r : RegRow} {ix : List Nat}

/-- A write to a configuration register of a module that is up reaches CFGC. -/
theorem runs_configWrite {s : State} {v : Word} {p : Dev → Prop} (up : s.dev.Up) (aligned : a % 4 = 0) (low : a < csrEnd)
    (noMsix : isMsix a = false) (hf : findReg a = some (r, ix)) (cfg : r.cfg = true) (hp : p (cfgWrite q a v.toNat s.dev).1) :
    Runs (.configWrite ⟨q, none⟩ (BitVec.ofNat 26 a) v) s p := by
  refine runs_of_act (configCommand q (BitVec.ofNat 26 a).toNat v.toNat ∘ programFirst q none) rfl ?_
  have addr : (BitVec.ofNat 26 a).toNat = a := by
    simp only [csrEnd] at low
    rw [BitVec.toNat_ofNat, Nat.mod_eq_of_lt (by omega)]
  have alone : programFirst q none s.dev = s.dev := by cases q <;> rfl
  have isCfg : isCfgReg a = true := by simp only [isCfgReg, hf, cfg]
  have written : configCommand q a v.toNat s.dev = (cfgWrite q a v.toNat s.dev).1 := by
    simp only [configCommand, isCfg, isRegister_of_findReg aligned hf, Bool.and_self, if_true, regWrite, up.block, Bool.not_true,
      Bool.false_eq_true, if_false, noMsix, hf, cfg, configWrite]
  rwa [Function.comp_apply, alone, addr, written]

theorem runs_configWrite_reaches {s : State} {v : Word} {p : Dev → Prop} (hr : s.dev.Reaches q a) (hf : findReg a = some (r, ix))
    (cfg : r.cfg = true) (hp : p (cfgWrite q a v.toNat s.dev).1) : Runs (.configWrite ⟨q, none⟩ (BitVec.ofNat 26 a) v) s p := by
  obtain ⟨up, -, aligned, low, noMsix, -⟩ := hr
  exact runs_configWrite up aligned (by omega) noMsix hf cfg hp

/-- A register that stands alone, with room in the staging set: its word is staged as its clamps leave it, with their reports. -/
theorem cfgWrite_single (hf : findReg a = some (r, ix)) (cfg : r.cfg = true) (part : r.part = .single)
    (unsealed : sealedWrite d q a = false) (room : d.cfgc.staged.length < 4096) {v app : Nat} {codes : List Nat}
    (unreserved : andNat v (rowBits r) = v) (clamped : clampBy (singleRules r.off) (andNat v r.rw) = (app, codes)) :
    (cfgWrite q a v d).1 = hostCode q (codes.getLastD 0) (showCfgc (reportAll d.cfgc.next a v app codes
      (d.restage (stageWord d.cfgc.staged ⟨a, BitVec.ofNat 32 app, d.cfgc.next⟩)))) := by
  have fits : ¬ 4096 ≤ (takeSeq d).1.cfgc.staged.length := Nat.not_le.mpr room
  simp only [cfgWrite, hf, cfg, part, sealedWrite_takeSeq, unsealed, fits, unreserved, clamped, Bool.not_true, Bool.false_eq_true,
    if_false, decide_false, Bool.and_false, if_true, List.nil_append]
  rfl

/-- A value that stands is staged with nothing reported. -/
theorem cfgWrite_single_stands (hf : findReg a = some (r, ix)) (cfg : r.cfg = true) (part : r.part = .single)
    (unsealed : sealedWrite d q a = false) (room : d.cfgc.staged.length < 4096) {v app : Nat} (unreserved : andNat v (rowBits r) = v)
    (clamped : clampBy (singleRules r.off) (andNat v r.rw) = (app, [])) : (cfgWrite q a v d).1 =
      hostCode q 0 (showCfgc (d.restage (stageWord d.cfgc.staged ⟨a, BitVec.ofNat 32 app, d.cfgc.next⟩))) := by
  rw [cfgWrite_single hf cfg part unsealed room unreserved clamped, reportAll_nil, List.getLastD_nil]

/-- On a full staging set that holds no word of the register a write is refused, with a report. -/
theorem cfgWrite_full (hf : findReg a = some (r, ix)) (cfg : r.cfg = true) (part : r.part = .single)
    (unsealed : sealedWrite d q a = false) (full : 4096 ≤ d.cfgc.staged.length) (new : ∀ w ∈ d.cfgc.staged, w.addr ≠ a) (v : Nat) :
    cfgWrite q a v d = refuseWrite q d.cfgc.next a v 0x0112 (takeSeq d).1 := by
  have fresh : (takeSeq d).1.cfgc.staged.any (fun w => w.addr == a) = false :=
    List.any_eq_false.mpr fun w hw => mt beq_iff_eq.mp (new w hw)
  have noRoom : 4096 ≤ (takeSeq d).1.cfgc.staged.length := full
  simp only [cfgWrite, hf, cfg, part, sealedWrite_takeSeq, unsealed, fresh, noRoom, Bool.not_true, Bool.false_eq_true, if_false,
    Bool.not_false, decide_true, Bool.and_self, if_true]
  rfl

/-- A _LO half is held, in place of one that the requester wrote before. -/
theorem cfgWrite_lo (hf : findReg a = some (r, ix)) (cfg : r.cfg = true) (part : r.part = .lo)
    (unsealed : sealedWrite d q a = false) (v : Nat) : (cfgWrite q a v d).1 = hostCode q 0 (({ d with
      halves := d.halves.filter (fun h => !(h.req == q && h.addr == a)) ++ [⟨q, a, BitVec.ofNat 32 v, d.cfgc.next⟩] } : Dev).restage
        d.cfgc.staged) := by
  simp only [cfgWrite, hf, cfg, part, sealedWrite_takeSeq, unsealed, Bool.not_true, Bool.false_eq_true, if_false]
  rfl

/-- A _HI half stages both words of its pair: here with the _LO half held, and a value that stands. -/
theorem cfgWrite_hi {l : RegRow} {iy : List Nat} (hf : findReg (a + 4) = some (r, ix)) (hl : findReg a = some (l, iy)) (cfg : r.cfg = true)
    (part : r.part = .hi) (unsealed : sealedWrite d q (a + 4) = false) (room : d.cfgc.staged.length + 2 ≤ 4096) {v w k : Nat} {x : Word}
    (held : d.halves = [⟨q, a, x, k⟩]) (low : x.toNat = w) (lowBits : andNat w l.rw = w) (highBits : andNat v r.rw = v)
    (clamped : clampBy (pairRules l.off) (w + 2 ^ 32 * v) = (w + 2 ^ 32 * v, [])) :
    (cfgWrite q (a + 4) v d).1 = hostCode q 0 (showCfgc (({ d with halves := [] } : Dev).restage
      (stageWord (stageWord d.cfgc.staged ⟨a, BitVec.ofNat 32 (w + 2 ^ 32 * v), d.cfgc.next⟩)
        ⟨a + 4, BitVec.ofNat 32 ((w + 2 ^ 32 * v) / 2 ^ 32), d.cfgc.next⟩))) := by
  have taken : (takeSeq d).1.halves = [⟨q, a, x, k⟩] := held
  have fits : ¬ 4096 < (takeSeq d).1.cfgc.staged.length +
      ([a, a + 4].filter (fun b => !(takeSeq d).1.cfgc.staged.any (fun w => w.addr == b))).length := by
    have two := List.length_filter_le (fun b => !(takeSeq d).1.cfgc.staged.any (fun w => w.addr == b)) [a, a + 4]
    have same : (takeSeq d).1.cfgc.staged = d.cfgc.staged := rfl
    simp only [same, List.length_cons, List.length_nil] at two ⊢
    omega
  have released : [(⟨q, a, x, k⟩ : HeldHalf)].filter (fun h => !(h.req == q && h.addr == a)) = [] := by simp
  simp only [cfgWrite, hf, hl, cfg, part, sealedWrite_takeSeq, unsealed, taken, released, fits, Nat.add_sub_cancel, List.find?_cons,
    beq_self_eq_true, Bool.and_self, low, lowBits, highBits, clamped, Bool.not_true, Bool.false_eq_true, if_false, if_true, List.nil_append]
  rfl

end

theorem stageWord_eq (l : List Staged) (w : Staged) : stageWord l w = l.filter (fun x => x.addr ≠ w.addr) ++ [w] := by
  have apart : (fun x : Staged => x.addr != w.addr) = fun x => decide (x.addr ≠ w.addr) := by
    funext x
    by_cases h : x.addr = w.addr <;> simp [h]
  rw [stageWord, apart]

/-- The words of a pair take the places of those staged before for either half. -/
theorem stageWord_pair (l : List Staged) {w x : Staged} (h : w.addr ≠ x.addr) :
    stageWord (stageWord l w) x = l.filter (fun y => y.addr ≠ w.addr ∧ y.addr ≠ x.addr) ++ [w, x] := by
  simp [stageWord_eq, List.filter_append, List.filter_filter, h, Bool.and_comm]

/-- Staging, and what CFGC then shows of it, leaves every register but the counter and CFGC_STATUS, and all else that CFGC holds. -/
theorem restage_shown {d e : Dev} {l : List Staged} (h : RegsOnly [R.CFGC_STATUS] (d.restage l) e) :
    e.cfgc = { d.cfgc with staged := l, next := seqAfter d.cfgc.next } ∧ e.rd R.CFGC_SEQ = BitVec.ofNat 32 d.cfgc.next ∧
    RegsOutside [R.CFGC_STATUS, R.CFGC_SEQ] d e ∧ e.eff = d.eff ∧ e.mem = d.mem ∧ e.crossings = d.crossings ∧ e.halves = d.halves := by
  refine ⟨h.cfgc, (h.rd _ (by decide)).trans (rd_takeSeq d), fun b hb => ?_, h.eff, h.mem, h.crossings, h.halves⟩
  obtain ⟨status, seq⟩ : b ≠ R.CFGC_STATUS ∧ b ≠ R.CFGC_SEQ := by simpa using hb
  exact (h.rd b (by simpa using status)).trans (rd_takeSeq_ne d b seq)

/-! ### The clauses of O18 on writes -/

section
variable {s : State} {q : Requester} {a : Nat} {r : RegRow} {ix : List Nat} {v : Word}

theorem runs_configWrite_single (hr : s.dev.Reaches q a) (hf : findReg a = some (r, ix)) (cfg : r.cfg = true) (part : r.part = .single)
    (unsealed : sealedWrite s.dev q a = false) (room : s.dev.cfgc.staged.length < 4096) (unreserved : v.toNat &&& rowBits r = v.toNat)
    (clamped : clampBy (singleRules r.off) (v.toNat &&& r.rw) = (v.toNat &&& r.rw, [])) :
    Runs (.configWrite ⟨q, none⟩ (BitVec.ofNat 26 a) v) s fun e =>
      e.cfgc.staged = s.dev.cfgc.staged.filter (fun w => w.addr ≠ a) ++ [⟨a, BitVec.ofNat 32 (v.toNat &&& r.rw), s.dev.cfgc.next⟩] ∧
      e.rd R.CFGC_SEQ = BitVec.ofNat 32 s.dev.cfgc.next ∧ RegsOutside [R.CFGC_STATUS, R.CFGC_SEQ] s.dev e ∧ e.eff = s.dev.eff ∧
      e.cfgc.commits = s.dev.cfgc.commits ∧ e.cfgc.parts = s.dev.cfgc.parts ∧ e.crossings = s.dev.crossings ∧ e.mem = s.dev.mem := by
  refine runs_configWrite_reaches hr hf cfg ?_
  rw [← andNat_toNat] at unreserved clamped
  rw [cfgWrite_single_stands hf cfg part unsealed room unreserved clamped, andNat_toNat, stageWord_eq]
  obtain ⟨cfgc, seq, outside, eff, mem, crossings, -⟩ := restage_shown ((RegsOnly.refl (s.dev.restage _)).showCfgc.hostCode q 0)
  exact ⟨by rw [cfgc], seq, outside, eff, by rw [cfgc], by rw [cfgc], crossings, mem⟩

theorem runs_configWrite_lo (hr : s.dev.Reaches q a) (hf : findReg a = some (r, ix)) (cfg : r.cfg = true) (part : r.part = .lo)
    (unsealed : sealedWrite s.dev q a = false) :
    Runs (.configWrite ⟨q, none⟩ (BitVec.ofNat 26 a) v) s fun e =>
      e.halves = s.dev.halves.filter (fun h => !(h.req == q && h.addr == a)) ++ [⟨q, a, v, s.dev.cfgc.next⟩] ∧
      e.cfgc.staged = s.dev.cfgc.staged ∧ RegsOutside [R.CFGC_STATUS, R.CFGC_SEQ] s.dev e ∧ e.eff = s.dev.eff ∧ e.mem = s.dev.mem := by
  refine runs_configWrite_reaches hr hf cfg ?_
  rw [cfgWrite_lo hf cfg part unsealed, BitVec.ofNat_toNat, BitVec.setWidth_eq]
  obtain ⟨cfgc, -, outside, eff, mem, -, halves⟩ := restage_shown ((RegsOnly.refl (Dev.restage _ s.dev.cfgc.staged)).hostCode q 0)
  exact ⟨halves, by rw [cfgc], outside, eff, mem⟩

theorem runs_configWrite_hi {l : RegRow} {iy : List Nat} {w : Word} {k : Nat} (hr : s.dev.Reaches q (a + 4))
    (hf : findReg (a + 4) = some (r, ix)) (hl : findReg a = some (l, iy)) (cfg : r.cfg = true) (part : r.part = .hi)
    (unsealed : sealedWrite s.dev q (a + 4) = false) (room : s.dev.cfgc.staged.length + 2 ≤ 4096) (held : s.dev.halves = [⟨q, a, w, k⟩])
    (lowBits : w.toNat &&& l.rw = w.toNat) (highBits : v.toNat &&& r.rw = v.toNat)
    (clamped : clampBy (pairRules l.off) (w.toNat + 2 ^ 32 * v.toNat) = (w.toNat + 2 ^ 32 * v.toNat, [])) :
    Runs (.configWrite ⟨q, none⟩ (BitVec.ofNat 26 (a + 4)) v) s fun e => e.halves = [] ∧
      e.cfgc.staged = s.dev.cfgc.staged.filter (fun x => x.addr ≠ a ∧ x.addr ≠ a + 4) ++
        [⟨a, w, s.dev.cfgc.next⟩, ⟨a + 4, v, s.dev.cfgc.next⟩] ∧
      RegsOutside [R.CFGC_STATUS, R.CFGC_SEQ] s.dev e ∧ e.eff = s.dev.eff ∧ e.mem = s.dev.mem := by
  refine runs_configWrite_reaches hr hf cfg ?_
  have lt := w.isLt
  have low : BitVec.ofNat 32 (w.toNat + 2 ^ 32 * v.toNat) = w := BitVec.eq_of_toNat_eq (by rw [BitVec.toNat_ofNat]; omega)
  have high : BitVec.ofNat 32 ((w.toNat + 2 ^ 32 * v.toNat) / 2 ^ 32) = v :=
    BitVec.eq_of_toNat_eq (by rw [BitVec.toNat_ofNat]; have := v.isLt; omega)
  rw [cfgWrite_hi hf hl cfg part unsealed room held rfl ((andNat_toNat w _).trans lowBits) ((andNat_toNat v _).trans highBits) clamped,
    low, high, stageWord_pair _ (show a ≠ a + 4 by omega)]
  obtain ⟨cfgc, -, outside, eff, mem, -, halves⟩ :=
    restage_shown ((RegsOnly.refl (({ s.dev with halves := [] } : Dev).restage _)).showCfgc.hostCode q 0)
  exact ⟨halves, by rw [cfgc], outside, eff, mem⟩

end

/-! #### FOX_SEQ_COUNT, whose range begins at 1 -/

section
variable {s : State} {v : Word}

theorem sealedWrite_seqCount (d : Dev) (q : Requester) : sealedWrite d q R.FOX_SEQ_COUNT = false := by
  have untrimmed : (isTrim R.FOX_SEQ_COUNT || (spareBank R.FOX_SEQ_COUNT).isSome) = false := by decide
  simp only [sealedWrite, untrimmed, Bool.and_false]

theorem runs_configWrite_seqCount_of {p : Dev → Prop} (up : s.dev.Up) (hp : p (cfgWrite .host R.FOX_SEQ_COUNT v.toNat s.dev).1) :
    Runs (.configWrite ⟨.host, none⟩ (BitVec.ofNat 26 R.FOX_SEQ_COUNT) v) s p :=
  runs_configWrite up (by decide) (by decide) (by decide) findReg_seqCount rfl hp

/-- The count `v` alone is staged, nothing committed or in effect changes, and the report queue and the code are as given. -/
def StagesSeqCount (v reports : Word) (code : Nat) (d e : Dev) : Prop :=
  e.cfgc.staged = [⟨R.FOX_SEQ_COUNT, v, d.cfgc.next⟩] ∧ e.eff = d.eff ∧ e.rd R.FOX_SEQ_COUNT = d.rd R.FOX_SEQ_COUNT ∧
  e.rd R.CFGC_SEQ = BitVec.ofNat 32 d.cfgc.next ∧ e.rd R.CFGC_RPT_WR = reports ∧ e.get F.CFGC_STATUS_LAST_CODE = code ∧
  RegsOutside [R.CFGC_STATUS, R.CFGC_SEQ, R.CFGC_RPT_WR] d e

/-- A count of 0 is staged as 1, and the report of it is the first of the queue. -/
theorem cfgWrite_seqCount_zero {d : Dev} (empty : d.cfgc.staged = []) (rd : d.rd R.CFGC_RPT_RD = 0) (wr : d.rd R.CFGC_RPT_WR = 0) :
    ∃ rpt, (cfgWrite .host R.FOX_SEQ_COUNT 0 d).1 = hostCode .host clRange (showCfgc
      ((({ d with cfgc := { d.cfgc with rpt } } : Dev).restage [⟨R.FOX_SEQ_COUNT, 1, d.cfgc.next⟩]).wr R.CFGC_RPT_WR 1)) := by
  obtain ⟨clamped, unreserved⟩ := clampBy_seqCount_zero
  have written := cfgWrite_single (q := .host) findReg_seqCount rfl rfl (sealedWrite_seqCount d _) (by rw [empty]; decide)
    unreserved clamped
  generalize staged : d.restage (stageWord d.cfgc.staged ⟨R.FOX_SEQ_COUNT, BitVec.ofNat 32 1, d.cfgc.next⟩) = e at written
  obtain ⟨noneRead, noneFiled⟩ : e.rd R.CFGC_RPT_RD = 0 ∧ e.rd R.CFGC_RPT_WR = 0 := by
    subst staged
    exact ⟨(rd_takeSeq_ne d _ (by decide)).trans rd, (rd_takeSeq_ne d _ (by decide)).trans wr⟩
  obtain ⟨rpt, filed⟩ := fileReport_room (d := e) (by rw [noneFiled, noneRead]; decide) (d.cfgc.next % 65536)
    (R.FOX_SEQ_COUNT % 0x100000 / 4) (0 % 2 ^ 32) (1 % 2 ^ 32) (0 / 2 ^ 32 != 1 / 2 ^ 32) (R.FOX_SEQ_COUNT / 0x100000) clRange
  refine ⟨rpt, ?_⟩
  rw [written, reportAll_singleton, reportAt, filed, noneFiled, ← staged, empty]
  rfl

theorem stagesSeqCount_zero {d : Dev} (empty : d.cfgc.staged = []) (rd : d.rd R.CFGC_RPT_RD = 0) (wr : d.rd R.CFGC_RPT_WR = 0) :
    StagesSeqCount 1 1 clRange d (cfgWrite .host R.FOX_SEQ_COUNT 0 d).1 := by
  obtain ⟨rpt, written⟩ := cfgWrite_seqCount_zero empty rd wr
  rw [written]
  generalize reported : (({ d with cfgc := { d.cfgc with rpt } } : Dev).restage [⟨R.FOX_SEQ_COUNT, 1, d.cfgc.next⟩]).wr R.CFGC_RPT_WR 1 = e
  have shown := (RegsOnly.refl e).showCfgc.hostCode .host clRange
  obtain ⟨staged, eff, seq, filed⟩ : e.cfgc.staged = [⟨R.FOX_SEQ_COUNT, 1, d.cfgc.next⟩] ∧ e.eff = d.eff ∧
      e.rd R.CFGC_SEQ = BitVec.ofNat 32 d.cfgc.next ∧ e.rd R.CFGC_RPT_WR = 1 := by
    subst reported
    exact ⟨rfl, rfl, (Dev.rd_wr_ne _ _ _ _ (by decide)).trans (rd_takeSeq _), Dev.rd_wr_same _ _ _⟩
  have outside : RegsOutside [R.CFGC_STATUS, R.CFGC_SEQ, R.CFGC_RPT_WR] d (hostCode .host clRange (showCfgc e)) := fun b hb => by
    obtain ⟨status, seq, reports⟩ : b ≠ R.CFGC_STATUS ∧ b ≠ R.CFGC_SEQ ∧ b ≠ R.CFGC_RPT_WR := by simpa using hb
    rw [shown.rd b (by simpa using status), ← reported, Dev.rd_wr_ne _ _ _ _ reports]
    exact rd_takeSeq_ne d b seq
  exact ⟨by rw [shown.cfgc, staged], shown.eff.trans eff, outside _ (by decide), (shown.rd _ (by decide)).trans seq,
    (shown.rd _ (by decide)).trans filed, get_hostCode_host _ _, outside⟩

theorem stagesSeqCount_inRange {d : Dev} (nonzero : v ≠ 0) (empty : d.cfgc.staged = []) (wr : d.rd R.CFGC_RPT_WR = 0) :
    StagesSeqCount v 0 0 d (cfgWrite .host R.FOX_SEQ_COUNT v.toNat d).1 := by
  obtain ⟨clamped, unreserved⟩ := clampBy_seqCount (fun h => nonzero (BitVec.eq_of_toNat_eq h)) v.isLt
  rw [cfgWrite_single_stands findReg_seqCount rfl rfl (sealedWrite_seqCount _ _) (by rw [empty]; decide) unreserved clamped, empty,
    BitVec.ofNat_toNat, BitVec.setWidth_eq]
  obtain ⟨cfgc, seq, outside, eff, -⟩ :=
    restage_shown ((RegsOnly.refl (d.restage (stageWord [] ⟨R.FOX_SEQ_COUNT, v, d.cfgc.next⟩))).showCfgc.hostCode .host 0)
  exact ⟨by rw [cfgc]; rfl, eff, outside _ (by decide), seq, (outside _ (by decide)).trans wr, get_hostCode_host _ _,
    fun b hb => outside b fun h => hb (List.mem_append_left [R.CFGC_RPT_WR] h)⟩

theorem runs_configWrite_seqCount (up : s.dev.Up) (empty : s.dev.cfgc.staged = []) (rd : s.dev.rd R.CFGC_RPT_RD = 0)
    (wr : s.dev.rd R.CFGC_RPT_WR = 0) : Runs (.configWrite ⟨.host, none⟩ (BitVec.ofNat 26 R.FOX_SEQ_COUNT) v) s
      (StagesSeqCount (if v = 0 then 1 else v) (if v = 0 then 1 else 0) (if v = 0 then clRange else 0) s.dev) := by
  refine runs_configWrite_seqCount_of up ?_
  by_cases zero : v = 0
  · have value : v.toNat = 0 := by rw [zero]; rfl
    simp only [if_pos zero, value]
    exact stagesSeqCount_zero empty rd wr
  · simp only [if_neg zero]
    exact stagesSeqCount_inRange zero empty wr

theorem runs_configWrite_full (up : s.dev.Up) (full : s.dev.cfgc.staged.length = 4096)
    (new : ∀ w ∈ s.dev.cfgc.staged, w.addr ≠ R.FOX_SEQ_COUNT) :
    Runs (.configWrite ⟨.host, none⟩ (BitVec.ofNat 26 R.FOX_SEQ_COUNT) v) s fun e =>
      e.cfgc.staged = s.dev.cfgc.staged ∧ e.eff = s.dev.eff ∧ e.get F.CFGC_STATUS_LAST_CODE = 0x0112 := by
  refine runs_configWrite_seqCount_of up ?_
  rw [cfgWrite_full findReg_seqCount rfl rfl (sealedWrite_seqCount _ _) full.ge new, refuseWrite, reportAt]
  generalize reported : fileReport (takeSeq s.dev).1 _ _ _ _ _ _ _ = e
  obtain ⟨staged, eff⟩ : e.cfgc.staged = s.dev.cfgc.staged ∧ e.eff = s.dev.eff := by
    rw [← reported]
    exact fileReport_staged (takeSeq s.dev).1 _ _ _ _ _ _ _
  have shown := (RegsOnly.refl e).hostCode .host 0x0112
  exact ⟨(congrArg Cfgc.staged shown.cfgc).trans staged, shown.eff.trans eff, get_hostCode_host _ _⟩

end

/-! ### Commits and discards (R272, R274) -/

/-- CFGC as it takes a commit, before it shows it: the staging set and the held halves go with the next sequence number. -/
def Dev.commitTaken (d : Dev) : Dev :=
  (({ (takeSeq d).1 with halves := d.halves.filter (fun h => !isCfgReg h.addr) } : Dev).setCfgc
    { (takeSeq d).1.cfgc with
      staged := []
      commits := d.cfgc.commits ++ [⟨d.cfgc.next, d.cfgc.staged.map (fun w => { w with addr := cfgKey d w.addr }),
        d.halves.filter (fun h => isCfgReg h.addr)⟩] }).wr R.CFGC_COMMIT_SEQ (BitVec.ofNat 32 d.cfgc.next)

theorem cfgcCommit_room {d : Dev} (q : Requester) (room : d.cfgc.commits.length < 8) :
    cfgcCommit q d = showCfgc (hostCode q 0 d.commitTaken) := by
  rw [cfgcCommit, cfgCommit, if_neg (Nat.not_le.mpr room)]
  rfl

section
variable {s : State}

theorem runs_cfgcCommit (q : Requester) (up : s.dev.Up) (room : s.dev.cfgc.commits.length < 8) :
    Runs (.cfgcCommit q) s fun e => e.cfgc.staged = [] ∧
      e.cfgc.commits = s.dev.cfgc.commits ++ [⟨s.dev.cfgc.next, s.dev.cfgc.staged.map (fun w => { w with addr := cfgKey s.dev w.addr }),
        s.dev.halves.filter (fun h => isCfgReg h.addr)⟩] ∧ e.halves = s.dev.halves.filter (fun h => !isCfgReg h.addr) ∧
      e.rd R.CFGC_COMMIT_SEQ = BitVec.ofNat 32 s.dev.cfgc.next ∧ e.get F.CFGC_STATUS_BUSY = 1 ∧ e.eff = s.dev.eff ∧
      RegsOutside [R.CFGC_STATUS, R.CFGC_SEQ, R.CFGC_COMMIT_SEQ] s.dev e := by
  refine runs_of_live 1 (cfgcCommit q) up rfl ?_
  rw [cfgcCommit_room q room]
  have coded := (RegsOnly.refl s.dev.commitTaken).hostCode q 0
  have shown := coded.showCfgc
  have busy : (showCfgc (hostCode q 0 s.dev.commitTaken)).get F.CFGC_STATUS_BUSY = 1 := by
    obtain ⟨-, busy⟩ := get_showCfgc (hostCode q 0 s.dev.commitTaken)
    have waiting : s.dev.commitTaken.cfgc.commits.isEmpty = false := by
      change (s.dev.cfgc.commits ++ [_]).isEmpty = false
      simp
    rw [busy, coded.cfgc, waiting]
    rfl
  refine ⟨congrArg Cfgc.staged shown.cfgc, congrArg Cfgc.commits shown.cfgc, shown.halves,
    (shown.rd _ (by decide)).trans (Dev.rd_wr_same _ _ _), busy, shown.eff, fun b hb => ?_⟩
  obtain ⟨status, seq, commit⟩ : b ≠ R.CFGC_STATUS ∧ b ≠ R.CFGC_SEQ ∧ b ≠ R.CFGC_COMMIT_SEQ := by simpa using hb
  exact (shown.rd b (by simpa using status)).trans ((Dev.rd_wr_ne _ _ _ _ commit).trans (rd_takeSeq_ne s.dev b seq))

theorem gives_cfgcCommit_full (q : Requester) (up : s.dev.Up) (full : 8 ≤ s.dev.cfgc.commits.length) :
    Gives (.cfgcCommit q) s (if q = .host then s.dev.put F.CFGC_STATUS_LAST_CODE 0x0114 else s.dev) :=
  gives_of_live 1 (cfgcCommit q) up rfl (by rw [cfgcCommit, cfgCommit, if_pos full]; rfl)

theorem runs_cfgcDiscard (q : Requester) (up : s.dev.Up) :
    Runs (.cfgcDiscard q) s fun e => e.cfgc = { s.dev.cfgc with staged := [] } ∧ e.eff = s.dev.eff ∧
      e.get F.CFGC_STATUS_STAGED = 0 ∧ RegsOutside [R.CFGC_STATUS] s.dev e := by
  refine runs_of_live 1 (cfgcDiscard q) up rfl ?_
  have coded := (RegsOnly.refl (s.dev.setCfgc { s.dev.cfgc with staged := [] })).hostCode q 0
  have shown := coded.showCfgc
  obtain ⟨count, -⟩ := get_showCfgc (hostCode q 0 (s.dev.setCfgc { s.dev.cfgc with staged := [] }))
  rw [coded.cfgc] at count
  exact ⟨shown.cfgc, shown.eff, count, shown.rd⟩

end

/-! ### Checks that a commit passes (R274) -/

section
variable {d : Dev} {v : CommitView}

/-- A commit of STAG's registers alone holds no word of another block. -/
theorem CommitView.has_of_stag (stag : ∀ w ∈ v.words, keyReg w.addr / 0x100000 = 4) {k : Nat} (other : keyReg k / 0x100000 ≠ 4) :
    v.has k = false :=
  List.any_eq_false.mpr fun w hw same => other (beq_iff_eq.mp same ▸ stag w hw)

theorem CommitView.touches_of_stag (stag : ∀ w ∈ v.words, keyReg w.addr / 0x100000 = 4) {block : Nat} (other : block ≠ 4) :
    v.touches block = false :=
  List.any_eq_false.mpr fun w hw same => other ((beq_iff_eq.mp same).symm.trans (stag w hw))

/-- No rule between fields speaks of STAG. -/
theorem relate_of_stag (stag : ∀ w ∈ v.words, keyReg w.addr / 0x100000 = 4) : relateBefore d v = v ∧ relateAfter d v = v := by
  have untouched {block : Nat} (other : block ≠ 4) := CommitView.touches_of_stag stag other
  have header : v.has R.CAP_ACQ_HDR_LO = false := CommitView.has_of_stag stag (by decide)
  simp only [relateBefore, relateAfter, capRule, header, untouched (show 5 ≠ 4 by decide), untouched (show 6 ≠ 4 by decide),
    untouched (show 7 ≠ 4 by decide), untouched (show 9 ≠ 4 by decide), untouched (show 12 ≠ 4 by decide),
    untouched (show 16 ≠ 4 by decide), untouched (show 17 ≠ 4 by decide), untouched (show 19 ≠ 4 by decide), Bool.false_eq_true, if_false,
    and_self]

theorem redReg_block (p : Fin 4) : keyReg (R.RED_p_FIR p) / 0x100000 ≠ 4 ∧ keyReg (R.RED_p_CFG p) / 0x100000 ≠ 4 := by
  revert p
  decide

/-- No field of STAG names a table. -/
theorem checkTables_of_stag (stag : ∀ w ∈ v.words, keyReg w.addr / 0x100000 = 4) (n : Nat) :
    checkPlanField (d, v, n) = (d, v, n) ∧ checkTables (d, v, n) = (d, v, n) := by
  have absent {k : Nat} (other : keyReg k / 0x100000 ≠ 4) := CommitView.has_of_stag stag other
  have plan : v.has R.CAP_PLAN = false := absent (by decide)
  have kernel : v.has R.FOX_KERNEL = false := absent (by decide)
  have stripe : v.has R.DDR_STRIPE = false := absent (by decide)
  have sched : v.has R.BEAVER_SCHED = false := absent (by decide)
  have fir (p : Fin 4) : checkFirField (d, v, n) p = (d, v, n) := by
    simp only [checkFirField, absent (redReg_block p).1, absent (redReg_block p).2, Bool.and_false, Bool.or_self, Bool.not_false, if_true]
  have firs : pipes.foldl checkFirField (d, v, n) = (d, v, n) :=
    List.foldlRecOn pipes checkFirField (motive := fun s => s = (d, v, n)) rfl fun s same p _ => by rw [same, fir p]
  obtain ⟨noKernel, noStripe, noSched⟩ : checkKernelField (d, v, n) = (d, v, n) ∧ checkStripeField (d, v, n) = (d, v, n) ∧
      checkSchedField (d, v, n) = (d, v, n) := by
    simp only [checkKernelField, checkStripeField, checkSchedField, kernel, stripe, sched, Bool.not_false, if_true, and_self]
  exact ⟨by simp only [checkPlanField, plan, Bool.not_false, if_true], by rw [checkTables, noKernel, firs, noStripe, noSched]⟩

end

theorem dropHalves_nil (words : List Staged) (d : Dev) : dropHalves words [] d = d := rfl
theorem fileChecks_none (d : Dev) (words : List Staged) (n : Nat) : fileChecks (d, ⟨words, []⟩, n) = (d, ⟨words, []⟩, n) := rfl

/-- A commit of whole registers of STAG passes as it is, with no report. -/
theorem checkCommit_stag {c : Commit} (d : Dev) (stag : ∀ w ∈ c.words, keyReg w.addr / 0x100000 = 4) (whole : c.halves = []) :
    checkCommit c d = (d, ⟨c.words, []⟩, 0) := by
  have related := relate_of_stag (d := d) (v := ⟨c.words, []⟩) stag
  have tables := checkTables_of_stag (d := d) (v := ⟨c.words, []⟩) stag 0
  simp only [checkCommit, whole, dropHalves_nil, List.length_nil, related.1, related.2, fileChecks_none, tables.1, tables.2]

/-! ### What a checked commit hands out (R275) -/

/-- A word of STAG_TB_CTRL is the register's value, and waits for its unit. -/
theorem handWord_stagTb (d : Dev) (v : Word) (q : Nat) : handWord (d, []) ⟨R.STAG_TB_CTRL, v, q⟩ =
    ((d.wr R.STAG_TB_CTRL v).setCfgc { d.cfgc with parts := mergeWord d.cfgc.parts ⟨.stagTb, R.STAG_TB_CTRL, v⟩ }, [.stagTb]) := by
  have noSpare : spareBank (keyReg R.STAG_TB_CTRL) = none := by decide
  have unit : unitOfReg (keyReg R.STAG_TB_CTRL) = .stagTb := by decide
  have noSpeed : ¬ keyReg R.STAG_TB_CTRL = R.DDR_CTRL := by decide
  simp only [handWord, noSpare, unit, latches, Bool.false_eq_true, if_false, noSpeed, List.contains_nil, List.nil_append]
  rfl

/-! ### Units apply what they were handed (R275) -/

/-- CFGC_APPLIED_SEQ as the announcement of a commit leaves it: it only advances (R272). -/
def appliedAfter (d : Dev) (seq : Nat) : Nat :=
  if (seq + 2 ^ 32 - (d.rd R.CFGC_APPLIED_SEQ).toNat) % 2 ^ 32 < 2 ^ 31 then seq else (d.rd R.CFGC_APPLIED_SEQ).toNat

theorem appliedAfter_congr {d e : Dev} (h : e.rd R.CFGC_APPLIED_SEQ = d.rd R.CFGC_APPLIED_SEQ) (seq : Nat) :
    appliedAfter e seq = appliedAfter d seq := by rw [appliedAfter, appliedAfter, h]

theorem appliedAfter_advances {d : Dev} {seq : Nat} (le : (d.rd R.CFGC_APPLIED_SEQ).toNat ≤ seq)
    (lt : seq < (d.rd R.CFGC_APPLIED_SEQ).toNat + 2 ^ 31) : appliedAfter d seq = seq := by
  rw [appliedAfter, if_pos (by omega)]

theorem announceApplied_single (d : Dev) (w : CommitWait) : announceApplied d [w] = if w.units.isEmpty && !w.deferred then
    (d.wr R.CFGC_APPLIED_SEQ (BitVec.ofNat 32 (appliedAfter d w.seq))).post .q evCfgApplied 0 w.seq else d := rfl

/-- A commit is announced, CFGC_APPLIED_SEQ reads as `applied`, and none is waited for any more. -/
def Dev.announced (d : Dev) (applied seq : Nat) : Dev :=
  { (d.wr R.CFGC_APPLIED_SEQ (BitVec.ofNat 32 applied)).post .q evCfgApplied 0 seq with cfgc := { d.cfgc with waits := [] } }

/-- While a unit still has to apply the one commit that is waited for, nothing is announced. -/
theorem unitApplied_waiting {d : Dev} {u : CfgUnit} {seq : Nat} (waits : d.cfgc.waits = [⟨seq, [u], false⟩]) :
    unitApplied d [] = d.putB F.CFGC_STATUS_PENDING true := by
  have same : ({ d with cfgc := { d.cfgc with waits := [⟨seq, [u], false⟩] } } : Dev) = d := by rw [← waits]
  have all : [u].filter (fun x => !([] : List CfgUnit).contains x) = [u] := rfl
  simp only [unitApplied, waits, List.map_cons, List.map_nil, Bool.false_eq_true, if_false, all, announceApplied_single, List.isEmpty_cons,
    Bool.false_and, Bool.not_false, Bool.or_true, List.filter_cons, List.filter_nil, if_true, Bool.true_or, same]

theorem announceApplied_done (d : Dev) (seq : Nat) : announceApplied d [⟨seq, [], false⟩] =
    (d.wr R.CFGC_APPLIED_SEQ (BitVec.ofNat 32 (appliedAfter d seq))).post .q evCfgApplied 0 seq := rfl

/-- When the unit that was waited for has applied it, the commit is announced. -/
theorem unitApplied_last {d : Dev} {u : CfgUnit} {seq : Nat} (waits : d.cfgc.waits = [⟨seq, [u], false⟩]) :
    unitApplied d [u] = (d.announced (appliedAfter d seq) seq).putB F.CFGC_STATUS_PENDING (!d.cfgc.commits.isEmpty) := by
  have served : [u].filter (fun x => !([u] : List CfgUnit).contains x) = [] := by simp
  rw [unitApplied, waits]
  simp only [List.map_cons, List.map_nil, Bool.false_eq_true, if_false, served, announceApplied_done]
  rfl

/-- The one word handed out takes effect, and the commit that waited for it is announced. -/
def Dev.takesWord (d : Dev) (a : Nat) (v : Word) (applied seq : Nat) : Dev :=
  ((d.setCfgc { d.cfgc with parts := [] }).efw a v).announced applied seq

section
variable (d : Dev) (a : Nat) (v : Word) (applied seq : Nat)

theorem takesWord_effect : (d.takesWord a v applied seq).ef a = v ∧ (∀ b, b ≠ a → (d.takesWord a v applied seq).ef b = d.ef b) ∧
    (d.takesWord a v applied seq).cfgc.parts = [] ∧ (d.takesWord a v applied seq).cfgc.waits = [] ∧
    (d.takesWord a v applied seq).mem = d.mem :=
  ⟨Dev.ef_efw_same (d.setCfgc _) a v, fun b hb => Dev.ef_efw_ne (d.setCfgc _) a b v hb, rfl, rfl, rfl⟩

theorem takesWord_says : (d.takesWord a v applied seq).rd R.CFGC_APPLIED_SEQ = BitVec.ofNat 32 applied ∧
    Says .q evCfgApplied 0 seq none d (d.takesWord a v applied seq) :=
  ⟨Dev.rd_wr_same ((d.setCfgc _).efw a v) _ _, rfl⟩

end

section
variable {d : Dev} {u : CfgUnit} {a seq : Nat} {v : Word}

theorem takeWords_singleton (d : Dev) (w : CfgWord) : takeWords d [w] = d.efw w.addr w.val := rfl

/-- A unit that is handed the one word of the one commit waited for takes it. -/
theorem applyUnit_last (parts : d.cfgc.parts = [⟨u, a, v⟩]) (waits : d.cfgc.waits = [⟨seq, [u], false⟩]) :
    RegsOnly [R.CFGC_STATUS] (d.takesWord a v (appliedAfter d seq) seq) (applyUnit d u) := by
  have mine : d.cfgc.parts.filter (fun w => w.tgt == u) = [⟨u, a, v⟩] := by simp [parts]
  have others : d.cfgc.parts.filter (fun w => w.tgt != u) = [] := by simp [parts]
  have taken : applyUnit d u = unitApplied ((d.setCfgc { d.cfgc with parts := [] }).efw a v) [u] := by
    rw [applyUnit, mine, others, takeWords_singleton]
    rfl
  rw [taken, unitApplied_last (d := (d.setCfgc { d.cfgc with parts := [] }).efw a v) waits, appliedAfter_congr (d := d) rfl]
  exact (RegsOnly.refl _).putB (f := F.CFGC_STATUS_PENDING) (List.mem_singleton_self _) _

theorem hasPart_last (parts : d.cfgc.parts = [⟨u, a, v⟩]) : hasPart d u = true := by simp [hasPart, parts]

end

/-- From `d` to `e` what is in effect, what CFGC holds and memory stay. -/
structure KeepsEffect (d e : Dev) : Prop where
  eff : e.eff = d.eff
  cfgc : e.cfgc = d.cfgc
  mem : e.mem = d.mem

namespace KeepsEffect
variable {c d e a b : Dev}

theorem refl (d : Dev) : KeepsEffect d d := ⟨rfl, rfl, rfl⟩
theorem regs {touched : List Nat} (h : KeepsEffect c d) (k : RegsOnly touched d e) : KeepsEffect c e :=
  ⟨k.eff.trans h.eff, k.cfgc.trans h.cfgc, k.mem.trans h.mem⟩
theorem put (h : KeepsEffect d e) (f : Field) (x : Nat) : KeepsEffect d (e.put f x) := ⟨h.eff, h.cfgc, h.mem⟩
theorem putB (h : KeepsEffect d e) (f : Field) (x : Bool) : KeepsEffect d (e.putB f x) := ⟨h.eff, h.cfgc, h.mem⟩
theorem setFox (h : KeepsEffect d e) (x : Fox) : KeepsEffect d (e.setFox x) := ⟨h.eff, h.cfgc, h.mem⟩
theorem setConv (h : KeepsEffect d e) (conv : Conv) : KeepsEffect d { e with conv } := ⟨h.eff, h.cfgc, h.mem⟩
theorem ite (p : Prop) [Decidable p] (ha : KeepsEffect d a) (hb : KeepsEffect d b) : KeepsEffect d (if p then a else b) := by
  split <;> assumption

theorem foxCode (h : KeepsEffect d e) (c : Nat) : KeepsEffect d (foxCode c e) := h.put _ _
theorem closeSeq (h : KeepsEffect d e) : KeepsEffect d (closeSeq e) := (h.setFox _).putB _ _
theorem trigoutRefresh (h : KeepsEffect d e) : KeepsEffect d (trigoutRefresh e) := .ite _ h (h.setFox _)
theorem trigoutMinRecompute (h : KeepsEffect d e) : KeepsEffect d (trigoutMinRecompute e) :=
  .ite _ ((h.put _ _).foxCode _) (h.put _ _)

end KeepsEffect

/-- What FOX does beside taking its words changes no more of it. -/
theorem foxApply_keeps (d : Dev) : KeepsEffect (applyUnit d .fox) (foxApply d) := by
  have closed (x : Fox) := ((KeepsEffect.refl (applyUnit d .fox)).setFox x).closeSeq
  have held (x : Fox) (p : Prop) [Decidable p] (b : Bool) := KeepsEffect.ite p (closed x) ((closed x).putB F.FOX_STATUS_HOLDOFF b)
  have fallen (x y : Fox) (p q : Prop) [Decidable p] [Decidable q] (b : Bool) :=
    KeepsEffect.ite q (((held x p b).setFox y).foxCode 0x0708) ((held x p b).setFox y)
  exact (KeepsEffect.ite _ (held _ _ _) (fallen _ _ _ _ _)).trigoutRefresh.trigoutMinRecompute

theorem ilvApply_keeps (d : Dev) : KeepsEffect (applyUnit d .ilvCtrl) (ilvApply d) := .ite _ (.refl _) ((KeepsEffect.refl _).setConv _)

/-- With a word handed to it and no span of vectors in progress, each of these units applies it. -/
theorem commitApply_keeps {d : Dev} {u : CfgUnit} (mem : u ∈ [CfgUnit.stagTb, .lynxExt, .ilvCtrl, .fox]) (span : midSpan d = false)
    (part : hasPart d u = true) : KeepsEffect (applyUnit d u) (commitApply u d) := by
  simp only [List.mem_cons, List.not_mem_nil, or_false] at mem
  rcases mem with rfl | rfl | rfl | rfl <;>
    simp only [commitApply, part, span, Bool.not_true, Bool.false_eq_true, if_false]
  · exact .refl _
  · exact .refl _
  · exact ilvApply_keeps d
  · exact foxApply_keeps d

/-! ### A commit of STAG_TB_CTRL alone is checked (R274, R64) -/

theorem Dev.cfgc_setCfgc (d : Dev) (c : Cfgc) : (d.setCfgc c).cfgc = c := rfl
theorem Dev.phase_setCfgc (d : Dev) (c : Cfgc) : (d.setCfgc c).phase = d.phase := rfl
theorem Dev.setCfgc_setCfgc (d : Dev) (c e : Cfgc) : (d.setCfgc c).setCfgc e = d.setCfgc e := rfl
theorem Dev.setCfgc_wr (d : Dev) (c : Cfgc) (a : Nat) (v : Word) : (d.setCfgc c).wr a v = (d.wr a v).setCfgc c := rfl

/-- Its word is the register's value and waits for its unit, and the commit waits for that. -/
def Dev.handedTb (d : Dev) (v : Word) (seq : Nat) : Dev :=
  (d.wr R.STAG_TB_CTRL v).setCfgc { d.cfgc with
    commits := [], parts := [⟨.stagTb, R.STAG_TB_CTRL, v⟩], waits := [⟨seq, [.stagTb], false⟩] }

/-- In a mode transition the commit waits for the target mode instead. -/
def Dev.deferredTb (d : Dev) (v : Word) (seq q : Nat) : Dev :=
  (d.wr R.STAG_TB_CTRL v).setCfgc { d.cfgc with
    commits := [], withMode := d.cfgc.withMode ++ [⟨seq, [⟨R.STAG_TB_CTRL, v, q⟩], []⟩], waits := [⟨seq, [], true⟩] }

section
variable {d : Dev} {v : Word} {seq q : Nat}

theorem stagTb_block : keyReg R.STAG_TB_CTRL / 0x100000 = 4 := by decide

theorem checkCommit_stagTb (d : Dev) (v : Word) (seq q : Nat) : checkCommit ⟨seq, [⟨R.STAG_TB_CTRL, v, q⟩], []⟩ d =
    (d, ⟨[⟨R.STAG_TB_CTRL, v, q⟩], []⟩, 0) :=
  checkCommit_stag d (fun w hw => by rw [List.mem_singleton.mp hw]; exact stagTb_block) rfl

theorem commitCheckDone_stagTb_stable (commits : d.cfgc.commits = [⟨seq, [⟨R.STAG_TB_CTRL, v, q⟩], []⟩]) (parts : d.cfgc.parts = [])
    (waits : d.cfgc.waits = []) (stable : d.phase = 0) :
    commitCheckDone d = showCfgc ((d.handedTb v seq).putB F.CFGC_STATUS_PENDING true) := by
  have word : mergeWord [] ⟨.stagTb, R.STAG_TB_CTRL, v⟩ = [⟨.stagTb, R.STAG_TB_CTRL, v⟩] := rfl
  rw [← unitApplied_waiting (d := d.handedTb v seq) (u := .stagTb) rfl]
  simp only [commitCheckDone, commits, checkCommit_stagTb, List.mergeSort_singleton, Dev.phase_setCfgc, stable, if_true, List.foldl_cons,
    List.foldl_nil, handWord_stagTb, Dev.setCfgc_wr, Dev.setCfgc_setCfgc, Dev.cfgc_setCfgc, parts, waits, word, List.nil_append, Dev.handedTb]

theorem commitCheckDone_stagTb_moving (commits : d.cfgc.commits = [⟨seq, [⟨R.STAG_TB_CTRL, v, q⟩], []⟩])
    (waits : d.cfgc.waits = []) (moving : d.phase ≠ 0) : commitCheckDone d = showCfgc (d.deferredTb v seq q) := by
  simp only [commitCheckDone, commits, checkCommit_stagTb, List.mergeSort_singleton, Dev.phase_setCfgc, moving, if_true, if_false,
    List.foldl_cons, List.foldl_nil, Dev.setCfgc_wr, Dev.setCfgc_setCfgc, Dev.cfgc_setCfgc, waits, List.nil_append, Dev.deferredTb]

end

/-! ### The clauses of O18 on commits -/

section
variable {s : State} {v : Word} {seq q : Nat}

theorem runs_commitCheckDone_stable (up : s.dev.Up) (commits : s.dev.cfgc.commits = [⟨seq, [⟨R.STAG_TB_CTRL, v, q⟩], []⟩])
    (parts : s.dev.cfgc.parts = []) (waits : s.dev.cfgc.waits = []) (stable : s.dev.phase = 0) :
    Runs .commitCheckDone s fun e => e.rd R.STAG_TB_CTRL = v ∧ e.ef R.STAG_TB_CTRL = s.dev.ef R.STAG_TB_CTRL ∧
      e.cfgc.parts = [⟨.stagTb, R.STAG_TB_CTRL, v⟩] ∧ e.cfgc.waits = [⟨seq, [.stagTb], false⟩] ∧ e.cfgc.commits = [] := by
  refine runs_of_unheld 1 1 commitCheckDone up rfl ?_
  rw [commitCheckDone_stagTb_stable commits parts waits stable]
  have shown := ((RegsOnly.refl (s.dev.handedTb v seq)).putB (f := F.CFGC_STATUS_PENDING) (List.mem_singleton_self _) true).showCfgc
  exact ⟨(shown.rd _ (by decide)).trans (Dev.rd_wr_same _ _ _), shown.ef _, by rw [shown.cfgc]; rfl, by rw [shown.cfgc]; rfl,
    by rw [shown.cfgc]; rfl⟩

theorem runs_commitCheckDone_moving (up : s.dev.Up) (commits : s.dev.cfgc.commits = [⟨seq, [⟨R.STAG_TB_CTRL, v, q⟩], []⟩])
    (parts : s.dev.cfgc.parts = []) (waits : s.dev.cfgc.waits = []) (moving : s.dev.phase ≠ 0) :
    Runs .commitCheckDone s fun e => e.rd R.STAG_TB_CTRL = v ∧ e.eff = s.dev.eff ∧ e.cfgc.parts = [] ∧ e.cfgc.commits = [] ∧
      e.cfgc.withMode = s.dev.cfgc.withMode ++ [⟨seq, [⟨R.STAG_TB_CTRL, v, q⟩], []⟩] ∧ e.cfgc.waits = [⟨seq, [], true⟩] := by
  refine runs_of_unheld 1 1 commitCheckDone up rfl ?_
  rw [commitCheckDone_stagTb_moving commits waits moving]
  have shown := (RegsOnly.refl (s.dev.deferredTb v seq q)).showCfgc
  exact ⟨(shown.rd _ (by decide)).trans (Dev.rd_wr_same _ _ _), shown.eff, by rw [shown.cfgc]; exact parts, by rw [shown.cfgc]; rfl,
    by rw [shown.cfgc]; rfl, by rw [shown.cfgc]; rfl⟩

theorem runs_commitApply_stagTb (up : s.dev.Up) (parts : s.dev.cfgc.parts = [⟨.stagTb, R.STAG_TB_CTRL, v⟩])
    (waits : s.dev.cfgc.waits = [⟨seq, [.stagTb], false⟩]) (le : (s.dev.rd R.CFGC_APPLIED_SEQ).toNat ≤ seq)
    (lt : seq < (s.dev.rd R.CFGC_APPLIED_SEQ).toNat + 2 ^ 31) :
    Runs (.commitApply .stagTb) s fun e => e.ef R.STAG_TB_CTRL = v ∧ e.cfgc.parts = [] ∧ e.cfgc.waits = [] ∧
      e.rd R.CFGC_APPLIED_SEQ = BitVec.ofNat 32 seq ∧ Says .q evCfgApplied 0 seq none s.dev e ∧
      (∀ a, a ≠ R.STAG_TB_CTRL → e.ef a = s.dev.ef a) := by
  refine runs_of_unheld 4 4 (commitApplied .stagTb) up rfl ?_
  have applied : commitApply .stagTb s.dev = applyUnit s.dev .stagTb := by
    simp only [commitApply, hasPart_last parts, Bool.not_true, Bool.false_eq_true, if_false]
  rw [commitApplied, applied]
  have shown := (applyUnit_last parts waits).showCfgc
  rw [appliedAfter_advances le lt] at shown
  obtain ⟨own, others, noParts, noWaits, -⟩ := takesWord_effect s.dev R.STAG_TB_CTRL v seq seq
  obtain ⟨number, said⟩ := takesWord_says s.dev R.STAG_TB_CTRL v seq seq
  exact ⟨(shown.ef _).trans own, by rw [shown.cfgc, noParts], by rw [shown.cfgc, noWaits], (shown.rd _ (by decide)).trans number,
    shown.crossings.trans said, fun a ha => (shown.ef a).trans (others a ha)⟩

theorem runs_commitApply {u : CfgUnit} {a : Nat} (mem : u ∈ [CfgUnit.stagTb, .lynxExt, .ilvCtrl, .fox]) (up : s.dev.Up)
    (span : midSpan s.dev = false) (parts : s.dev.cfgc.parts = [⟨u, a, v⟩]) (waits : s.dev.cfgc.waits = [⟨seq, [u], false⟩]) :
    Runs (.commitApply u) s fun e =>
      e.ef a = v ∧ (∀ b, b ≠ a → e.ef b = s.dev.ef b) ∧ e.cfgc.parts = [] ∧ e.cfgc.waits = [] ∧ e.mem = s.dev.mem := by
  refine runs_of_unheld (cfgUnitBlock u) (cfgUnitBlock u) (commitApplied u) up rfl ?_
  have taken := applyUnit_last parts waits
  have kept := (commitApply_keeps mem span (hasPart_last parts)).regs (RegsOnly.refl _).showCfgc
  have ef (b : Nat) : (commitApplied u s.dev).ef b = (s.dev.takesWord a v (appliedAfter s.dev seq) seq).ef b := by
    rw [Dev.ef, Dev.ef, commitApplied, kept.eff, taken.eff]
  have cfgc : (commitApplied u s.dev).cfgc = (s.dev.takesWord a v (appliedAfter s.dev seq) seq).cfgc := kept.cfgc.trans taken.cfgc
  obtain ⟨own, others, noParts, noWaits, memory⟩ := takesWord_effect s.dev a v (appliedAfter s.dev seq) seq
  exact ⟨(ef a).trans own, fun b hb => (ef b).trans (others b hb), by rw [cfgc, noParts], by rw [cfgc, noWaits],
    (kept.mem.trans taken.mem).trans memory⟩

end

/-- Settles O18: a write is one spec lemma of CFGC for each kind of register and what CFGC shows after it; a commit of STAG_TB_CTRL
passes every check as it is, and the unit that applies the last part of a commit announces it. -/
theorem configurationCommits : Obligations.ConfigurationCommits :=
  ⟨⟨fun _ _ _ _ _ _ hr hf cfg part unsealed room unreserved clamped =>
        runs_configWrite_single hr hf cfg part unsealed room unreserved clamped,
      fun _ _ _ _ _ _ hr hf cfg part unsealed => runs_configWrite_lo hr hf cfg part unsealed,
      fun _ _ _ _ _ _ _ _ _ _ hr hf hl cfg part unsealed room held lowBits highBits clamped =>
        runs_configWrite_hi hr hf hl cfg part unsealed room held lowBits highBits clamped,
      fun _ _ up empty rd wr => runs_configWrite_seqCount up empty rd wr,
      fun _ _ up full new => runs_configWrite_full up full new⟩,
    fun _ q up room => runs_cfgcCommit q up room,
    fun _ q up full => gives_cfgcCommit_full q up full,
    fun _ q up => runs_cfgcDiscard q up,
    fun _ _ _ _ up commits parts waits stable => runs_commitCheckDone_stable up commits parts waits stable,
    fun _ _ _ up parts waits le lt _ => runs_commitApply_stagTb up parts waits le lt,
    fun _ _ _ _ _ mem up span parts waits => runs_commitApply mem up span parts waits,
    fun _ _ _ _ up commits parts waits moving => runs_commitCheckDone_moving up commits parts waits moving⟩

end Sys2Proof.Machine
end
